-- ==== Sys2Proof/Word.lean ====
section
/-! DEFINITION. The word types of the block: register words, bytes and byte strings (spec/00_scope.md R11, R12),
with the plainest operations on them. -/

namespace Sys2Proof

/-- A 32-bit register word (R73). -/
abbrev Word := BitVec 32

/-- One byte. -/
abbrev Byte := BitVec 8

/-- A byte string, first byte at the lowest address (R12). -/
abbrev Bytes := List Byte

/-- The byte holding the low eight bits of a number. -/
def byteOf (n : Nat) : Byte := BitVec.ofNat 8 n

/-- The word holding the low 32 bits of a number. -/
def wordOf (n : Nat) : Word := BitVec.ofNat 32 n

/-- `len` little-endian bytes of a number (R12). -/
def leBytes : Nat → Nat → Bytes
  | 0, _ => []
  | len + 1, n => byteOf n :: leBytes len (n / 256)

/-- `len` big-endian bytes of a number (R12). -/
def beBytes (len n : Nat) : Bytes := (leBytes len n).reverse

/-- The number whose little-endian bytes are given. -/
def leNat : Bytes → Nat
  | [] => 0
  | b :: bs => b.toNat + 256 * leNat bs

/-- The number whose big-endian bytes are given. -/
def beNat (bs : Bytes) : Nat := bs.foldl (fun a b => 256 * a + b.toNat) 0

/-- `n` zero bytes. -/
def zeros (n : Nat) : Bytes := List.replicate n 0

/-- Bit `i` of a number. -/
def bitAt (n i : Nat) : Bool := n.testBit i

/-- Bits `[lo + len - 1 : lo]` of a number. -/
def bitsAt (n lo len : Nat) : Nat := n / 2 ^ lo % 2 ^ len

/-- 1 for true, 0 for false. -/
def b2n (b : Bool) : Nat := if b then 1 else 0

/-- Saturating increment at a maximum. -/
def satAdd (max n k : Nat) : Nat := min max (n + k)

/-- Bytes `[off, off + len)` of a string, zeros beyond its end. -/
def slice (bs : Bytes) (off len : Nat) : Bytes :=
  let t := (bs.drop off).take len
  t ++ zeros (len - t.length)

/-- The exclusive or of two strings, as long as the shorter. -/
def xorBytes (a b : Bytes) : Bytes := List.zipWith (· ^^^ ·) a b

/-- The string cut into pieces of `n` bytes, the last one perhaps shorter; `fuel` bounds the number of pieces. -/
def chunksAux (n : Nat) : Nat → Bytes → List Bytes
  | 0, _ => []
  | fuel + 1, bs => if bs.isEmpty then [] else bs.take n :: chunksAux n fuel (bs.drop n)

/-- The string cut into pieces of `n` bytes. -/
def chunks (n : Nat) (bs : Bytes) : List Bytes := chunksAux n bs.length bs

/-- The ASCII bytes of a string, without a terminator (R400). -/
def ascii (s : String) : Bytes := s.toList.map (fun c => byteOf c.toNat)

/-- Ceiling division. -/
def cdiv (a b : Nat) : Nat := (a + b - 1) / b

end Sys2Proof
end

