-- ==== Sys2Proof/Types.lean ====
section
/-! DEFINITION. The plain data that commands and state share: unit kinds, key attributes, key slots, ledger accounts,
queue and partition configuration, the pair identity and what a persistent bank or a graft carries
(spec/05, 08, 13 and 14). -/

namespace Sys2Proof

/-- The three unit kinds that the scheduler serves (R198). -/
inductive UnitKind where
  | cipher | digest | cluster
  deriving DecidableEq, Repr

/-- The stores that a scrubber walks, coded as SCRUB_LAST.STORE (R545). -/
inductive StoreId where
  | staging | sealBuf | context | operand | saveArea | entryCache | heartwood
  deriving DecidableEq, Repr

/-- What a unit reports beside its last cycle: a tile whose check failed, by its store and number (R26), or a failed result check
(R359). -/
inductive UnitFault where
  | tile (store : StoreId) (tile : Nat)
  | check
  deriving DecidableEq, Repr

/-- The head entry of a queue as it is read for admission: the queue, and a tile of the entry whose check fails as it is read, if one
does (R26). -/
structure HeadRead where
  queue   : Nat
  badTile : Option Nat
  deriving DecidableEq, Repr

/-- A key's attribute block (R396). -/
structure KeyAttr where
  alg       : Nat
  len       : Nat
  use       : Nat
  ecbOk     : Bool
  xivForbid : Bool
  ledger    : Bool
  exportP   : Nat
  limitLog2 : Nat
  epoch     : Nat
  lgid      : Nat
  deriving DecidableEq, Repr

/-- The states of a key slot (R399). -/
inductive SlotState where
  | empty | valid | retired | noHistory | reserved
  deriving DecidableEq, Repr

/-- One Heartwood slot (R394, R395, R396): its state, attributes, material, owning partition, the secret tiles
that hold material above 64 bytes, the identity of the key in it (model's own: fresh for every install, so that R25's
"the key that it held at admission" can be asked), and the mark of a failed tile check (R507). -/
structure HwSlot where
  st    : SlotState
  attr  : KeyAttr
  mat   : Bytes
  part  : Nat
  tiles : List Nat
  keyId : Nat
  bad   : Bool
  deriving DecidableEq, Repr

/-- A ledger account (R268): stored identity and, for each instance bit, the high-water mark and retired flag. -/
structure Acct where
  fp    : Bytes
  epoch : Nat
  lgid  : Nat
  hwm0  : Nat
  hwm1  : Nat
  ret0  : Bool
  ret1  : Bool
  deriving DecidableEq, Repr

/-- A queue's configuration as CREATE_QUEUE fixes it (R188). -/
structure QueueCfg where
  sqLog2  : Nat
  cqLog2  : Nat
  cls     : Nat
  urgEn   : Bool
  vector  : Nat
  window  : Option Nat
  qweight : Nat
  sqBase  : Nat
  cqBase  : Nat
  deriving DecidableEq, Repr

/-- A partition's assignments (R171). -/
structure Assign where
  queues     : Nat
  slots      : Nat
  ctx        : Nat
  leases     : Nat
  vectors    : Nat
  shareMw    : Nat
  weight     : Nat
  classLimit : Nat
  urgQuota   : Nat
  deriving DecidableEq, Repr

/-- A partition record of the banks and of PART grafts: number, assignments, the map of local slots to global slots
(R394) and its I/O queues. -/
structure PartRec where
  part    : Nat
  assign  : Assign
  slotMap : List Nat
  queues  : List (Nat × QueueCfg)
  deriving DecidableEq, Repr

/-- The pair identity (R432). ROLE is STANDBY when `standby` holds. -/
structure PairId where
  paired  : Bool
  pairId  : Nat
  inst    : Nat
  standby : Bool
  deriving DecidableEq, Repr

/-- The content of a persistent image (R417, R420). -/
structure Image where
  ident : PairId
  /-- PAIR_INFO.ACCT_WAIT, which is set from the restored identity (R458). -/
  acctWait : Bool
  parts : List PartRec
  slots : List (Nat × HwSlot)
  keks  : List (Nat × Bytes)
  accts : List Acct
  deriving DecidableEq, Repr

/-- What phase A2 finds in one bank (R426): whether its reads succeeded, the device key of the writer, from which the keys of CHECK and of
the record wrapping derive (R400), whether CHECK matches under that key, whether the other header conditions hold, its SEQ, whether every
section matches its digest and every record unwraps under that key, and the content. -/
structure BankRead where
  readOk   : Bool
  dk       : Bytes
  checkOk  : Bool
  headerOk : Bool
  seq      : Nat
  bodyOk   : Bool
  image    : Image
  deriving DecidableEq, Repr

/-- What a partition's or queue's creation or removal graft carries (R444). -/
structure QueueRec where
  part : Nat
  qid  : Nat
  cfg  : Option QueueCfg
  deriving DecidableEq, Repr

/-- What a SNAP_END or SNAP graft delivers at commit: the sender's accounts and, from an active sender, its
configuration (R450). -/
structure Snapshot where
  accts  : List Acct
  config : Option Image
  deriving DecidableEq, Repr

/-- The scope of an ERASE graft (R444): listed global slots, or a zeroise of one partition or of all. -/
inductive EraseScope where
  | slots (gs : List Nat)
  | part (p : Nat)
  | all
  deriving DecidableEq, Repr

end Sys2Proof
end

