-- ==== Sys2Proof/Syntax.lean ====
section
/-! DEFINITION. The commands of the block: one constructor for each row of spec/opcode_table.json, in the table's
order. A register command carries what the register port carries (REG_PRIV, REG_BEN, the data, the number of the page,
queue, vector or mailbox, spec/02 R73); an event carries what its signals or its physical outcome decide. The table
gives no operands (log entry 1 of the assumption log). -/

namespace Sys2Proof

/-- The commands. -/
inductive Instr where
  /-- RST_AON_N_ASSERT (R54). Assertion of RST_AON_N resets the always-on island, erases Heartwood retention, tamper latches and the fault
  log, and places Pleod in reset. -/
  | rstAonNAssert
  /-- RST_AON_N_RELEASE (R57). Release of RST_AON_N brings the always-on island out of reset, samples AON_FREQ, OPPT_BOOT and TEST_MODE,
  and starts tamper filtering. -/
  | rstAonNRelease (aonFreq : BitVec 13) (opptBoot : BitVec 2) (testMfr : BitVec 11)
  /-- RST_BLK_N_ASSERT (R58). Assertion of RST_BLK_N resets the core domain, stops new fabric commands, ends operations and firmware, and
  invalidates the retained state image. -/
  | rstBlkNAssert
  /-- RST_BLK_N_RELEASE (R57). Release of RST_BLK_N frees every fabric tag, checks AON_FREQ and starts the FLL, entering the start-up
  forced safe state. -/
  | rstBlkNRelease
  /-- FLL_LOCK (R46). The FLL reaches lock, clocks the lanes and cores, and starts ATTEST at a cold start or the second part of a warm wake. -/
  | fllLock (imageOk : Bool)
  /-- FLL_LOCK_TIMEOUT (R46). The FLL fails to lock within 6 µs, sends a source 0x80 kind 2 fault and Pleod enters QUARANTINE. -/
  | fllLockTimeout
  /-- TEST_MODE_RISE (R87). A rising edge of TEST_MODE erases Heartwood as on a key alarm and enters the test state with the forced safe state. -/
  | testModeRise
  /-- TAMPER_REGISTERED (R85). Three consecutive high samples on a TAMPER_IN input latch a tamper, send a kind 6 fault and raise a key alarm. -/
  | tamperRegistered (k : Nat)
  /-- ROOT_KEY_VLD_RISE (R86). ROOT_KEY_VLD seen high in two samples makes Pleod sample ROOT_KEY, raise ROOT_KEY_ACK and derive the device
  key, or quarantine on an all-zero or all-one key. -/
  | rootKeyVldRise (key : BitVec 256)
  /-- ROOT_KEY_VLD_FALL (R86). ROOT_KEY_VLD falling makes Pleod lower ROOT_KEY_ACK. -/
  | rootKeyVldFall
  /-- ROOT_KEY_TIMEOUT (R86). ROOT_KEY_VLD not high within 1 ms of ATTEST entry fails ATTEST with a source 0x48 kind 2 fault and QUARANTINE. -/
  | rootKeyTimeout
  /-- CORE_PWR_GOOD_RISE (R95). CORE_PWR_GOOD rising while a non-DORMANT TARGET is pending in DORMANT starts the wake to WAKING. -/
  | corePwrGoodRise
  /-- PWR_GNT_RISE (R121). PWR_GNT rising makes GOV_NEG.HIGH_MW the effective budget, or lowers PWR_REQ at once when no grant waits for it. -/
  | pwrGntRise
  /-- PWR_GNT_FALL (R84). PWR_GNT falling completes the four-phase handshake and allows PWR_REQ to be raised again. -/
  | pwrGntFall
  /-- PWR_NEG_TIMEOUT (R121). PWR_GNT not rising within GOV_NEG.TMO_US sends a source 0x68 kind 2 fault and sets GOV_STAT.NEG_TMO. -/
  | pwrNegTimeout
  /-- PWR_HOLD_EXPIRY (R121). Usage staying within GOV_BUDGET for HOLD_US lowers PWR_REQ and returns the effective budget to GOV_BUDGET.MW. -/
  | pwrHoldExpiry
  /-- RLK_PHY_RDY_CHANGE (R439). A change of RLK_PHY_RDY moves the Ralder link between OFF and RESET. -/
  | rlkPhyRdyChange (level : Bool)
  /-- READ_RETURN_BEAT (R62). A read return beat arrives on a fabric port and is passed to the requester in index order, completing the
  read when all beats are in. -/
  | readReturnBeat (port tag idx : Nat) (data : BitVec 1024) (sts : BitVec 2)
  /-- WRITE_COMPLETION (R64). A write completion arrives on a fabric port and frees the write tag, releasing whatever waited on that write
  response. -/
  | writeCompletion (port tag : Nat) (sts : BitVec 2)
  /-- FABRIC_TIMEOUT (R70). A transaction reaches FAB_TMO.CYCLES without its response, sends a kind 2 fault, fails under its class and
  holds its tag. -/
  | fabricTimeout (port : Nat) (isWrite : Bool) (tag : Nat)
  /-- REG_WRITE (R14). A register-port write to a register without its own row updates its RW, W1C or WO fields, or is ignored with or
  without REG_ERR. -/
  | regWrite (priv : Bool) (ben : BitVec 4) (off : Nat) (data : Word)
  /-- SEAL_TIME_LO_READ (R339). A read of SEAL_TIME_LO returns the counter's low bits and latches the high bits for SEAL_TIME_HI. -/
  | sealTimeLoRead (priv : Bool)
  /-- SEAL_TIME_HI_WRITE (R339). A write of SEAL_TIME_HI loads the seal time counter with it and the held low value within 3 CLK_AON. -/
  | sealTimeHiWrite (priv : Bool) (ben : BitVec 4) (data : Word)
  /-- PERSIST_PEND_LO_READ (R550). A read of PERSIST_PEND_LO or PERSIST_LAST_LO latches the high bits for the following _HI read. -/
  | persistPendLoRead (priv : Bool) (last : Bool)
  /-- TARGET_SERVICE (R94). A MODE_CTL write of TARGET SERVICE moves Pleod towards SERVICE from MAINTENANCE, DRAIN, DORMANT or FOLLOWER. -/
  | targetService (priv : Bool) (ben : BitVec 4) (chgIe : Bool)
  /-- TARGET_DORMANT (R94). A MODE_CTL write of TARGET DORMANT starts a drain towards DORMANT, or leaves FOLLOWER for DORMANT. -/
  | targetDormant (priv : Bool) (ben : BitVec 4) (chgIe : Bool)
  /-- TARGET_DRAIN (R94). A MODE_CTL write of TARGET DRAIN enters DRAIN, wakes first from DORMANT, or is refused in FOLLOWER. -/
  | targetDrain (priv : Bool) (ben : BitVec 4) (chgIe : Bool)
  /-- TARGET_MAINTENANCE (R94). A MODE_CTL write of TARGET MAINTENANCE enters MAINTENANCE, wakes first from DORMANT, or is refused in FOLLOWER. -/
  | targetMaintenance (priv : Bool) (ben : BitVec 4) (chgIe : Bool)
  /-- TARGET_FOLLOWER (R94). A MODE_CTL write of TARGET FOLLOWER starts a drain towards FOLLOWER. -/
  | targetFollower (priv : Bool) (ben : BitVec 4) (chgIe : Bool)
  /-- TARGET_RESERVED (R95). A MODE_CTL write of a reserved TARGET value is refused and sets MODE_STAT.BAD_REQ. -/
  | targetReserved (priv : Bool) (ben : BitVec 4) (chgIe : Bool)
  /-- DRAIN_COMPLETE (R101). The drain condition becomes true and Pleod completes the transition to DORMANT or FOLLOWER. -/
  | drainComplete
  /-- DRAIN_TMO_EXPIRY (R102). DRAIN_TMO is reached: DRAIN_EXP sets, running requests end with QUEUE_DRAINED and an unacknowledged image is
  recorded as lost. -/
  | drainTmoExpiry
  /-- DRAIN_TMO_WRITE (R97). A write of DRAIN_TMO governs the running drain at once, reaching the limit in the next cycle if already passed. -/
  | drainTmoWrite (priv : Bool) (ben : BitVec 4) (data : Word)
  /-- WAKE_LANE_READY (R107). The first cipher lane of a warm wake is ready and Pleod enters SERVICE or FOLLOWER with MODE_STAT.CHG set. -/
  | wakeLaneReady
  /-- ATTEST_A1_DONE (R109). Phase A1 completes its key derivation, ROM and patch check, wipes and tests and leaves the forced safe state
  for phase A2. -/
  | attestA1Done (pass : Bool) (badSlots badKeks : List Nat)
  /-- PERSIST_CTL_EN_WRITE (R426). A write setting PERSIST_CTL.EN enables the region and lets a waiting phase A2 read both banks. -/
  | persistCtlEnWrite (priv : Bool) (ben : BitVec 4) (data : Word)
  /-- BANK_SELECT (R426). With both bank reads done, phase A2 validates headers and sections, selects a bank or sets FRESH, and restores state. -/
  | bankSelect (a b : BankRead)
  /-- UNIT_STAGE_TEST_DONE (R110). A unit's ATTEST test ends: a passing unit enters service, a failing unit is fenced with a kind 5 fault,
  and stage counts advance. -/
  | unitStageTestDone (unit : Nat) (pass : Bool)
  /-- GRANT_ISSUE (R117). A waiting grant meets the power and share conditions and is issued in the order of R119, waking units as needed. -/
  | grantIssue
  /-- GRANT_TIMEOUT_EXPIRY (R120). A grant waiting GNT_TMO_US ends its request with GRANT_TIMEOUT and sets GOV_STAT.TIMEOUT. -/
  | grantTimeoutExpiry (gid : Nat)
  /-- IDLE_GATE_EXPIRY (R118). A unit idle for GOV_CFG.IDLE_US is clock-gated with its state kept and its reservation released. -/
  | idleGateExpiry (unit : Nat)
  /-- UNIT_WAKE_READY (R116). A unit becomes ready 128 CLK_LANE after its clock enable and its waiting request or grove proceeds. -/
  | unitWakeReady (unit : Nat)
  /-- GOV_BUDGET_WRITE (R122). A GOV_BUDGET write is refused below the floor, clamped at 20,000, or lowers the budget and gates idle units. -/
  | govBudgetWrite (priv : Bool) (ben : BitVec 4) (data : Word)
  /-- SQ_DB (R140). A submission doorbell write is accepted and replaces the recorded tail, or is refused and sets Q_STAT.DB_ERR. -/
  | sqDb (part q : Nat) (ben : BitVec 4) (data : Word)
  /-- CQ_DB (R163). A completion doorbell write releases completion entries and restores credits, or is refused and sets DB_ERR. -/
  | cqDb (part q : Nat) (ben : BitVec 4) (data : Word)
  /-- INVAL (R149). An INVAL write drops cached unadmitted entries in a slot range, records the head and refetches them. -/
  | inval (part q : Nat) (ben : BitVec 4) (data : Word)
  /-- PUSH_WORD_WRITE (R144). A write to a push window word other than the header updates that word of the window. -/
  | pushWordWrite (part win word : Nat) (ben : BitVec 4) (data : Word)
  /-- PUSH_TAKE (R145). A full header word write to a push window takes the entry into the entry cache, zeroes the window and advances the
  recorded tail, or is refused. -/
  | pushTake (part win pos : Nat) (data : Word)
  /-- Q_CTL_WRITE (R164). A Q_CTL write sets CIE and EN; clearing EN drains the cache with QUEUE_DRAINED and setting it resumes fetching. -/
  | qCtlWrite (part q : Nat) (ben : BitVec 4) (data : Word)
  /-- ENTRY_FETCH_DONE (R142). A ring fetch read returns and its slots are parsed into entries in the entry cache, PAD entries being consumed. -/
  | entryFetchDone (part q : Nat)
  /-- ADMIT_ENTRY (R152). The next entry of a queue is admitted in ring order once credits, FENCE and chain conditions allow, or completes
  as malformed. -/
  | admitEntry (part : Nat) (q : HeadRead)
  /-- PLACE_REQUEST (R200). The scheduler picks a waiting admitted request by class and virtual time and chooses a unit and a grant for it. -/
  | placeRequest (kind : UnitKind)
  /-- URGENT_WINDOW_EXPIRY (R202). Each 1 ms window returns URG_STAT.LEFT to URG_QUOTA. -/
  | urgentWindowExpiry (part : Nat)
  /-- STAGING_RESERVED (R226). A waiting gated decryption or PKA_OP obtains its staging tiles and proceeds towards its grant. -/
  | stagingReserved
  /-- REQUEST_UNIT_DONE (R30). A unit finishes a request's last cycle and its output writes are issued, the completion following their responses. -/
  | requestUnitDone (rid cycles : Nat) (bad : Option UnitFault)
  /-- CIPHER (R204). A CIPHER entry runs AES-ECB, CBC or CTR encryption or decryption on a cipher lane or grove. -/
  | cipher (rid : Nat)
  /-- AEAD (R204). An AEAD entry runs GCM, CCM or ChaCha20-Poly1305 encryption or gated or streaming decryption. -/
  | aead (rid : Nat)
  /-- XTS (R204). An XTS entry encrypts or decrypts data units under AES-XTS. -/
  | xts (rid : Nat)
  /-- MAC (R204). A MAC entry generates or verifies an AES-CMAC or AES-GMAC tag. -/
  | mac (rid : Nat)
  /-- GROVE_FORMED (R239). A grove's last lane holds its key schedule, the trunk draws the counter and the lanes start their segments. -/
  | groveFormed (rid : Nat)
  /-- SEGMENT_DONE (R254). A grove lane finishes its segment and picks up a shed segment or waits for the trunk's merge. -/
  | segmentDone (rid lane : Nat)
  /-- SUSPEND_CAPTURE (R249). A preempted or seal-displaced request stops at a suspension point and its context is captured into tiles, a
  save area or export, freeing the unit. -/
  | suspendCapture (rid blocks cycles : Nat)
  /-- EXPORT_DONE (R256). The export engine has wrapped and written a context record and the request completes with PREEMPT_EXPORTED. -/
  | exportDone (rid : Nat)
  /-- CONTEXT_RESUME (R262). A CONTEXT_RESUME entry checks the live export, reads and unwraps the record and places the resumed request. -/
  | contextResume (rid : Nat)
  /-- CONTEXT_DISCARD (R262). A CONTEXT_RESUME with DISCARD ends a live export with ABORTED_BY_HOST, DETAIL 0x01. -/
  | contextDiscard (rid : Nat)
  /-- CONTEXT_UNWRAP_DONE (R263). The export engine finishes unwrapping a context or HMAC state record and the request is placed again. -/
  | contextUnwrapDone (rid : Nat)
  /-- DIGEST (R289). A DIGEST entry hashes its source with SHA-2 or SHA-3, writing a state record or the digest. -/
  | digest (rid : Nat)
  /-- HMAC (R298). An HMAC entry computes or verifies an HMAC under a slot key, in hardware or host-assisted padding mode. -/
  | hmac (rid : Nat)
  /-- KEY_UNWRAP (R403). A KEY_UNWRAP entry unwraps a blob and installs the key into the target slot after its checks. -/
  | keyUnwrap (rid : Nat)
  /-- KEY_UNWRAP_ERASE (R404). A KEY_UNWRAP with ERASE empties a slot and completes after an image with the slot empty is acknowledged. -/
  | keyUnwrapErase (rid : Nat)
  /-- KEY_DERIVE (R405). A KEY_DERIVE entry derives a key with SP 800-108 from an input slot and installs it. -/
  | keyDerive (rid : Nat)
  /-- KEY_EXPORT (R407). A KEY_EXPORT entry writes a wrapped blob of a slot's key under the KEK or a wrap key. -/
  | keyExport (rid : Nat)
  /-- PKA_SIGN (R345). A PKA_OP SIGN job signs with ECDSA, Ed25519, RSA or ML-DSA on a cluster at its fixed job time. -/
  | pkaSign (rid : Nat)
  /-- PKA_VERIFY (R358). A PKA_OP VERIFY job validates public inputs and checks a signature, rejecting at V or F. -/
  | pkaVerify (rid : Nat)
  /-- PKA_AGREE (R345). A PKA_OP AGREE job computes an ECDH or X25519 shared secret into the destination slot. -/
  | pkaAgree (rid : Nat)
  /-- PKA_PUBKEY (R345). A PKA_OP PUBKEY job computes the public key of a private key slot. -/
  | pkaPubkey (rid : Nat)
  /-- PKA_ENCRYPT (R345). A PKA_OP ENCRYPT job runs RSA-OAEP encryption or ML-KEM encapsulation. -/
  | pkaEncrypt (rid : Nat)
  /-- PKA_DECRYPT (R345). A PKA_OP DECRYPT job runs RSA-OAEP decryption or ML-KEM decapsulation into the destination slot. -/
  | pkaDecrypt (rid : Nat)
  /-- DRBG_DRAW_DONE (R354). A cluster's single DRBG draw completes and its job starts in the next cycle. -/
  | drbgDrawDone (rid : Nat)
  /-- WMAC_LIST (R380). A WMAC_LIST entry reserves FIFO words, reads and checks its command list and runs it on a permitted cluster. -/
  | wmacList (rid : Nat)
  /-- RANDOM (R372). A RANDOM entry writes LEN bytes from the DRBG to its destination in chunks. -/
  | random (rid : Nat)
  /-- FENCE (R153). A FENCE entry holds later admissions until every earlier entry of its queue has completed, then completes with SUCCESS. -/
  | fence (rid : Nat)
  /-- SEAL_CLOSE (R321). A SEAL_CLOSE entry sets a close point, resolves earlier frames and writes GAP, CLOSE and final checkpoint records. -/
  | sealClose (rid : Nat)
  /-- PAGE_SEAL (R530). A PAGE_SEAL entry generates a 64-byte page header with an HMAC over header and optional payload. -/
  | pageSeal (rid : Nat)
  /-- PAGE_SEAL_VERIFY (R529). A PAGE_SEAL with VERIFY checks a stored page header and its MAC without writing. -/
  | pageSealVerify (rid : Nat)
  /-- CREATE_QUEUE (R188). A CREATE_QUEUE admin entry creates an I/O queue with its rings, class, vector and push window. -/
  | createQueue (rid : Nat)
  /-- DESTROY_QUEUE (R189). A DESTROY_QUEUE admin entry disables a queue, discards cached entries and optionally aborts admitted requests. -/
  | destroyQueue (rid : Nat)
  /-- DESTROY_QUEUE_IDLE (R189). Once the destroyed queue is idle its push window is unbound, the queue is removed and DESTROY_QUEUE completes. -/
  | destroyQueueIdle (rid : Nat)
  /-- QUEUE_INFO (R190). A QUEUE_INFO admin entry returns the queue's indices, state and class in RESULT. -/
  | queueInfo (rid : Nat)
  /-- SET_QOS (R191). A SET_QOS admin entry changes a queue's class, URG_EN and weight for later admissions. -/
  | setQos (rid : Nat)
  /-- BIND_TAP (R320). A BIND_TAP admin entry binds a tap channel to a seal stream, takes a grant and writes the OPEN record. -/
  | bindTap (rid : Nat)
  /-- UNBIND_TAP (R321). An UNBIND_TAP admin entry closes a seal stream after the last frame already begun. -/
  | unbindTap (rid : Nat)
  /-- SLOT_INFO (R408). A SLOT_INFO admin entry returns a slot's attributes and state without material. -/
  | slotInfo (rid : Nat)
  /-- PARTITION_RESET (R193). A PARTITION_RESET admin entry ends the partition's I/O work, wipes its tiles, closes streams and removes its
  I/O queues. -/
  | partitionReset (rid : Nat)
  /-- PART_RESET_FABRIC_IDLE (R193). Once no fabric transaction of a resetting partition is outstanding, the reset proceeds through its
  remaining steps. -/
  | partResetFabricIdle (part : Nat)
  /-- PM_CREATE (R178). A PM_CMD CREATE assigns pool resources and creates a partition with queue 0, or is refused with a REASON. -/
  | pmCreate (priv : Bool) (ben : BitVec 4) (data : Word)
  /-- PM_DESTROY (R179). A PM_CMD DESTROY resets the partition, erases its slots, returns its resources and persists an image without it. -/
  | pmDestroy (priv : Bool) (ben : BitVec 4) (data : Word)
  /-- PM_RESET (R193). A PM_CMD RESET runs the partition reset and discards admin entries, returning queue 0 to lap 0. -/
  | pmReset (priv : Bool) (ben : BitVec 4) (data : Word)
  /-- LOAD_KEK (R410). An HW_CMD LOAD_KEK reads and unwraps a KEK blob under DTK and replaces the partition's KEK. -/
  | loadKek (priv : Bool) (ben : BitVec 4) (data : Word)
  /-- ERASE_SLOT (R410). An HW_CMD ERASE_SLOT empties a partition slot and sets DONE after the acknowledgement. -/
  | eraseSlot (priv : Bool) (ben : BitVec 4) (data : Word)
  /-- ZEROISE_PART (R410). An HW_CMD ZEROISE_PART erases every slot and the KEK of a partition. -/
  | zeroisePart (priv : Bool) (ben : BitVec 4) (data : Word)
  /-- ZEROISE (R410). An HW_CMD ZEROISE erases every slot, secret tile and KEK, finishing after images in both banks are acknowledged. -/
  | zeroise (priv : Bool) (ben : BitVec 4) (data : Word)
  /-- HW_CMD_UNDEFINED_OP (R410). An HW_CMD write of OP 0b101 to 0b111 starts nothing and is refused with REASON 0x8. -/
  | hwCmdUndefinedOp (priv : Bool) (ben : BitVec 4) (data : Word)
  /-- LEDGER_PURGE_GO (R287). A LEDGER_PURGE GO write removes every unbound account and sets DONE after an image without them is acknowledged. -/
  | ledgerPurgeGo (priv : Bool) (ben : BitVec 4) (data : Word)
  /-- UNIT_FENCE (R517). A UNIT_CMD FENCE removes a unit from service once its current work ends, or is refused. -/
  | unitFence (priv : Bool) (ben : BitVec 4) (data : Word)
  /-- UNIT_FENCE_EFFECT (R517). A pending fence takes effect when the unit's work ends: the unit is gated, its UNIT_FENCE bit and DONE set. -/
  | unitFenceEffect
  /-- UNIT_TEST (R519). A UNIT_CMD TEST runs the unit test on a fenced unit under a grant. -/
  | unitTest (priv : Bool) (ben : BitVec 4) (data : Word)
  /-- UNIT_TEST_DONE (R519). A maintenance unit test ends and sets RESULT pass or fail and DONE. -/
  | unitTestDone (pass : Bool)
  /-- UNIT_UNFENCE (R519). A UNIT_CMD UNFENCE returns a fenced-for-test unit to service gated with an empty key register. -/
  | unitUnfence (priv : Bool) (ben : BitVec 4) (data : Word)
  /-- SET_IDENTITY (R435). A PAIR_CMD SET_IDENTITY sets PAIRED, PAIR_ID and INST with ROLE ACTIVE and persists them. -/
  | setIdentity (priv : Bool) (ben : BitVec 4) (data : Word)
  /-- UNPAIR (R435). A PAIR_CMD UNPAIR clears the pair identity, takes the link OFF and persists it. -/
  | unpair (priv : Bool) (ben : BitVec 4) (data : Word)
  /-- RETRAIN (R435). A PAIR_CMD RETRAIN returns the Ralder link to RESET. -/
  | retrain (priv : Bool) (ben : BitVec 4) (data : Word)
  /-- RESEED (R374). An RNG_CTL RESEED write starts a DRBG reseed within 2 µs unless one or the startup tests run. -/
  | reseed (priv : Bool) (ben : BitVec 4) (data : Word)
  /-- ENTROPY_HEALTH_FAIL (R369). A failed entropy health test sends a source 0x81 fault, clears RAND_RDY, discards the DRBG and restarts
  the startup tests. -/
  | entropyHealthFail (apt : Bool)
  /-- ENTROPY_STARTUP_DONE (R370). The startup tests pass on 1024 samples and the DRBG is instantiated, setting RAND_RDY. -/
  | entropyStartupDone
  /-- RESEED_DUE (R370). After 2^20 generate requests or 1 s a reseed starts collecting samples. -/
  | reseedDue
  /-- RESEED_SAMPLES_DONE (R370). A reseed's 768 samples are collected and applied to the DRBG in one step. -/
  | reseedSamplesDone
  /-- ENTROPY_WAIT_TIMEOUT (R371). A request waiting 2 ms for RAND_RDY completes with ENTROPY_NOT_READY. -/
  | entropyWaitTimeout (rid : Nat)
  /-- LEASE_LIVE (R271). With the image and any graft acknowledged, a lease becomes live and reserves counters for waiting requests. -/
  | leaseLive (acct : Nat)
  /-- LEASE_WAIT_TIMEOUT (R275). A request waiting LEASE_TMO_US for a lease completes with LEASE_UNAVAILABLE 0x01. -/
  | leaseWaitTimeout (rid : Nat)
  /-- LEASE_IDLE_EXPIRY (R274). A live lease idle for IDLE_MS is abandoned, possibly retiring the key. -/
  | leaseIdleExpiry (acct : Nat)
  /-- IMAGE_START (R420). A persistence image is prepared and its dirty sections and header are written to the bank R272 allows. -/
  | imageStart
  /-- PERSIST_ACK (R424). A PERSIST_ACK naming the outstanding SEQ acknowledges the image, making leases live and completing waiting erasures. -/
  | persistAck (priv : Bool) (ben : BitVec 4) (data : Word)
  /-- PERSIST_NAK (R424). A PERSIST_NAK naming the outstanding SEQ makes the image unacknowledged and sets PERSIST_DOWN. -/
  | persistNak (priv : Bool) (ben : BitVec 4) (data : Word)
  /-- PERSIST_ACK_TIMEOUT (R424). ACK_TMO_US passing without ACK or NAK makes the image unacknowledged. -/
  | persistAckTimeout
  /-- PERSIST_RETRY_EXPIRY (R277). While PERSIST_DOWN is set an image is retried every RETRY_US with a new sequence number. -/
  | persistRetryExpiry
  /-- BATCH_EXPIRY (R420). BATCH_US after the first uncarried change an image starts. -/
  | batchExpiry
  /-- TAP_HEADER_BEAT (R316). A header beat on a tap opens a frame for the named channel's stream and reserves its ring slot. -/
  | tapHeaderBeat (tap : Nat) (data : BitVec 512) (mrk : BitVec 16)
  /-- TAP_DATA_BEAT (R316). A data beat on a tap is buffered in a seal tile and fed to the frame's digest lane. -/
  | tapDataBeat (tap : Nat) (data : BitVec 512) (mrk : BitVec 16)
  /-- TAP_EOF_BEAT (R317). An EOF beat ends the open frame and compares its length with DECL_LEN. -/
  | tapEofBeat (tap : Nat) (data : BitVec 512) (mrk : BitVec 16)
  /-- TAP_ABORT_BEAT (R317). An ABORT beat unseals the open frame as ABANDONED. -/
  | tapAbortBeat (tap : Nat) (data : BitVec 512) (mrk : BitVec 16)
  /-- FRAME_CHAIN_STEP (R323). A frame's digest is complete and its chain step writes the FRAME record, preceded by any open GAP record. -/
  | frameChainStep (stream : Nat) (badTile : Option Nat)
  /-- FRAME_SEAL_TIMEOUT (R327). A frame without its FRAME record 1 ms after EOF is unsealed as OVERLOAD. -/
  | frameSealTimeout (stream : Nat)
  /-- CHECKPOINT_DUE (R336). CKPT_FRAMES records or CKPT_MS elapsed make a checkpoint due and start its signing job. -/
  | checkpointDue (stream : Nat)
  /-- CHECKPOINT_DONE (R337). A checkpoint signing job ends and the CKPT record is written. -/
  | checkpointDone (stream : Nat)
  /-- SEAL_DB (R330). A SEAL_DB write releases seal records or is refused and sets DB_ERR. -/
  | sealDb (part stream : Nat) (ben : BitVec 4) (data : Word)
  /-- TAP_OWN_WRITE (R342). A TAP_OWN write sets which partition may bind a tap, or is ignored while bound and sets OWN_REJ. -/
  | tapOwnWrite (priv : Bool) (ben : BitVec 4) (tap : Nat) (data : Word)
  /-- RF_DATA_READ (R389). A read of RF_DATA returns the committed word at the read position and advances it, or sets UNDERRUN. -/
  | rfDataRead (part : Nat) (badTile : Option Nat)
  /-- RF_REWIND (R390). An RF_CTL REWIND sets the result FIFO read position to the mark. -/
  | rfRewind (part : Nat) (ben : BitVec 4) (data : Word)
  /-- RF_RELEASE (R390). An RF_CTL RELEASE frees every FIFO word before the read position. -/
  | rfRelease (part : Nat) (ben : BitVec 4) (data : Word)
  /-- RF_MARK (R390). An RF_CTL MARK sets the mark to the read position. -/
  | rfMark (part : Nat) (ben : BitVec 4) (data : Word)
  /-- VEC_CTL_WRITE (R196). A VEC_CTL write changes coalescing and mask; clearing MASK with PEND set starts one message. -/
  | vecCtlWrite (part vec : Nat) (ben : BitVec 4) (data : Word)
  /-- VEC_MSET (R558). A VEC_MSET write sets the MASK of each named vector. -/
  | vecMset (part : Nat) (ben : BitVec 4) (data : Word)
  /-- VEC_MCLR (R558). A VEC_MCLR write clears the MASK of each named vector, starting pending messages in ascending order. -/
  | vecMclr (part : Nat) (ben : BitVec 4) (data : Word)
  /-- VECTOR_COAL_EXPIRY (R196). COAL_US since the first uncounted event passes and the vector is triggered. -/
  | vectorCoalExpiry (part vec : Nat)
  /-- MB_GO (R464). An MBk_CTL GO write posts an inbound message and sets FULL, or is ignored and sets GO_REJ. -/
  | mbGo (priv : Bool) (ben : BitVec 4) (mb : Nat) (data : Word)
  /-- MB_DONE (R465). An MBk_CTL DONE write releases an outbound message, or is ignored and sets GO_REJ. -/
  | mbDone (priv : Bool) (ben : BitVec 4) (mb : Nat) (data : Word)
  /-- MB_TAKE (R464). Firmware takes an inbound message, empties the mailbox and executes it or marks it OVERRUN. -/
  | mbTake (pair : Nat)
  /-- MB_REPLY_POST (R465). Firmware posts a reply on an empty outbound mailbox or queues it, setting OUT_FULL. -/
  | mbReplyPost (pair : Nat)
  /-- ECHO (R472). The ECHO service returns its arguments. -/
  | echo (pair : Nat)
  /-- FW_INFO (R472). The FW_INFO service returns ROM and patch versions. -/
  | fwInfo (pair : Nat)
  /-- ACCT_QUERY (R472). The ACCT_QUERY service returns a slot's account HWMs and retired flags. -/
  | acctQuery (pair : Nat)
  /-- PART_USAGE (R472). The PART_USAGE service returns a partition's resource usage. -/
  | partUsage (pair : Nat)
  /-- PATCH_STAGE (R474). The PATCH_STAGE service accepts a patch chunk and checks and stages the completed image. -/
  | patchStage (pair : Nat)
  /-- MBX_HOST_RESTART (R471). A RESTART write discards outbound mail and pending replies and marks later replies ORIGIN_RESET. -/
  | mbxHostRestart (priv : Bool) (ben : BitVec 4) (data : Word)
  /-- DB_SET (R476). A DB_SET write sets the named DB_STAT software bits. -/
  | dbSet (priv : Bool) (ben : BitVec 4) (data : Word)
  /-- FAULT_MESSAGE (R481). A fault message reaches the collector, is logged and receives its reaction of outputs and LOG, TRAP or QUARANTINE. -/
  | faultMessage (src kind addr : Nat)
  /-- WATCHDOG_EXPIRY (R479). A sequencer or management core watchdog expires and sends a kind 3 fault. -/
  | watchdogExpiry (src addr : Nat)
  /-- FAULT_FORCE (R488). A FLT_RCTn FORCE write sends a kind 0xF message from that source with its register's reaction. -/
  | faultForce (priv : Bool) (ben : BitVec 4) (src : Nat) (data : Word)
  /-- FLT_LOCK_WRITE (R489). The first byte-0 write to FLT_LOCK after RST_AON_N fixes LOCK and later reaction writes. -/
  | fltLockWrite (priv : Bool) (ben : BitVec 4) (data : Word)
  /-- FAULT_LOG_RELEASE (R494). A FLT_LOG_CTL RELEASE write frees log entry IDX. -/
  | faultLogRelease (priv : Bool) (ben : BitVec 4) (data : Word)
  /-- FAULT_RECORD_DUE (R495). COAL_US after an entry's first message, with a ring slot free, its record is written to the fault ring. -/
  | faultRecordDue
  /-- FLT_RING_DB (R495). A FLT_RING_DB write releases fault records or is refused and sets DB_ERR. -/
  | fltRingDb (priv : Bool) (ben : BitVec 4) (data : Word)
  /-- FLT_RING_ENABLE (R502). A write setting FLT_RING_CFG.EN places the fault ring tail at lap 0, position 0. -/
  | fltRingEnable (priv : Bool) (ben : BitVec 4) (data : Word)
  /-- SCRUB_TILE (R504). Each 256 CLK_LANE a scrubber checks its next tile. -/
  | scrubTile (store : StoreId) (sub tile : Nat) (ok again : Bool)
  /-- CALIBRATION (R508). Every 1 ms firmware measures CLK_LANE and trims the FLL by one step, faulting on a deviation above 1 %. -/
  | calibration (count : Nat)
  /-- TELEMETRY_WINDOW (R510). At each PERIOD_MS a telemetry window closes and GLOBAL and PART records are written as the ring allows. -/
  | telemetryWindow
  /-- TELEM_DB (R510). A TELEM_DB write releases telemetry records or is refused and sets DB_ERR. -/
  | telemDb (priv : Bool) (ben : BitVec 4) (data : Word)
  /-- TELEM_ENABLE (R513). A write setting TELEM_CFG.EN places the telemetry ring tail at lap 0, position 0. -/
  | telemEnable (priv : Bool) (ben : BitVec 4) (data : Word)
  /-- RLK_BLOCK_RX (R80, R436). A 32-word block arrives on a link lane: its marker is checked for lock and CRC and its payload deframed.
  With RLK_RX_VLDk low as the marker is due there is no marker. -/
  | rlkBlockRx (lane : Nat) (marker : Option (BitVec 64)) (crcOk : Bool) (payload : List (BitVec 64))
  /-- TRAIN_RX (R437). A TRAIN block gives the peer's lane mask and READY, moving the link to AUTH on a common ready lane set. -/
  | trainRx (mask : BitVec 4) (ready : Bool)
  /-- LINK_RESET_DONE (R439). 2 µs after RLK_PHY_RST falls with RLK_PHY_RDY high the link enters ALIGN. -/
  | linkResetDone
  /-- ALIGN_TIMEOUT (R439). ALIGN not left within 100 µs returns the link to RESET. -/
  | alignTimeout
  /-- AUTH_TIMEOUT (R439). AUTH not completed within 20 µs ends the authentication attempt. -/
  | authTimeout
  /-- BLOCKED_EXPIRY (R439). 1 ms in BLOCKED returns the link to RESET. -/
  | blockedExpiry
  /-- AUTH_FRAME_RX (R441). An AUTH frame is checked for tag, version, PAIR_ID and INST, leading to RESYNC, DUAL_ACTIVE or BLOCKED, and SK
  is derived. -/
  | authFrameRx (header : Bytes) (payload : Bytes) (tag : Bytes)
  /-- LEASE_GRAFT (R445). A LEASE graft merges a higher HWM and is acknowledged after the receiver's image, or NAKed when it cannot persist. -/
  | leaseGraft (gseq : Nat) (fp : Bytes) (epoch lgid inst hwm : Nat)
  /-- RETIRE_GRAFT (R444). A RETIRE graft sets an account's retired flag for an instance bit. -/
  | retireGraft (gseq : Nat) (fp : Bytes) (epoch lgid inst : Nat)
  /-- PURGE_GRAFT (R444). A PURGE graft removes the named accounts. -/
  | purgeGraft (gseq : Nat) (ids : List (Bytes × Nat × Nat))
  /-- SLOT_GRAFT (R444). A SLOT graft installs a slot's attributes, state and material. -/
  | slotGraft (gseq slot : Nat) (rec : HwSlot)
  /-- ERASE_GRAFT (R444). An ERASE graft erases slots or zeroises and is acknowledged after the receiver's image. -/
  | eraseGraft (gseq : Nat) (scope : EraseScope)
  /-- KEK_GRAFT (R444). A KEK graft installs a partition KEK. -/
  | kekGraft (gseq part : Nat) (kek : Bytes)
  /-- PART_GRAFT (R444). A PART graft creates or destroys a partition record. -/
  | partGraft (gseq part : Nat) (rec : Option PartRec)
  /-- QUEUE_GRAFT (R444). A QUEUE graft creates, destroys or changes a queue record. -/
  | queueGraft (gseq : Nat) (rec : QueueRec)
  /-- IDENT_GRAFT (R444). An IDENT graft applies the peer's pair identity. -/
  | identGraft (gseq : Nat) (ident : PairId)
  /-- SNAP_GRAFT (R450). A SNAP graft merges accounts and builds the standby's shadow copy. -/
  | snapGraft (gseq : Nat) (snap : Snapshot)
  /-- SNAP_END_GRAFT (R450). A SNAP_END graft commits the shadow copy in the standby and starts its image. -/
  | snapEndGraft (gseq count : Nat)
  /-- HANDOVER_GRAFT (R453). A HANDOVER graft sets PAIR_STAT.HANDOVER. -/
  | handoverGraft (gseq : Nat)
  /-- ACK_FRAME_RX (R443). An ACK frame acknowledges every graft up to its GSEQ, making leases live and completing waiting erases and resyncs. -/
  | ackFrameRx (gseq : Nat)
  /-- NAK_FRAME_RX (R445). A NAK frame for a LEASE graft sets PEER_PDOWN and the lease goes live alone or fails under STRICT_PAIR. -/
  | nakFrameRx (gseq : Nat)
  /-- HEARTBEAT_RX (R440). A HEARTBEAT frame passing its tag check keeps the link alive. -/
  | heartbeatRx
  /-- HEARTBEAT_DUE (R440). No frame sent for HB_US makes Pleod send a HEARTBEAT frame. -/
  | heartbeatDue
  /-- GRAFT_RETX_EXPIRY (R443). RETX_US without acknowledgement resends unacknowledged grafts, leaving SYNCED after 8 retransmissions. -/
  | graftRetxExpiry
  /-- LINK_TMO_EXPIRY (R440). No frame passing its tag check for LINK_TMO_US takes the link out of SYNCED to ALIGN. -/
  | linkTmoExpiry
  /-- CORE_PWR_GOOD_FALL (R51). CORE_PWR_GOOD falls, so Pleod may not leave DORMANT and a wake request waits until it rises again. -/
  | corePwrGoodFall
  /-- TEST_MODE_FALL (R87). TEST_MODE goes low, which lets a following RST_AON_N assertion take Pleod out of the test state. -/
  | testModeFall
  /-- POWER_LOSS (R53). VDD_AON, or VDD_CORE outside DORMANT, is lost, ending live leases, in-flight work and uncommitted persistence as
  R53, R266 and R280 state. -/
  | powerLoss
  /-- CLK_FAB_STOP (R45). The integrator stops CLK_FAB in DORMANT or reset with FAB_IDLE high; FAB_IDLE moves to CLK_AON and GLB_IRQ holds
  its level. -/
  | clkFabStop
  /-- CLK_FAB_RESTART (R547). CLK_FAB starts again and GLB_IRQ follows GLB_IRQ_SUM within 8 CLK_FAB. -/
  | clkFabRestart
  /-- TEST_ACCESS (R88). The test controller drives TCK and TMS to shift an instruction or data through the IEEE 1149.1 port, selecting
  BYPASS, IDCODE or the instrument network. -/
  | testAccess (trstN tms tdi : Bool)
  /-- FABRIC_COMMAND_TRANSFER (R60). The fabric raises Fn_CMD_RDY and a presented command transfers, starting the response limit of R70 and
  occupying its tag. -/
  | fabricCommandTransfer (port : Nat)
  deriving DecidableEq, Repr

end Sys2Proof
end

