-- ==== Sys2Proof/Config.lean ====
section
/-! DEFINITION. What an implementation fixes and the values that the spec leaves open. Every opaque constant here is a
FREE VALUE: it has no body, nothing in Lean can evaluate it, and a statement about it holds for every value. -/

namespace Sys2Proof.Config

/-- FREE VALUE. Byte `n` of the entropy source's samples, eight to a byte (R369, R370; log entry 10). -/
opaque entropyByte : Nat → Byte

/-- FREE VALUE. How many payload bytes have left a lane when it is looked at for the `n`th time: the spec bounds the time of the whole
request only (R227, R230, R232; log entry 61). -/
opaque progress : Nat → Nat

/-- FREE VALUE. The CLK_LANE for which a unit was held when no command carries them (R199; log entry 61). -/
opaque occupied : Nat → Nat

/-- FREE VALUE. Byte `i` of the context tiles wrapped in export record `seq` of partition `p`, whose layout is
internal (R259; log entry 11). -/
opaque ctxByte : Nat → Nat → Nat → Byte

/-- FREE VALUE. ROM_VER of the management cores' ROM (R474; log entry 12). -/
opaque romVer : Word

/-- FREE VALUE. Whether a patch image passes the check against the patch key in ROM, which the spec does not give
(R474; log entry 12). -/
opaque patchSigOk : Bytes → Bool

/-- FREE VALUE. Byte `off` of section `sec` of the image with sequence number `seq`, whose records are wrapped under a key and whose
record layout is internal (R419; log entry 11). -/
opaque sectionByte : Bytes → Nat → Nat → Nat → Byte

/-- FREE VALUE. TDO while the IEEE 1687 instrument network is selected, as a function of the bits shifted
(R88; log entry 4). -/
opaque instrumentTdo : List Bool → Bool

/-- FREE VALUE. Telemetry sums that depend on elapsed cycles, by field number and window (R511; log entry 13). -/
opaque telemByte : Nat → Nat → Byte

end Sys2Proof.Config
end

