-- ==== Sys2Proof/Machine/State.lean ====
section
/-! DEFINITION. The state of the block as plain data: every register, latch, queue, buffer and pin that the spec names,
the reasons a step can stop, and the state with both resets asserted (spec/02_ports_clocks_resets.md R57 step 1). -/

namespace Sys2Proof.Machine

/-! ### Sparse stores -/

/-- A sparse store: pairs of a key and a value, keys strictly rising. -/
abbrev Store (α : Type) := List (Nat × α)

/-- A register file: register offset and value, keys strictly rising, a register that holds its reset value unlisted. -/
abbrev RegFile := List (Nat × Word)

/-- An addressed RAM of the block: address and byte, addresses strictly rising, a byte that is 0 unlisted. -/
abbrev Mem := List Host.Cell

/-! ### Pins and ports -/

/-- The pins and wired outputs (spec/02 R44, R50, R54, R55, R83 to R88). -/
structure Pins where
  /-- RST_AON_N is high. -/
  aonRel       : Bool
  /-- RST_BLK_N is high. -/
  blkRel       : Bool
  /-- AON_FREQ as sampled at the release of RST_AON_N, in units of 10 kHz (R44). -/
  aonFreq      : Nat
  /-- OPPT_BOOT as sampled at the release of RST_AON_N (R50). -/
  opptBoot     : Nat
  /-- The static input TEST_MFR (R88). -/
  testMfr      : Nat
  testMode     : Bool
  corePwrGood  : Bool
  pwrGnt       : Bool
  rootKeyVld   : Bool
  /-- The level of ROOT_KEY[255:0] while ROOT_KEY_VLD is high (R86). -/
  rootKey      : BitVec 256
  phyRdy       : Bool
  /-- CLK_FAB runs (R45). -/
  fabClk       : Bool
  /-- TAMPER_STAT.LATCH, one flag for each input (R541). -/
  tamperLatch  : List Nat
  /-- TAMPER_STAT.LEVEL (R541). -/
  tamperLevel  : List Nat
  /-- The level that GLB_IRQ holds while CLK_FAB is stopped (R547). -/
  irqHeld      : Bool
  chipRstReq   : Bool
  rootKeyAck   : Bool
  pwrReq       : Bool
  coreIso      : Bool
  phyRst       : Bool
  /-- Pulses given on NMI_OUT. -/
  nmiPulses    : Nat
  deriving DecidableEq, Repr

/-- The states of the IEEE 1149.1 controller (R88). -/
inductive TapState where
  | testLogicReset | runTestIdle
  | selectDr | captureDr | shiftDr | exit1Dr | pauseDr | exit2Dr | updateDr
  | selectIr | captureIr | shiftIr | exit1Ir | pauseIr | exit2Ir | updateIr
  deriving DecidableEq, Repr

/-- The test access port (R88): controller state, instruction register, shift registers and TDO. -/
structure Jtag where
  st    : TapState
  ir    : Nat
  irSh  : List Bool
  drSh  : List Bool
  tdo   : Bool
  deriving DecidableEq, Repr

/-- The register port's outputs of the last access (R73). -/
structure Port where
  rdata : Word
  err   : Bool
  deriving DecidableEq, Repr

/-! ### Mode -/

/-- The modes of R91, with reset and test. -/
inductive Mode where
  | dormant | waking | attest | service | drain | follower | maintenance | quarantine | inReset | test
  deriving DecidableEq, Repr

/-- The encoding in MODE_STAT.MODE (R91). -/
def Mode.code : Mode → Nat
  | .dormant => 0 | .waking => 1 | .attest => 2 | .service => 3 | .drain => 4
  | .follower => 5 | .maintenance => 6 | .quarantine => 7 | .inReset => 8 | .test => 9

/-- MODE_CTL.TARGET (R92). -/
inductive Target where
  | service | dormant | drain | maintenance | follower
  deriving DecidableEq, Repr

/-- The encoding of TARGET (R92). -/
def Target.code : Target → Nat
  | .service => 0 | .dormant => 1 | .drain => 2 | .maintenance => 3 | .follower => 4

/-- Where ATTEST stands (R109): not in ATTEST; phase A1; phase A2 waiting for the region; A2 reading the banks; A2
complete, waiting for the first cipher lane. -/
inductive Phase where
  | none | a1 | a2Wait | a2Read | a2Done
  deriving DecidableEq, Repr

/-- Mode control (spec/03 R91 to R123). -/
structure ModeCtl where
  mode        : Mode
  target      : Target
  chgIe       : Bool
  /-- MODE_STAT.STAGE: ATTEST unit stages completed. -/
  stage       : Nat
  fresh       : Bool
  warmFail    : Bool
  chg         : Bool
  drainExp    : Bool
  badReq      : Bool
  phase       : Phase
  /-- The start-up, test or quarantine interval of the forced safe state (R490). -/
  safe        : Bool
  /-- SERVICE or FOLLOWER has been entered since the last reset (R482). -/
  served      : Bool
  fllOn       : Bool
  fllLock     : Bool
  /-- Elapsed time at entry to DRAIN (R97). -/
  drainStart  : Nat
  /-- The drain limit has been reached (R102). -/
  drainForced : Bool
  /-- OPPT_SEL.POINT and ACTIVE (R123). -/
  point       : Nat
  active      : Nat
  /-- ROOT_KEY has been sampled in this ATTEST (R86). -/
  keySampled  : Bool
  /-- This ATTEST follows RST_AON_N, so the retention arrays were erased (R428). -/
  afterAon    : Bool
  deriving DecidableEq, Repr

/-- SEAL_TIME (R339): counter, carried fraction over AON_FREQ, held load value and the latch of the high word. -/
structure SealTime where
  ns    : Nat
  frac  : Nat
  held  : Word
  latch : Word
  deriving DecidableEq, Repr

/-! ### Power governor -/

/-- What a waiting grant is for (R115). -/
inductive GrantFor where
  | req (rid : Nat) | bind (rid : Nat) | ckpt (stream : Nat) | frameLane (stream : Nat)
  | stageTest | firstLane | loadKek (rid : Nat) | unitTest
  deriving DecidableEq, Repr

/-- A waiting grant (R115 to R119). -/
structure Grant where
  gid    : Nat
  what   : GrantFor
  units  : List Nat
  part   : Option Nat
  charge : Nat
  cls    : Nat
  seq    : Nat
  deriving DecidableEq, Repr

/-- The power governor (R114 to R128). -/
structure Gov where
  grants    : List Grant
  budgetRej : Bool
  timeout   : Bool
  negTmo    : Bool
  /-- GOV_NEG.HIGH_MW is in force (R121). -/
  high      : Bool
  /-- The handshake has taken a rise of PWR_GNT and not yet its fall (R84). -/
  granted   : Bool
  deriving DecidableEq, Repr

/-! ### Units -/

/-- The clock state of a unit (R116, R118). -/
inductive Power where
  | gated | waking | awake
  deriving DecidableEq, Repr

/-- What a unit is doing. -/
inductive Work where
  | idle | req (rid : Nat) | frame (stream : Nat) | ckpt (stream : Nat) | stageTest | unitTest
  deriving DecidableEq, Repr

/-- A lane's key register (R25): the slot it holds (4608 + p for partition p's KEK), the key's identity, the working
copy and the stale mark. -/
structure KeyReg where
  slot  : Nat
  keyId : Nat
  mat   : Bytes
  stale : Bool
  deriving DecidableEq, Repr

/-- The role of an operand tile during a PKA_OP job (R365). -/
inductive TileRole where
  | pub | secret | work | out | decoy
  deriving DecidableEq, Repr

/-- A cipher lane, digest lane, cluster or sap tap. -/
structure UnitSt where
  power     : Power
  work      : Work
  /-- The partition charged for the unit (R115). -/
  charge    : Option Nat
  key       : Option KeyReg
  /-- When the unit became idle, for "longest idle first" (R118). -/
  idleSince : Nat
  /-- The ATTEST unit test has passed (R110). -/
  passed    : Bool
  /-- Fenced by a fault or by a failed ATTEST test (R485, R110). -/
  fltFence  : Bool
  /-- Fenced for test (R516). -/
  testFence : Bool
  /-- A FENCE is accepted and has not taken effect (R517). -/
  fencePend : Bool
  /-- The last TEST failed (R520). -/
  testFail  : Bool
  /-- The request whose context lies in the digest lane's save area (R311). -/
  save      : Option Nat
  /-- Cluster operand tiles, 256 × 64 bytes (R377). -/
  tiles     : Mem
  /-- Cluster accumulator, 1088 bits (R377). -/
  acc       : Nat
  /-- Roles of the operand tiles during a PKA_OP job; a tile not listed is WORK (R365). -/
  roles     : Store TileRole
  /-- The sequencer's data registers, which hold the draw of the job (R354, R366). -/
  seqr      : Bytes
  /-- The hash helper's state (R366): what it has taken in. -/
  hash      : Bytes
  deriving DecidableEq, Repr

/-! ### Fabric -/

/-- What a fabric transaction is for; it names the requester and the place its data takes. -/
inductive Purpose where
  | fetch (part q v n : Nat)
  | srcList (rid off : Nat) | dstList (rid off : Nat) | src (rid off : Nat) | recd (rid off : Nat)
  | out (rid : Nat) | tagOut (rid : Nat) | zero (rid : Nat) | exp (rid : Nat)
  | cmpl (part q : Nat) (rid : Option Nat)
  | intr (part vec : Nat)
  | sect (bank sec : Nat) | header (bank : Nat) | bankRead
  | sealRec (stream rseq : Nat)
  | fltRec (eid : Nat) | telem
  deriving DecidableEq, Repr

/-- A write's payload: given bytes, or bytes of an internal layout (R419) named by the key that wraps the records, image, section and
offset. -/
inductive Payload where
  | bytes (bs : Bytes)
  | internal (key : Bytes) (seq sec off len : Nat)
  deriving DecidableEq, Repr

/-- Where a transaction stands: presented on CMD, its command transferred, or held past the limit (R70). -/
inductive TxnPhase where
  | presented | issued | held
  deriving DecidableEq, Repr

/-- A fabric transaction (R59 to R71). -/
structure Txn where
  port    : Nat
  isWrite : Bool
  tag     : Nat
  addr    : Nat
  len     : Nat
  payload : Payload
  cls     : Nat
  part    : Nat
  purpose : Purpose
  /-- The queue whose request it serves (R167). -/
  queue   : Option Nat
  phase   : TxnPhase
  /-- Return beats received, by index (R62). -/
  got     : List (Nat × Bytes)
  deriving DecidableEq, Repr

/-! ### Queues -/

/-- An entry in the entry cache (R142): its linear start, slots, bytes, the SLOTS first parsed (R151), whether it was pushed,
whether INVAL dropped it and it awaits a refetch (R149). -/
structure CacheEntry where
  v       : Nat
  slots   : Nat
  bytes   : Bytes
  first   : Nat
  pushed  : Bool
  dropped : Bool
  /-- It was pushed in DRAIN and waits for its QUEUE_DRAINED completion (R100). -/
  drained : Bool
  deriving DecidableEq, Repr

/-- A chain under way on a queue (R154 to R156): links still to be admitted, the link that runs, whether an earlier
link failed. -/
structure ChainRun where
  left    : Nat
  current : Option Nat
  failed  : Bool
  deriving DecidableEq, Repr

/-- A queue (spec/04, spec/05 R188). Indices are linear values modulo 2N (R130). -/
structure Queue where
  cfg      : QueueCfg
  en       : Bool
  cie      : Bool
  fetchErr : Bool
  cmplErr  : Bool
  dbErr    : Bool
  invalErr : Bool
  pushRej  : Bool
  /-- Head recorded at the last accepted INVAL (R149). -/
  inv      : Nat
  /-- Pleod's submission head. -/
  head     : Nat
  /-- Recorded submission tail. -/
  tail     : Nat
  /-- First slot not yet fetched. -/
  fetch    : Nat
  /-- Completion head and tail. -/
  cqHead   : Nat
  cqTail   : Nat
  cache    : List CacheEntry
  /-- Slots returned by a fetch and not yet parsed: linear index and bytes. -/
  slots    : List (Nat × Bytes)
  /-- First slot not yet parsed into entries. -/
  parse    : Nat
  /-- Credits reserved for admitted requests (R158). -/
  reserved : Nat
  chain    : Option ChainRun
  /-- A DESTROY_QUEUE is under way (R189). -/
  dying    : Bool
  /-- Virtual times within the partition for cipher lanes, digest lanes and clusters: numerator, denominator (R199). -/
  vt       : List (Nat × Nat)
  deriving DecidableEq, Repr

/-- An interrupt vector's state beside its registers (R195, R196). -/
structure Vec where
  pend  : Bool
  count : Nat
  timer : Bool
  deriving DecidableEq, Repr

/-- A live export (R260). -/
structure LiveExp where
  idx : Nat
  qid : Nat
  seq : Nat
  rid : Nat
  deriving DecidableEq, Repr

/-- A region of the result FIFO (R387, R388): start, length, owner while uncommitted. -/
structure Region where
  start : Nat
  len   : Nat
  owner : Option Nat
  deriving DecidableEq, Repr

/-- A result FIFO (R387 to R392). Positions count without wrapping; they are read modulo 2048. -/
structure ResultFifo where
  words   : RegFile
  rd      : Nat
  mark    : Nat
  release : Nat
  tail    : Nat
  regions : List Region
  underrun : Bool
  tileErr : Bool
  deriving DecidableEq, Repr

/-- The three partition resets of R193. -/
inductive ResetKind where
  | byDriver (rid : Nat) | byReset | byDestroy
  deriving DecidableEq, Repr

/-- A partition reset in progress (R193): its kind and the counts of R192. -/
structure PartReset where
  kind      : ResetKind
  ended     : Nat
  discarded : Nat
  /-- A DESTROY past its reset waits for the acknowledgement of its image (R179). -/
  waitAck   : Option Nat
  /-- The peer has still to acknowledge the PART graft with this GSEQ (R447). -/
  waitGraft : Option Nat
  /-- Step 6 has begun: the partition's streams close. -/
  closing   : Bool
  deriving DecidableEq, Repr

/-- A partition (spec/05). -/
structure Partition where
  assign    : Assign
  slotMap   : List Nat
  /-- PART_CTL, the admin ring registers, the vector registers and the export registers. -/
  regs      : RegFile
  intrErr   : Bool
  admCfgErr : Bool
  urgDeny   : Bool
  urgLeft   : Nat
  denied    : Nat
  reset     : Option PartReset
  queues    : Store Queue
  vecs      : Store Vec
  expFull   : Bool
  expFail   : Bool
  expCfgErr : Bool
  live      : List LiveExp
  expSeq    : Nat
  ctxEpoch  : Nat
  rf        : ResultFifo
  /-- The 16 push windows of 512 bytes (R144), at w × 512 + offset. -/
  windows   : Mem
  /-- Virtual times for cipher lanes, digest lanes and clusters (R199). -/
  vt        : List (Nat × Nat)
  deriving DecidableEq, Repr

/-! ### Requests -/

/-- The stages of a request (spec/01 "Path of a request", R219). -/
inductive ReqPhase where
  | admitted | waitLease | waitRand | waitStaging | waitPlace | waitGrant | waking | forming
  | reading | ready | writing | tagWriting | zeroing | completing | waitAck | waitClose | waitBind | waitIdle | resetting
  | capturing | waitVictim | exporting | wrapping | exported | resuming | unwrapping | waitCredit
  deriving DecidableEq, Repr

/-- Who asked for the work: a queue's entry, or Pleod itself for LOAD_KEK. -/
inductive Owner where
  | queue | kek
  deriving DecidableEq, Repr

/-- A grove's segment (R241, R254): first unit of splitting, length, lane that works on it, whether it is finished; and what the
trunk's record holds of it (R253): the payload bytes done, the counter block or data unit number of the next block and the partial
GHASH value. `wrote` is the output already issued. -/
structure Segment where
  start : Nat
  len   : Nat
  lane  : Option Nat
  done  : Bool
  pos   : Nat
  ctr   : Bytes
  hash  : Nat
  wrote : Nat
  deriving DecidableEq, Repr

/-- An admitted request. -/
structure Req where
  owner    : Owner
  part     : Nat
  qid      : Nat
  tag      : Nat
  opcode   : Nat
  entry    : Bytes
  irq      : Bool
  chained  : Bool
  pushed   : Bool
  urgent   : Bool
  cls      : Nat
  /-- QWEIGHT at admission (R191). -/
  weight   : Nat
  /-- Order of admission. -/
  seq      : Nat
  phase    : ReqPhase
  /-- A completion credit is reserved for it (R158). -/
  credit   : Bool
  /-- Global slots that the request uses, with the key each held at admission (R25). -/
  keys     : List (Nat × Nat)
  /-- The attributes of the first of them as the request started (R25). -/
  attr     : Option KeyAttr
  /-- Reserved target slot (R403, R352). -/
  dslot    : Option Nat
  srcList  : List (Nat × Bytes)
  dstList  : List (Nat × Bytes)
  /-- Source bytes gathered, by offset within the string. -/
  src      : List (Nat × Bytes)
  /-- State or export record read. -/
  recd     : List (Nat × Bytes)
  units    : List Nat
  segs     : List Segment
  /-- Grove size at formation; 0 for a single unit. -/
  g0       : Nat
  /-- The reserved counter, and the instance bit under whose lease it was taken (R267, R275). -/
  counter  : Option Nat
  inst     : Nat
  drawn    : Bool
  iv       : Bytes
  rand     : Bytes
  staging  : Nat
  waitSeq  : Nat
  ctxTiles : Nat
  started  : Bool
  /-- Its unit has all that it needs: the request can reach its last cycle. -/
  ran      : Bool
  /-- Nothing has been written since its last dispatch. -/
  clean    : Bool
  /-- Bytes of the output string issued by a request on one lane; of a grove, those of the built IV. -/
  wrote    : Nat
  /-- Writes held back until every other write is DONE: the tag write of R230. -/
  tagBytes : Bytes
  failed   : Bool
  /-- Status and DETAIL with which it ends at its next stop (R265), or that a check at admission has fixed (R380). -/
  ending   : Option (Nat × Nat)
  /-- A partition reset ends it: no completion is posted (R193). -/
  quiet    : Bool
  status   : Nat
  detail   : Nat
  result   : Nat
  expIdx   : Nat
  expSeq   : Nat
  /-- Opcode and tag of the entry that first carried the request (R259). -/
  origOp   : Nat
  origTag  : Nat
  fifo     : Option (Nat × Nat)
  /-- Secret tiles reserved for the request (R350 step 5). -/
  tiles    : Nat
  /-- RAW_CFG.CLUSTERS at admission (R380), the next command of the list and the FIFO words pushed (R379, R385). -/
  mask     : Nat
  cmd      : Nat
  words    : Nat
  /-- RANDREP or PKA_CFG.RANDREP_ALL at placement (R363, R375). -/
  randrep  : Bool
  /-- The urgent request for which this one gives up a unit; none for seal demand (R202, R27). -/
  victimOf : Option Nat
  /-- Lanes of the grove that are to stop, with the urgent requests that wait for them (R253). -/
  shedding : List (Nat × Nat)
  acct     : Option Nat
  /-- SEQ of the image whose acknowledgement the completion waits for (R404). -/
  waitSeqAck : Option Nat
  waitGraft  : Option Nat
  deriving DecidableEq, Repr

/-! ### Heartwood, ledger and persistence -/

/-- An operation of HW_CMD under way (R410). -/
inductive HwOp where
  | loadKek (part rid : Nat) | erase (ack : Nat) (graft : Option Nat) | zeroise (first : Nat) (banks : List Bool) (graft : Option Nat)
  deriving DecidableEq, Repr

/-- Heartwood (spec/13 R394 to R415). -/
structure Heart where
  slots     : Store HwSlot
  keks      : Store Bytes
  badKeks   : List Nat
  /-- The device key derived in phase A1 (R400). -/
  dk        : Option Bytes
  op        : Option HwOp
  done      : Bool
  rej       : Bool
  reason    : Nat
  alarm     : Bool
  alarmBoot : Bool
  retUsed   : Bool
  /-- Retained slots and KEKs that failed their tile check in A1 (R428). -/
  badSlots  : List Nat
  retiredTiles : List Nat
  deriving DecidableEq, Repr

/-- A live lease, or one being persisted (R270 to R274). -/
structure Lease where
  acct     : Nat
  idx      : Nat
  part     : Nat
  live     : Bool
  /-- Counters taken from the lease. -/
  taken    : Nat
  /-- SEQ of the image that carries the HWM, once started, and whether it is acknowledged (R271). -/
  image    : Option Nat
  acked    : Bool
  graft    : Option Nat
  grafted  : Bool
  /-- Order of last use, for "idle longest" (R274). -/
  used     : Nat
  deriving DecidableEq, Repr

/-- The nonce ledger (spec/08). -/
structure Ledger where
  accts       : Store Acct
  leases      : List Lease
  persistDown : Bool
  histRdy     : Bool
  exhaust     : Bool
  acctFull    : Bool
  leaseTmo    : Bool
  solo        : Bool
  purge       : Option Nat
  purgeDone   : Bool
  purgeRej    : Bool
  /-- Accounts received from the peer or created here since FRESH (R282, R455). -/
  known       : List Nat
  deriving DecidableEq, Repr

/-- An outstanding persistence image (R420 to R424). -/
structure ImgOut where
  seq     : Nat
  bank    : Bool
  dirty   : List Nat
  valid   : Bool
  /-- Section writes not yet answered. -/
  left    : Nat
  headerOut : Bool
  accts   : List Nat
  deriving DecidableEq, Repr

/-- Persistence (spec/13 R416 to R431). -/
structure Persist where
  out       : Option ImgOut
  lastSeq   : Nat
  ackSeq    : Nat
  /-- Bank of the newest acknowledged image. -/
  ackBank   : Bool
  /-- Sections that differ from each bank's last acknowledged image (R421). -/
  dirtyA    : List Nat
  dirtyB    : List Nat
  /-- Sections whose content differs from what was last written into each bank (R421). -/
  writeA    : List Nat
  writeB    : List Nat
  /-- A change waits for an image; a lease request waits; the two images of R429 still owed. -/
  change    : Bool
  lease     : Bool
  boot      : Nat
  batch     : Bool
  acked     : Bool
  lost      : Bool
  late      : Bool
  selB      : Bool
  regionWait : Bool
  lostCnt   : Nat
  pendHi    : Word
  lastHi    : Word
  pendInfo  : Word
  pendSeq   : Nat
  deriving DecidableEq, Repr

/-! ### Seal streams -/

/-- A frame of a seal stream (R316, R327), or a passive interval of its tap (R333) when `interval` holds. `reason` is the
bit of R333 once unsealed, `lane` the digest lane, `seq` the order of its header beat, `slots` the ring slots reserved for it
(R329), `lostAt` SEAL_TIME when it became unsealed. -/
structure Frame where
  seq     : Nat
  interval : Bool
  slots   : Nat
  lostAt  : Nat
  fid     : Nat
  time    : Nat
  declLen : Nat
  data    : Bytes
  held    : Nat
  ended   : Bool
  reason  : Option Nat
  lane    : Option Nat
  observed : Nat
  deriving DecidableEq, Repr

/-- An open gap (R333). -/
structure Gap where
  /-- A ring slot is reserved for its record (R329). -/
  slot     : Bool
  flags    : Nat
  count    : Nat
  firstId  : Nat
  lastId   : Nat
  start    : Nat
  observed : Nat
  deriving DecidableEq, Repr

/-- A close under way (R321): cause, waiting request, and the frame that ends an AT_FRAME close. -/
structure Closing where
  cause   : Nat
  rid     : Option Nat
  atFrame : Option Nat
  fixed   : Bool
  deriving DecidableEq, Repr

/-- The newest chained record, which a checkpoint covers (R336). -/
structure Covered where
  rseq  : Nat
  idf   : Nat
  chain : Bytes
  deriving DecidableEq, Repr

/-- A bound seal stream (spec/10). -/
structure Stream where
  part      : Nat
  tap       : Nat
  chan      : Nat
  timeSrc   : Bool
  frameIrq  : Bool
  /-- The seal key as bound: global slot, the key's identity, the material; the signing key: whether there is one, whether it is
  an Ed25519 key, the material. -/
  sealSlot  : Nat
  sealKey   : Nat
  sealMat   : Bytes
  signs     : Bool
  signEd    : Bool
  signMat   : Bytes
  ringLog2  : Nat
  vector    : Nat
  ckptFrames : Nat
  ckptMs    : Nat
  lanes     : Nat
  buf64k    : Nat
  ringBase  : Nat
  takeId    : Nat
  bound     : Bool
  chain     : Bytes
  rseq      : Nat
  tail      : Nat
  head      : Nat
  newest    : Covered
  gap       : Option Gap
  frames    : List Frame
  sealed    : Nat
  unsealed  : Nat
  gaps      : Nat
  gapFlags  : Nat
  lastFid   : Nat
  wrErr     : Option Nat
  dbErr     : Bool
  closing   : Option Closing
  closeSent : Bool
  /-- FRAME records since the last checkpoint began; a checkpoint waits; the job that runs and what it covers. -/
  sinceCkpt : Nat
  ckptDue   : Bool
  ckptJob   : Option (Covered × Nat × Bool)
  ckptUnit  : Option Nat
  finalCkpt : Bool
  bindRid   : Option Nat
  deriving DecidableEq, Repr

/-- Seal hardware beside the streams: TAP_STAT.OWN_REJ and the open frame of each tap (tap, stream). -/
structure Seal where
  streams : Store Stream
  ownRej  : Bool
  opened  : Store Nat
  deriving DecidableEq, Repr

/-! ### Pair -/

/-- The link states (R439). -/
inductive Link where
  | off | reset | align | auth | resync | synced | blocked
  deriving DecidableEq, Repr

/-- PAIR_INFO.LINK (R439). -/
def Link.code : Link → Nat
  | .off => 0 | .reset => 1 | .align => 2 | .auth => 3 | .resync => 4 | .synced => 5 | .blocked => 6

/-- What a sent graft carries (R444). -/
inductive GraftBody where
  | lease (acct hwm : Nat) | retire (acct : Nat) | purge (ids : List Nat) | slot (g : Nat) | erase (scope : EraseScope)
  | kek (part : Nat) | part (p : Nat) (present : Bool) | queue (p q : Nat) | ident | snap | snapEnd | handover
  deriving DecidableEq, Repr

/-- A received graft whose acknowledgement waits for an own image (R444, R450). -/
structure OwedAck where
  gseq : Nat
  seq  : Nat
  snap : Bool
  deriving DecidableEq, Repr

/-- A lane of the link receiver (R436, R438). -/
structure LinkLane where
  locked : Bool
  good   : Nat
  bad    : Nat
  faults : Nat
  deriving DecidableEq, Repr

/-- The pair (spec/14). -/
structure Pair where
  ident      : PairId
  acctWait   : Bool
  link       : Link
  lanes      : Nat
  rxLanes    : List LinkLane
  peerPdown  : Bool
  peerMode   : Nat
  /-- The peer serves: its MODE in the last AUTH frame, then its HANDOVER and IDENT grafts (R452, R453). -/
  peerActive : Bool
  dualActive : Bool
  linkChg    : Bool
  peerFault  : Bool
  authErr    : Bool
  idMismatch : Bool
  instConflict : Bool
  handover   : Bool
  cmdDone    : Bool
  cmdRej     : Bool
  rejReason  : Nat
  /-- SEQ of the image that PAIR_CMD waits for. -/
  cmdWait    : Option Nat
  txSeq      : Nat
  rxSeq      : Nat
  /-- Unacknowledged grafts, oldest first. -/
  sent       : List (Nat × GraftBody)
  retx       : Nat
  /-- Changes that wait for a resynchronisation. -/
  backlog    : Nat
  retrains   : Nat
  crcErr     : Nat
  retxCnt    : Nat
  myNonce    : Bytes
  sk         : Option Bytes
  shadow     : Option Snapshot
  snapAckRx  : Bool
  snapAckTx  : Bool
  owed       : List OwedAck
  /-- Control frames sent: the highest GSEQ acknowledged, the refusals by GSEQ, the number of heartbeats. -/
  acksSent   : Nat
  naksSent   : List Nat
  heartbeats : Nat
  deriving DecidableEq, Repr

/-! ### Mailboxes -/

/-- A message that firmware took: its 16 words' bytes, whether it is executed, and whether the manager has restarted. -/
structure Taken where
  bytes   : Bytes
  reply   : Option Bytes
  dropped : Bool
  origin  : Bool
  deriving DecidableEq, Repr

/-- A mailbox (R462). -/
structure Mbox where
  data   : Bytes
  full   : Bool
  origin : Bool
  lost   : Bool
  overrun : Bool
  goRej  : Bool
  wrRej  : Bool
  lostCnt : Nat
  ovrCnt : Nat
  deriving DecidableEq, Repr

/-- The mailboxes, doorbell bits and patch staging (spec/15). -/
structure Mbx where
  boxes    : List Mbox
  /-- Messages taken and not yet replied to, per pair, oldest first. -/
  taken    : List (List Taken)
  /-- Reply queues of the pairs: reply bytes and the origin mark (R467, R471). -/
  replies  : List (List (Bytes × Bool))
  dbStat   : Word
  epoch    : Nat
  discards : Nat
  /-- Patch area: active, staged (none: nothing staged; some []: ROM only), chunks received (R474). -/
  active   : Bytes
  staged   : Option Bytes
  staging  : Option (Bytes × Nat)
  deriving DecidableEq, Repr

/-! ### Faults and background -/

/-- A fault message (R477). -/
structure FaultMsg where
  src  : Nat
  kind : Nat
  addr : Nat
  deriving DecidableEq, Repr

/-- An entry of the fault log (R491, R492, R496). -/
structure LogEntry where
  eid    : Nat
  msg    : FaultMsg
  fatal  : Bool
  sat    : Bool
  count  : Nat
  first  : Nat
  last   : Nat
  /-- Its ring write has been issued. -/
  closed : Bool
  deriving DecidableEq, Repr

/-- The fault collector (spec/16). -/
structure Flt where
  inFlight  : List FaultMsg
  log       : Store LogEntry
  lock      : Bool
  lockFixed : Bool
  new       : Bool
  errLatch  : Bool
  drop      : Bool
  ringLost  : Bool
  dbErr     : Bool
  lastSrc   : Nat
  lastKind  : Nat
  lossDrops : Nat
  lossRing  : Nat
  /-- Drops and losses since the previous record written (R496). -/
  recDrops  : Nat
  recLost   : Nat
  ringHead  : Nat
  ringTail  : Nat
  nextEid   : Nat
  deriving DecidableEq, Repr

/-- Scrubbing, calibration, telemetry and the unit command (spec/17). -/
structure Bg where
  /-- The next tile of each scrubber (R504), by store × 8, plus the cluster for operand tiles. -/
  scrubPos   : Store Nat
  retired    : List (StoreId × Nat × Nat)
  scrubFails : Nat
  scrubRet   : Nat
  scrubLast  : Word
  trim       : Int
  lane100k   : Nat
  calErr     : Bool
  telHead    : Nat
  telTail    : Nat
  wseq       : Nat
  telDbErr   : Bool
  telLost    : Nat
  telSkip    : Nat
  recSkip    : Nat
  recLost    : Nat
  /-- Counters of the window: global fields by number, and partition fields by partition × 64 + number (R511). -/
  gCount     : Store Nat
  pCount     : Store Nat
  /-- UNIT_CMD: the operation under way (1 FENCE, 2 TEST) and its unit; UNIT_STAT (R516). -/
  unitBusy   : Option (Nat × Nat)
  unitDone   : Bool
  unitRej    : Bool
  unitReason : Nat
  unitResult : Nat
  lastUnit   : Nat
  /-- PKA_STAT.CHECK_FAIL (R376). -/
  pkaCheckFail : Bool
  deriving DecidableEq, Repr

/-- Entropy source and DRBG (R369 to R374): the CTR_DRBG's Key and V, empty while there is no DRBG state, and its generate requests
since it was last seeded (R370). -/
structure Rng where
  key       : Bytes
  v         : Bytes
  count     : Nat
  ready     : Bool
  startup   : Bool
  reseeding : Bool
  rctFail   : Bool
  aptFail   : Bool
  fails     : Nat
  deriving DecidableEq, Repr

/-- PM_CMD's state (R173 to R177): the running partition, DONE, REJ, REASON, LAST_PART. -/
structure Pm where
  busy     : Option Nat
  /-- A DESTROY or RESET that waits for the partition's own PARTITION_RESET (R177). -/
  queued   : Option ResetKind
  done     : Bool
  rej      : Bool
  reason   : Nat
  lastPart : Nat
  deriving DecidableEq, Repr

/-- The latches of GLB_IRQ_SUM (R546). -/
structure Irq where
  ledger  : Bool
  persist : Bool
  pair    : Bool
  deriving DecidableEq, Repr

/-- What the retained state image keeps of a unit (R106): number, fenced by a fault or a failed test of its stage, fenced because a
TEST failed (R520), passed. -/
structure RetUnit where
  unit   : Nat
  fence  : Bool
  test   : Bool
  passed : Bool
  deriving DecidableEq, Repr

/-- The retained state image (R106). -/
structure Retained where
  parts   : Store Partition
  accts   : Store Acct
  streams : Store Stream
  ident   : PairId
  acctWait : Bool
  persist : Persist
  persCtl : Word
  units   : List RetUnit
  deriving DecidableEq, Repr

/-! ### The state -/

/-- The state of the block. -/
structure State where
  pins     : Pins
  jtag     : Jtag
  port     : Port
  mode     : ModeCtl
  /-- Configuration registers reset by RST_AON_N, by global-page offset. -/
  regsAon  : RegFile
  /-- Configuration registers reset by RST_BLK_N, by global-page offset. -/
  regsBlk  : RegFile
  time     : SealTime
  gov      : Gov
  fab      : List Txn
  units    : Store UnitSt
  parts    : Store Partition
  reqs     : Store Req
  hw       : Heart
  ledger   : Ledger
  persist  : Persist
  seals    : Seal
  pair     : Pair
  mbx      : Mbx
  flt      : Flt
  bg       : Bg
  rng      : Rng
  pm       : Pm
  irq      : Irq
  retained : Option Retained
  /-- Lanes shed since reset, GROVE_STAT.SHEDS (R248). -/
  sheds    : Nat
  /-- MODEL'S OWN: bytes of entropy taken so far; the free value Config.entropyByte is applied to it. -/
  free     : Nat
  /-- MODEL'S OWN: how often a lane's progress or occupation was looked at; Config.progress and Config.occupied are applied to it. -/
  picks    : Nat
  /-- MODEL'S OWN: the next identifier of a request, grant or key, and the next place in an order. -/
  nextId   : Nat
  /-- MODEL'S OWN: elapsed time in ns, counted by the tick of an empty queue. -/
  now      : Nat
  /-- The commands that wait, first in, first out. -/
  pending  : List Instr
  deriving DecidableEq, Repr

/-! ### The reasons a step can stop -/

/-- Faults. The block reports every error through its own registers, so no command stops with a fault. -/
inductive Fault where
  /-- Raised by no command; kept so that the type is inhabited. Safe: it only ever stops a run. -/
  | unused
  deriving DecidableEq, Repr

/-- Refusals. -/
inductive Refusal where
  /-- Raised by the dispatcher for a command that has no meaning yet. Safe: it only ever stops a run. -/
  | notModelled (mnemonic : String)
  deriving DecidableEq, Repr

/-! ### Reset -/

/-- A unit in reset: clock gated, no key, no work (R56). -/
def UnitSt.reset : UnitSt where
  power := .gated
  work := .idle
  charge := none
  key := none
  idleSince := 0
  passed := false
  fltFence := false
  testFence := false
  fencePend := false
  testFail := false
  save := none
  tiles := []
  acc := 0
  roles := []
  seqr := []
  hash := []

/-- The units that are built (R538): C0–C23, D0–D15, B0–B7 and T0–T15, by fault source number. -/
def unitNumbers : List Nat :=
  List.range 24 ++ (List.range 16).map (0x20 + ·) ++ (List.range 8).map (0x30 + ·) ++ (List.range 16).map (0x70 + ·)

def PairId.reset : PairId where
  paired := false
  pairId := 0
  inst := 0
  standby := false

def Gov.reset : Gov where
  grants := []
  budgetRej := false
  timeout := false
  negTmo := false
  high := false
  granted := false

/-- Empty keys and tables; ALARM and ALARM_BOOT 0 (R412). -/
def Heart.reset : Heart where
  slots := []
  keks := []
  badKeks := []
  dk := none
  op := none
  done := false
  rej := false
  reason := 0
  alarm := false
  alarmBoot := false
  retUsed := false
  badSlots := []
  retiredTiles := []

def Ledger.reset : Ledger where
  accts := []
  leases := []
  persistDown := false
  histRdy := false
  exhaust := false
  acctFull := false
  leaseTmo := false
  solo := false
  purge := none
  purgeDone := false
  purgeRej := false
  known := []

def Persist.reset : Persist where
  out := none
  lastSeq := 0
  ackSeq := 0
  ackBank := false
  dirtyA := []
  dirtyB := []
  writeA := []
  writeB := []
  change := false
  lease := false
  boot := 0
  batch := false
  acked := false
  lost := false
  late := false
  selB := false
  regionWait := false
  lostCnt := 0
  pendHi := 0
  lastHi := 0
  pendInfo := 0
  pendSeq := 0

def Seal.reset : Seal where
  streams := []
  ownRej := false
  opened := []

def LinkLane.reset : LinkLane where
  locked := false
  good := 0
  bad := 0
  faults := 0

/-- PEER_MODE reads 0x8 while no AUTH frame has arrived (R458). -/
def Pair.reset : Pair where
  ident := PairId.reset
  acctWait := false
  link := .off
  lanes := 0
  rxLanes := List.replicate 4 LinkLane.reset
  peerPdown := false
  peerMode := 8
  peerActive := false
  dualActive := false
  linkChg := false
  peerFault := false
  authErr := false
  idMismatch := false
  instConflict := false
  handover := false
  cmdDone := false
  cmdRej := false
  rejReason := 0
  cmdWait := none
  txSeq := 0
  rxSeq := 0
  sent := []
  retx := 0
  backlog := 0
  retrains := 0
  crcErr := 0
  retxCnt := 0
  myNonce := []
  sk := none
  shadow := none
  snapAckRx := false
  snapAckTx := false
  owed := []
  acksSent := 0
  naksSent := []
  heartbeats := 0

def Mbox.reset : Mbox where
  data := zeros 64
  full := false
  origin := false
  lost := false
  overrun := false
  goRej := false
  wrRej := false
  lostCnt := 0
  ovrCnt := 0

def Mbx.reset : Mbx where
  boxes := List.replicate 8 Mbox.reset
  taken := List.replicate 4 []
  replies := List.replicate 4 []
  dbStat := 0
  epoch := 0
  discards := 0
  active := []
  staged := none
  staging := none

def Flt.reset : Flt where
  inFlight := []
  log := []
  lock := false
  lockFixed := false
  new := false
  errLatch := false
  drop := false
  ringLost := false
  dbErr := false
  lastSrc := 0
  lastKind := 0
  lossDrops := 0
  lossRing := 0
  recDrops := 0
  recLost := 0
  ringHead := 0
  ringTail := 0
  nextEid := 0

def Bg.reset : Bg where
  scrubPos := []
  retired := []
  scrubFails := 0
  scrubRet := 0
  scrubLast := 0
  trim := 0
  lane100k := 0
  calErr := false
  telHead := 0
  telTail := 0
  wseq := 0
  telDbErr := false
  telLost := 0
  telSkip := 0
  recSkip := 0
  recLost := 0
  gCount := []
  pCount := []
  unitBusy := none
  unitDone := false
  unitRej := false
  unitReason := 0
  unitResult := 0
  lastUnit := 0
  pkaCheckFail := false

def Rng.reset : Rng where
  key := []
  v := []
  count := 0
  ready := false
  startup := false
  reseeding := false
  rctFail := false
  aptFail := false
  fails := 0

def Pm.reset : Pm where
  busy := none
  queued := none
  done := false
  rej := false
  reason := 0
  lastPart := 0

def Irq.reset : Irq where
  ledger := false
  persist := false
  pair := false

/-- The mode registers after RST_AON_N with OPPT_BOOT as sampled (R92, R93, R123). -/
def ModeCtl.reset (boot : Nat) : ModeCtl where
  mode := .inReset
  target := .service
  chgIe := false
  stage := 0
  fresh := false
  warmFail := false
  chg := false
  drainExp := false
  badReq := false
  phase := .none
  safe := false
  served := false
  fllOn := false
  fllLock := false
  drainStart := 0
  drainForced := false
  point := boot
  active := if boot = 3 then 0 else boot
  keySampled := false
  afterAon := true

/-- Step 1 of R57: both resets low, CORE_PWR_GOOD high, CLK_FAB running, the other inputs low (log entry 3). -/
def Pins.reset : Pins where
  aonRel := false
  blkRel := false
  aonFreq := 0
  opptBoot := 0
  testMfr := 0
  testMode := false
  corePwrGood := true
  pwrGnt := false
  rootKeyVld := false
  rootKey := 0
  phyRdy := false
  fabClk := true
  tamperLatch := []
  tamperLevel := []
  irqHeld := false
  chipRstReq := false
  rootKeyAck := false
  pwrReq := false
  coreIso := false
  phyRst := true
  nmiPulses := 0

/-- Test-Logic-Reset with IDCODE selected (log entry 4). -/
def Jtag.reset : Jtag where
  st := .testLogicReset
  ir := 1
  irSh := []
  drSh := []
  tdo := false

/-- The block with RST_AON_N and RST_BLK_N low (R54 to R57). -/
def State.reset : State where
  pins := Pins.reset
  jtag := Jtag.reset
  port := ⟨0, false⟩
  mode := ModeCtl.reset 0
  regsAon := []
  regsBlk := []
  time := ⟨0, 0, 0, 0⟩
  gov := Gov.reset
  fab := []
  units := unitNumbers.map (fun u => (u, UnitSt.reset))
  parts := []
  reqs := []
  hw := Heart.reset
  ledger := Ledger.reset
  persist := Persist.reset
  seals := Seal.reset
  pair := Pair.reset
  mbx := Mbx.reset
  flt := Flt.reset
  bg := Bg.reset
  rng := Rng.reset
  pm := Pm.reset
  irq := Irq.reset
  retained := none
  sheds := 0
  free := 0
  picks := 0
  nextId := 1
  now := 0
  pending := []

end Sys2Proof.Machine
end

