-- ==== Sys2Proof/Machine/Stores.lean ====
section
/-! DEFINITION. The operations on sparse stores, register files and addressed RAMs. A store's keys rise strictly; a
register file lists no register that holds its reset value; a RAM lists no byte that is 0. -/

namespace Sys2Proof.Machine

/-- The value at a key. -/
def Store.find {α : Type} : Store α → Nat → Option α
  | [], _ => none
  | (k, a) :: r, n => if k = n then some a else Store.find r n

/-- Set the value at a key, keeping the keys in order. -/
def Store.put {α : Type} : Store α → Nat → α → Store α
  | [], n, x => [(n, x)]
  | (k, a) :: r, n, x =>
    if n < k then (n, x) :: (k, a) :: r
    else if n = k then (n, x) :: r
    else (k, a) :: Store.put r n x

/-- Remove a key. -/
def Store.del {α : Type} : Store α → Nat → Store α
  | [], _ => []
  | (k, a) :: r, n => if k = n then Store.del r n else (k, a) :: Store.del r n

/-- Change the value at a key, if it is there; the keys stay. -/
def Store.upd {α : Type} : Store α → Nat → (α → α) → Store α
  | [], _, _ => []
  | (k, a) :: r, n, f => if k = n then (k, f a) :: r else (k, a) :: Store.upd r n f

/-- Change every value; the keys stay. -/
def Store.mapAll {α : Type} (st : Store α) (f : Nat → α → α) : Store α := st.map (fun p => (p.1, f p.1 p.2))

/-- Every key is above a bound and the keys rise strictly. -/
def Store.wfFrom {α : Type} : Nat → Store α → Bool
  | _, [] => true
  | lo, (k, _) :: r => decide (lo ≤ k) && Store.wfFrom (k + 1) r

/-- The keys rise strictly. -/
def Store.wf {α : Type} (st : Store α) : Bool := Store.wfFrom 0 st

/-- A register of a file whose reset value is given. -/
def RegFile.get (rf : RegFile) (rst : Word) (off : Nat) : Word := (Store.find rf off).getD rst

/-- Write a register of a file whose reset value is given; the reset value is not listed. -/
def RegFile.set (rf : RegFile) (rst : Word) (off : Nat) (w : Word) : RegFile :=
  if w = rst then Store.del rf off else Store.put rf off w

/-- A byte of a RAM; an unlisted byte is 0. -/
def Mem.get (m : Mem) (a : Nat) : Byte := (Store.find m a).getD 0

/-- Write a byte of a RAM; a byte that becomes 0 is not listed. -/
def Mem.set (m : Mem) (a : Nat) (b : Byte) : Mem := if b = 0 then Store.del m a else Store.put m a b

/-- Write consecutive bytes. -/
def Mem.setBytes : Mem → Nat → Bytes → Mem
  | m, _, [] => m
  | m, a, b :: bs => Mem.setBytes (Mem.set m a b) (a + 1) bs

/-- Read consecutive bytes. -/
def Mem.bytes (m : Mem) (a : Nat) : Nat → Bytes
  | 0 => []
  | n + 1 => Mem.get m a :: Mem.bytes m (a + 1) n

/-- The canonical form of a RAM: addresses rise strictly and no listed byte is 0. -/
def Mem.wf (m : Mem) : Bool := Store.wf m && m.all (fun c => c.2 != 0)

end Sys2Proof.Machine
end

