-- ==== Sys2Proof/Machine/Registers.lean ====
section
/-! DEFINITION. The register maps: where each RW register lies, which of its bits are RW, and its reset value
(spec/19_registers_global.md R552, spec/20_registers_partition.md R555 and the rules they name), and how the register
port merges a write (R75). Fields that Pleod itself changes have homes of their own in the state. -/

namespace Sys2Proof.Machine

/-- A register with RW fields: offset, mask of the RW bits, reset value. -/
structure RwReg where
  off  : Nat
  mask : Nat
  rst  : Nat
  deriving DecidableEq, Repr

/-- FLT_RCTn reset values (R480). -/
def rctReset (n : Nat) : Nat :=
  if n = 0x48 then 0x03
  else if n = 0x50 ∨ n = 0x51 then 0x27
  else if n = 0x58 ∨ n = 0x80 then 0x23
  else if 0x70 ≤ n ∧ n < 0x80 then 0x00
  else if 0x88 ≤ n ∧ n ≤ 0x8B then 0x26
  else 0x01

/-- The fault sources of R480. -/
def sources : List Nat :=
  List.range 24 ++ (List.range 16).map (0x20 + ·) ++ (List.range 8).map (0x30 + ·) ++ (List.range 4).map (0x40 + ·)
    ++ [0x48, 0x49, 0x4A, 0x50, 0x51, 0x58, 0x59, 0x60, 0x68] ++ (List.range 16).map (0x70 + ·)
    ++ [0x80, 0x81] ++ (List.range 4).map (0x88 + ·)

/-- The RW registers reset by RST_AON_N (R552), the fault reactions and TAP_OWNn apart. -/
def aonTable : List RwReg :=
  [⟨0x8, 0xFFFFFFFF, 0⟩,            -- SCRATCH (R539)
   ⟨0x40, 0xFFFFFF, 0x100000⟩,      -- FAB_TMO (R543)
   ⟨0x10C, 0xFFFFFF, 20000⟩,        -- DRAIN_TMO (R97)
   ⟨0x200, 0xFFFF, 0x1F40⟩,         -- GOV_BUDGET (R124)
   ⟨0x204, 0xFFFF03FF, 0x320A00C8⟩, -- GOV_CFG (R125)
   ⟨0x208, 0x3FFFFFF, 0x640000⟩,    -- GOV_NEG (R126)
   ⟨0x300, 0xFF0F, 0x1008⟩,         -- GROVE_CFG (R237)
   ⟨0x800, 0xFFFF07FF, 0x646401F4⟩, -- LEDGER_CFG (R284)
   ⟨0xB10, 0x1, 0⟩,                 -- PKA_CFG (R375)
   ⟨0xB20, 0xFF, 0xFF⟩,             -- RAW_CFG (R393)
   ⟨0xB24, 0xFFFFFFFF, 0xFFFFFFFF⟩, -- RAW_PERM_LO (R393)
   ⟨0xB28, 0xFFFFFFFF, 0xFFFFFFFF⟩, -- RAW_PERM_HI (R393)
   ⟨0xC10, 0x3FF, 0x200⟩,           -- HW_CFG (R413)
   ⟨0xD00, 0xFFF00000, 0⟩,          -- PERSIST_BASE_LO (R430)
   ⟨0xD04, 0xFFFFFFFF, 0⟩,          -- PERSIST_BASE_HI (R430)
   ⟨0xD0C, 0xFFFFFF, 0x3203E8⟩,     -- PERSIST_CFG (R430)
   ⟨0xE00, 0xFFFFFF03, 0x64140A00⟩, -- PAIR_CFG (R456)
   ⟨0xE04, 0xFFFFFFFF, 0⟩,          -- PAIR_IDV (R457)
   ⟨0x1404, 0xFFFFFFFF, 0xFFFFFFFF⟩, -- DB_MASK (R476)
   ⟨0x1C00, 0xFF01, 0x6400⟩,        -- FLT_CTL (R498)
   ⟨0x1C10, 0x3F, 0⟩,               -- FLT_LOG_IDX (R501)
   ⟨0x2030, 0xFFFFFFFF, 0xFFFFFFFF⟩, -- HOSTPAD_PERM_LO (R521)
   ⟨0x2034, 0xFFFFFFFF, 0xFFFFFFFF⟩] -- HOSTPAD_PERM_HI (R521)
  ++ (List.range 16).map (fun n => ⟨0xA40 + 4 * n, 0xBF, 0⟩)              -- TAP_OWNn (R342)
  ++ sources.map (fun n => ⟨0x1800 + 4 * n, 0x3F, rctReset n⟩)              -- FLT_RCTn (R484)

/-- The RW registers and RW fields reset by RST_BLK_N (R552). -/
def blkTable : List RwReg :=
  [⟨0x400, 0x1003F, 0⟩,             -- PM_CMD.PART, IE (R173)
   ⟨0x404, 0x7F, 1⟩,                -- PM_QUEUES (R174)
   ⟨0x408, 0x1FFF, 0⟩,              -- PM_SLOTS
   ⟨0x40C, 0xFF, 0⟩,                -- PM_CTX
   ⟨0x410, 0x7FF, 0⟩,               -- PM_LEASES
   ⟨0x414, 0xFF03FF, 0x201⟩,        -- PM_QOS
   ⟨0x418, 0xFFFF, 0⟩,              -- PM_POWER
   ⟨0x41C, 0x3F, 1⟩,                -- PM_VEC
   ⟨0x804, 0x40, 0⟩,                -- LEDGER_STAT.IE (R285)
   ⟨0x80C, 0x2, 0⟩,                 -- LEDGER_PURGE.IE (R287)
   ⟨0xB00, 0x20, 0⟩,                -- RNG_STAT.IE (R373)
   ⟨0xC00, 0x4FFF3F00, 0⟩,          -- HW_CMD.PART, SLOT, IE (R411)
   ⟨0xC04, 0xFFFFFFF8, 0⟩,          -- HW_ADDR_LO
   ⟨0xC08, 0xFFFFFFFF, 0⟩,          -- HW_ADDR_HI
   ⟨0xD08, 0x3, 0⟩,                 -- PERSIST_CTL (R430)
   ⟨0xE08, 0x10, 0⟩,                -- PAIR_CMD.INST (R457)
   ⟨0x1C40, 0xFFFFFFE0, 0⟩,         -- FLT_RING_BASE_LO (R502)
   ⟨0x1C44, 0xFFFFFFFF, 0⟩,         -- FLT_RING_BASE_HI
   ⟨0x1C48, 0x10F, 6⟩,              -- FLT_RING_CFG
   ⟨0x2000, 0x400000FF, 0⟩,         -- UNIT_CMD.UNIT, IE (R516)
   ⟨0x2100, 0xFFFFFFC0, 0⟩,         -- TELEM_BASE_LO (R513)
   ⟨0x2104, 0xFFFFFFFF, 0⟩,         -- TELEM_BASE_HI
   ⟨0x2108, 0xFF010F, 6⟩,           -- TELEM_CFG
   ⟨0x210C, 0xFFFFFFFF, 0⟩,         -- TELEM_PART_LO
   ⟨0x2110, 0xFFFFFFFF, 0⟩]         -- TELEM_PART_HI

/-- The RW registers of a partition page beside the queues' (R555). -/
def partTable : List RwReg :=
  [⟨0x0, 0x1F, 0⟩,                  -- PART_CTL (R180)
   ⟨0x20, 0xFFFFFFFF, 0⟩, ⟨0x24, 0xFFFFFFFF, 0⟩,  -- ADM_SQ_BASE (R184)
   ⟨0x28, 0xFFFFFFFF, 0⟩, ⟨0x2C, 0xFFFFFFFF, 0⟩,  -- ADM_CQ_BASE
   ⟨0x30, 0x1F1F, 0x606⟩,           -- ADM_SIZE
   ⟨0x600, 0xFFFFFC00, 0⟩, ⟨0x604, 0xFFFFFFFF, 0⟩, ⟨0x608, 0x7F, 0⟩]  -- CTX_EXP_BASE, CTX_EXP_CFG (R255)
  ++ (List.range 32).flatMap (fun v =>
       [⟨0x400 + 16 * v, 0xFFFFFFFC, 0⟩, ⟨0x404 + 16 * v, 0xFFFFFFFF, 0⟩, ⟨0x408 + 16 * v, 0xFFFFFFFF, 0⟩,
        ⟨0x40C + 16 * v, 0x1FFFF, 0x10001⟩])                                 -- vector registers (R195)

/-- The row of a table at an offset. -/
def rowAt (t : List RwReg) (off : Nat) : Option RwReg := t.find? (fun r => r.off == off)

/-- A table's reset value at an offset; 0 for an offset it does not hold. -/
def rstOf (t : List RwReg) (off : Nat) : Word := (rowAt t off).elim 0 (fun r => wordOf r.rst)

/-- A register reset by RST_AON_N. -/
def State.aon (s : State) (off : Nat) : Nat := (RegFile.get s.regsAon (rstOf aonTable off) off).toNat

/-- A register reset by RST_BLK_N. -/
def State.blk (s : State) (off : Nat) : Nat := (RegFile.get s.regsBlk (rstOf blkTable off) off).toNat

/-- A register of a partition page. -/
def Partition.reg (p : Partition) (off : Nat) : Nat := (RegFile.get p.regs (rstOf partTable off) off).toNat

/-- The bits that REG_BEN enables (R75). -/
def benMask (ben : BitVec 4) : Word :=
  (if ben.getLsbD 0 then 0xFF#32 else 0) ||| (if ben.getLsbD 1 then 0xFF00#32 else 0)
    ||| (if ben.getLsbD 2 then 0xFF0000#32 else 0) ||| (if ben.getLsbD 3 then 0xFF000000#32 else 0)

/-- REG_BEN enables every byte. -/
def fullBen (ben : BitVec 4) : Bool := ben == 0xF#4

/-- The register after a write: RW bits of enabled bytes take the data (R14, R75). -/
def mergeWord (old : Word) (mask : Nat) (ben : BitVec 4) (data : Word) : Word :=
  let m := benMask ben &&& wordOf mask
  (old &&& ~~~m) ||| (data &&& m)

/-- Set a register reset by RST_AON_N. -/
def State.setAon (s : State) (off : Nat) (w : Word) : State :=
  { s with regsAon := RegFile.set s.regsAon (rstOf aonTable off) off w }

/-- Set a register reset by RST_BLK_N. -/
def State.setBlk (s : State) (off : Nat) (w : Word) : State :=
  { s with regsBlk := RegFile.set s.regsBlk (rstOf blkTable off) off w }

/-- Set a register of a partition page. -/
def Partition.setReg (p : Partition) (off : Nat) (w : Word) : Partition :=
  { p with regs := RegFile.set p.regs (rstOf partTable off) off w }

/-- A write to the RW fields of a register reset by RST_AON_N. -/
def State.rwAon (s : State) (off : Nat) (ben : BitVec 4) (data : Word) : State :=
  match rowAt aonTable off with
  | some r => s.setAon off (mergeWord (wordOf (s.aon off)) r.mask ben data)
  | none => s

/-- A write to the RW fields of a register reset by RST_BLK_N. -/
def State.rwBlk (s : State) (off : Nat) (ben : BitVec 4) (data : Word) : State :=
  match rowAt blkTable off with
  | some r => s.setBlk off (mergeWord (wordOf (s.blk off)) r.mask ben data)
  | none => s

/-- A write to the RW fields of a register of a partition page. -/
def Partition.rw (p : Partition) (off : Nat) (ben : BitVec 4) (data : Word) : Partition :=
  match rowAt partTable off with
  | some r => p.setReg off (mergeWord (wordOf (p.reg off)) r.mask ben data)
  | none => p

end Sys2Proof.Machine
end

