-- ==== Sys2Proof/Machine/Ops.lean ====
section
/-! DEFINITION. The operations that every family shares: identifiers, fault messages, interrupt latches, fabric
commands, modes, units and the power governor's sums (spec/02, 03, 16 and 19). -/

namespace Sys2Proof.Machine

/-- The meaning of every command ends in a next state. -/
abbrev Result := Host.Outcome State Fault Refusal

/-- Take the next identifier. -/
def State.bump (s : State) : State := { s with nextId := s.nextId + 1 }

/-! ### Faults and latches -/

/-- A block sends a fault message (R477); it is under way until it reaches the collector. -/
def State.send (s : State) (src kind addr : Nat) : State :=
  { s with flt := { s.flt with inFlight := s.flt.inFlight ++ [⟨src, kind, addr⟩] } }

/-- A rise of a LEDGER_STAT bit of R546. -/
def State.ledgerRise (s : State) : State :=
  if bitAt (s.blk 0x804) 6 then { s with irq := { s.irq with ledger := true } } else s

/-- A rise of PERSIST_PEND_INFO.VALID or PERSIST_STAT.LOST (R546). -/
def State.persistRise (s : State) : State :=
  if bitAt (s.blk 0xD08) 1 then { s with irq := { s.irq with persist := true } } else s

/-- A rise of a PAIR_STAT bit, INST_CONFLICT or DUAL_ACTIVE (R546). -/
def State.pairRise (s : State) : State :=
  if bitAt (s.aon 0xE00) 1 then { s with irq := { s.irq with pair := true } } else s

/-- Set DB_STAT bits (R475). -/
def State.setDb (s : State) (w : Word) : State := { s with mbx := { s.mbx with dbStat := s.mbx.dbStat ||| w } }

/-- The word with only bit `i` set. -/
def bit32 (i : Nat) : Word := wordOf (2 ^ i)

/-! ### Telemetry counters -/

/-- Count in a GLOBAL field of the telemetry window (R511), by the field's first byte. -/
def State.countG (s : State) (field n : Nat) : State :=
  { s with bg := { s.bg with gCount := Store.put s.bg.gCount field ((Store.find s.bg.gCount field).getD 0 + n) } }

/-- Count in a PART field of the telemetry window (R511). -/
def State.countP (s : State) (part field n : Nat) : State :=
  let k := part * 64 + field
  { s with bg := { s.bg with pCount := Store.put s.bg.pCount k ((Store.find s.bg.pCount k).getD 0 + n) } }

/-! ### Fabric -/

/-- The pieces of a range that no 4 KiB boundary crosses: address, length, offset from the start (R28). -/
def splitAux : Nat → Nat → Nat → Nat → List (Nat × Nat × Nat)
  | 0, _, _, _ => []
  | fuel + 1, addr, len, off =>
    if len = 0 then []
    else
      let n := min len (4096 - addr % 4096)
      (addr, n, off) :: splitAux fuel (addr + n) (len - n) (off + n)

/-- The pieces of `len` bytes from `addr`. -/
def pieces (addr len : Nat) : List (Nat × Nat × Nat) := splitAux (len / 4096 + 2) addr len 0

/-- The port of an address (R28). -/
def portOf (addr : Nat) : Nat := addr / 4096 % 4

/-- The request that a transaction serves. -/
def Purpose.rid : Purpose → Option Nat
  | .srcList r _ | .dstList r _ | .src r _ | .recd r _ | .out r | .tagOut r | .zero r | .exp r => some r
  | .cmpl _ _ r => r
  | _ => none

/-- The queue that a transaction serves: the queue of a fetch or of a completion, or that of the request (R167). -/
def State.queueOf (s : State) (pf : Purpose) : Option Nat :=
  match pf with
  | .fetch _ q _ _ | .cmpl _ q _ => some q
  | _ => (pf.rid.bind (fun r => Store.find s.reqs r)).bind (fun r => if r.owner = .queue then some r.qid else none)

/-- The reads of a range, presented on their ports. -/
def State.readTxns (s : State) (part cls addr len : Nat) (pf : Nat → Purpose) : List Txn :=
  (pieces addr len).map (fun p =>
    { port := portOf p.1, isWrite := false, tag := 0, addr := p.1, len := p.2.1, payload := .bytes [], cls := cls,
      part := part, purpose := pf p.2.2, queue := s.queueOf (pf p.2.2), phase := .presented, got := [] })

/-- The writes of a byte string, presented on their ports. -/
def State.writeTxns (s : State) (part cls addr : Nat) (bs : Bytes) (pf : Purpose) : List Txn :=
  (pieces addr bs.length).map (fun p =>
    { port := portOf p.1, isWrite := true, tag := 0, addr := p.1, len := p.2.1,
      payload := .bytes ((bs.drop p.2.2).take p.2.1), cls := cls, part := part, purpose := pf, queue := s.queueOf pf,
      phase := .presented, got := [] })

/-- Present reads. -/
def State.reads (s : State) (part cls addr len : Nat) (pf : Nat → Purpose) : State :=
  { s with fab := s.fab ++ s.readTxns part cls addr len pf }

/-- Present writes. -/
def State.writes (s : State) (part cls addr : Nat) (bs : Bytes) (pf : Purpose) : State :=
  { s with fab := s.fab ++ s.writeTxns part cls addr bs pf }

/-! ### The signals of a command and of its payload (R59, R61, R63) -/

/-- The 128-byte windows that a transaction covers (R61). -/
def Txn.beats (t : Txn) : Nat := cdiv (t.addr % 128 + t.len) 128

/-- Fn_CMD_ADDR: the first byte of a read, the first window of a write. -/
def Txn.cmdAddr (t : Txn) : Nat := if t.isWrite then t.addr - t.addr % 128 else t.addr

/-- Fn_CMD_BEATS: windows minus one. -/
def Txn.cmdBeats (t : Txn) : Nat := t.beats - 1

/-- Fn_CMD_NBYTES: a read's bytes minus one; 0 for a write. -/
def Txn.cmdNbytes (t : Txn) : Nat := if t.isWrite then 0 else t.len - 1

/-- Byte `i` of a payload. -/
def Payload.byte (p : Payload) (i : Nat) : Byte :=
  match p with
  | .bytes bs => bs.getD i 0
  | .internal key seq sec off _ => Config.sectionByte key seq sec (off + i)

/-- A beat on the write payload channel: Fn_WPL_TAG, the 128 bytes of Fn_WPL_DATA with the enable of each in Fn_WPL_MASK (a
disabled byte is none), and Fn_WPL_END. -/
structure WplBeat where
  tag   : Nat
  data  : List (Option Byte)
  isEnd : Bool
  deriving DecidableEq, Repr

/-- The payload beats of a write in address order: only the bytes that it writes are enabled (R61, R63). -/
def Txn.wplBeats (t : Txn) : List WplBeat :=
  (List.range t.beats).map (fun b =>
    { tag := t.tag
      data := (List.range 128).map (fun k =>
        let i := 128 * b + k
        if t.addr % 128 ≤ i ∧ i < t.addr % 128 + t.len then some (t.payload.byte (i - t.addr % 128)) else none)
      isEnd := b + 1 == t.beats })

/-- The payload beats that a port owes for the writes whose commands have transferred, in the order of those commands: writes of
a port transfer in the order in which they are presented (R63). The port goes on presenting them in the forced safe state and
while RST_BLK_N is low (R58, R89); no command marks the transfer of a beat, so a write's beats stand until it is answered. -/
def State.wpl (s : State) (port : Nat) : List WplBeat :=
  (s.fab.filter (fun t => t.port == port && t.isWrite && t.phase == .issued)).flatMap Txn.wplBeats

/-- A transaction counts as outstanding; held tags do not once RST_BLK_N is low (R58, R544). -/
def Txn.counts (t : Txn) (blkRel : Bool) : Bool := blkRel || t.phase != .held

/-- FAB_IDLE (R83, R544). -/
def State.fabIdle (s : State) : Bool := s.fab.all (fun t => !(t.counts s.pins.blkRel))

/-- No transaction that serves the request is outstanding. -/
def State.noTxn (s : State) (rid : Nat) : Bool := s.fab.all (fun t => t.purpose.rid != some rid || t.phase == .held)

/-! ### Modes -/

/-- Change MODE; a change sets CHG (R93). -/
def State.setMode (s : State) (m : Mode) : State :=
  if s.mode.mode = m then s else { s with mode := { s.mode with mode := m, chg := true } }

/-- Queues are served (R169). -/
def State.serving (s : State) : Bool := s.mode.mode == .service || s.mode.mode == .maintenance

/-- SERVICE, MAINTENANCE or DRAIN: taps may be active (R318). -/
def State.sealing (s : State) : Bool := s.serving || s.mode.mode == .drain

/-- SERVICE, MAINTENANCE, DRAIN or FOLLOWER. -/
def State.running (s : State) : Bool := s.sealing || s.mode.mode == .follower

/-- TARGET names a mode that MODE is not in: the MAINTENANCE exit has begun (R96). -/
def State.leaving (s : State) : Bool := s.mode.target != .maintenance

/-! ### Units -/

/-- A unit; a number that names no unit reads as a unit in reset. -/
def State.unit (s : State) (u : Nat) : UnitSt := (Store.find s.units u).getD UnitSt.reset

/-- Change a unit. -/
def State.updUnit (s : State) (u : Nat) (f : UnitSt → UnitSt) : State := { s with units := Store.upd s.units u f }

/-- The kind of a unit's number (R480); a sap tap has none. -/
def kindOf (u : Nat) : Option UnitKind :=
  if u < 0x18 then some .cipher
  else if 0x20 ≤ u ∧ u < 0x30 then some .digest
  else if 0x30 ≤ u ∧ u < 0x38 then some .cluster
  else none

/-- The units of a kind in ascending order. -/
def unitsOf : UnitKind → List Nat
  | .cipher => List.range 24
  | .digest => (List.range 16).map (0x20 + ·)
  | .cluster => (List.range 8).map (0x30 + ·)

/-- Every lane and cluster. -/
def allUnits : List Nat := unitsOf .cipher ++ unitsOf .digest ++ unitsOf .cluster

/-- The tap with a number. -/
def tapUnit (n : Nat) : Nat := 0x70 + n

def kindIdx : UnitKind → Nat
  | .cipher => 0 | .digest => 1 | .cluster => 2

/-- The unit is in service: tested, not fenced, no fence pending. -/
def UnitSt.inService (u : UnitSt) : Bool := u.passed && !u.fltFence && !u.testFence && !u.fencePend

/-- The unit is in service and carries nothing (R200: gated units count as free). -/
def UnitSt.free (u : UnitSt) : Bool := u.inService && u.work == .idle

/-! ### The end of MAINTENANCE (R96, R474, R520) -/

/-- A unit returns to service: gated, its key register empty (R519). -/
def UnitSt.unfence (u : UnitSt) : UnitSt := { u with testFence := false, testFail := false, key := none, power := .gated, charge := none, work := .idle }

/-- Units fenced for test whose last TEST did not fail are unfenced; a pending FENCE is withdrawn; partial patch staging is
abandoned. -/
def State.endMaintenance (s : State) : State :=
  { s with
    units := Store.mapAll s.units (fun _ u =>
      let v := { u with fencePend := false }
      if v.testFence && !v.testFail then v.unfence else v)
    bg := { s.bg with unitBusy := match s.bg.unitBusy with
      | some (1, _) => none
      | o => o }
    mbx := { s.mbx with staging := none } }

/-- DRAIN begins (R94, R97). -/
def State.startDrain (s : State) : State :=
  let t := s.setMode .drain
  { t with mode := { t.mode with drainStart := s.now, drainForced := false } }

/-- A maintenance activity is in progress (R96). -/
def State.maintBusy (s : State) : Bool :=
  s.hw.op.isSome || s.ledger.purge.isSome || (match s.bg.unitBusy with | some (2, _) => true | _ => false)

/-- MAINTENANCE is left once no activity is in progress (R94, R96). -/
def State.tryLeave (s : State) : State :=
  if s.mode.mode != .maintenance || !s.leaving || s.maintBusy then s
  else if s.mode.target = .service then s.endMaintenance.setMode .service
  else s.endMaintenance.startDrain

/-! ### The power governor (R114 to R122) -/

/-- The reservation of a unit kind at an operating point (R114); POINT 0b11 is treated as 0b00 (R49). -/
def resv (point : Nat) : UnitKind → Nat
  | .cipher => if point = 2 then 475 else if point = 1 then 270 else 115
  | .digest => if point = 2 then 180 else if point = 1 then 100 else 45
  | .cluster => if point = 2 then 420 else if point = 1 then 240 else 105

/-- The base reservation (R114). -/
def baseResv (point : Nat) : Nat := if point = 2 then 400 else if point = 1 then 300 else 200

/-- The reservation of a unit. -/
def State.unitResv (s : State) (u : Nat) : Nat := (kindOf u).elim 0 (resv s.mode.active)

/-- The bound streams; each holds one digest lane's reservation (R115). -/
def State.boundStreams (s : State) : List (Nat × Stream) := s.seals.streams.filter (fun p => p.2.bound)

/-- GOV_USED.USED_MW (R128): the base outside DORMANT, each clock-enabled unit and each bound stream. -/
def State.usedMw (s : State) : Nat :=
  if s.mode.mode = .dormant ∨ s.mode.mode = .inReset then 0
  else
    baseResv s.mode.active
      + (s.units.map (fun p => if p.2.power = .gated then 0 else s.unitResv p.1)).sum
      + s.boundStreams.length * resv s.mode.active .digest

/-- A partition's charge (R115). -/
def State.chargeMw (s : State) (part : Nat) : Nat :=
  (s.units.map (fun p => if p.2.charge = some part then s.unitResv p.1 else 0)).sum
    + (s.boundStreams.filter (fun p => p.2.part == part)).length * resv s.mode.active .digest

/-- The sum of all power shares; in DORMANT and WAKING the partitions stand in the retained state image (R106, R122). -/
def State.shares (s : State) : Nat :=
  (s.parts.map (fun p => p.2.assign.shareMw)).sum + (s.retained.elim [] (·.parts)).foldl (fun n p => n + p.2.assign.shareMw) 0

/-- A partition's power share. -/
def State.shareOf (s : State) (part : Nat) : Nat := (Store.find s.parts part).elim 0 (fun p => p.assign.shareMw)

/-- GOV_USED.BORROW_MW (R117, R128). -/
def State.borrowMw (s : State) : Nat := (s.parts.map (fun p => s.chargeMw p.1 - p.2.assign.shareMw)).sum

/-- GOV_BUDGET.MW (R124). -/
def State.budgetMw (s : State) : Nat := s.aon 0x200

/-- GOV_NEG.HIGH_MW (R126). -/
def State.highMw (s : State) : Nat := s.aon 0x208 % 0x10000

/-- The effective budget (R117, R121). -/
def State.effBudget (s : State) : Nat := if s.gov.high then s.highMw else s.budgetMw

/-- The pool under a budget (R117). -/
def State.pool (s : State) (budget : Nat) : Nat := budget - baseResv s.mode.active - s.shares

/-- What a grant adds to GOV_USED: the reservations of its gated units. -/
def State.addMw (s : State) (us : List Nat) : Nat :=
  (us.map (fun u => if (s.unit u).power = .gated then s.unitResv u else 0)).sum

/-- The power condition of R117 under a budget. -/
def State.powerOk (s : State) (budget add : Nat) : Bool := decide (s.usedMw + add ≤ budget)

/-- The grant falls within its partition's share (group 1 of R119). -/
def State.withinShare (s : State) (part charge : Nat) : Bool := decide (s.chargeMw part + charge ≤ s.shareOf part)

/-- The share condition of R117 under a budget. -/
def State.shareOk (s : State) (budget part charge : Nat) : Bool :=
  s.withinShare part charge ||
    decide (s.borrowMw + ((s.chargeMw part + charge - s.shareOf part) - (s.chargeMw part - s.shareOf part))
      ≤ s.pool budget)

/-- A grant may be issued under a budget (R117); one that no partition is charged for meets the power condition only
(R119). A grant that adds nothing to GOV_USED still meets both, to the letter of R117 (log entry 20). -/
def State.grantable (s : State) (budget : Nat) (us : List Nat) (part : Option Nat) (charge : Nat) : Bool :=
  s.powerOk budget (s.addMw us) && part.elim true (fun p => s.shareOk budget p charge)

/-- The charge of holding units (R115). -/
def State.chargeFor (s : State) (us : List Nat) : Nat := (us.map s.unitResv).sum

/-- Gate a unit: its clock stops, its key register stays (R118). -/
def UnitSt.gate (u : UnitSt) : UnitSt := { u with power := .gated, charge := none }

/-- The awake idle unit that has been idle longest (R118). -/
def State.longestIdle (s : State) : Option Nat :=
  (s.units.foldl (fun (best : Option (Nat × Nat)) p =>
    if p.2.power = .awake ∧ p.2.work = .idle ∧ (kindOf p.1).isSome then
      match best with
      | some b => if p.2.idleSince < b.2 then some (p.1, p.2.idleSince) else best
      | none => some (p.1, p.2.idleSince)
    else best) none).map (·.1)

/-- Gate idle units, longest idle first, until the addition fits the budget or none is left (R118); units named by
the grant itself are kept. -/
def State.gateFor (s : State) (budget : Nat) (us : List Nat) : Nat → State
  | 0 => s
  | fuel + 1 =>
    if s.powerOk budget (s.addMw us) then s
    else
      match s.units.foldl (fun (best : Option (Nat × Nat)) p =>
          if p.2.power = .awake ∧ p.2.work = .idle ∧ (kindOf p.1).isSome ∧ p.1 ∉ us then
            match best with
            | some b => if p.2.idleSince < b.2 then some (p.1, p.2.idleSince) else best
            | none => some (p.1, p.2.idleSince)
          else best) none with
      | some b => State.gateFor (s.updUnit b.1 UnitSt.gate) budget us fuel
      | none => s

/-- A unit ends its work: idle, uncharged (R115), a cluster wiped (R366). -/
def State.freeUnit (s : State) (u : Nat) : State :=
  let t := s.updUnit u (fun x =>
    { x with work := .idle, charge := none, idleSince := s.nextId, tiles := [], acc := 0, roles := [], seqr := [], hash := []
             key := if kindOf u = some .cluster then none else x.key })
  t.bump

/-- Units end their work. -/
def State.freeUnits (s : State) (us : List Nat) : State := us.foldl State.freeUnit s

/-- Erase a unit's key register (R414, R485). -/
def UnitSt.eraseKey (u : UnitSt) : UnitSt := { u with key := none, tiles := [], acc := 0, roles := [], seqr := [], hash := [] }

/-- Mark every working copy of a global slot stale (R25). -/
def State.markStale (s : State) (g : Nat) : State :=
  { s with units := Store.mapAll s.units (fun _ u =>
      match u.key with
      | some k => if k.slot = g then { u with key := some { k with stale := true } } else u
      | none => u) }

/-! ### Partitions, queues and requests -/

/-- A partition. -/
def State.part (s : State) (p : Nat) : Option Partition := Store.find s.parts p

/-- Change a partition. -/
def State.updPart (s : State) (p : Nat) (f : Partition → Partition) : State := { s with parts := Store.upd s.parts p f }

/-- A queue. -/
def State.queue (s : State) (p q : Nat) : Option Queue := (s.part p).bind (fun x => Store.find x.queues q)

/-- Change a queue. -/
def State.updQueue (s : State) (p q : Nat) (f : Queue → Queue) : State :=
  s.updPart p (fun x => { x with queues := Store.upd x.queues q f })

/-- A request. -/
def State.req (s : State) (rid : Nat) : Option Req := Store.find s.reqs rid

/-- Change a request. -/
def State.updReq (s : State) (rid : Nat) (f : Req → Req) : State := { s with reqs := Store.upd s.reqs rid f }

/-- Put a request in a phase. -/
def State.setPhase (s : State) (rid : Nat) (ph : ReqPhase) : State := s.updReq rid (fun r => { r with phase := ph })

/-- Ring sizes (R129). -/
def Queue.sqN (q : Queue) : Nat := 2 ^ q.cfg.sqLog2
def Queue.cqN (q : Queue) : Nat := 2 ^ q.cfg.cqLog2

/-- Occupancy of a ring of N from linear indices (R130). -/
def occ (n tail head : Nat) : Nat := (tail + 2 * n - head) % (2 * n)

/-- Completion credits (R158). -/
def Queue.credits (q : Queue) : Nat := q.cqN - occ q.cqN q.cqTail q.cqHead - q.reserved

/-- The requests of a queue that are admitted and not yet completed. -/
def State.queueReqs (s : State) (p q : Nat) : List (Nat × Req) :=
  s.reqs.filter (fun r => r.2.owner == .queue && r.2.part == p && r.2.qid == q)

/-- Q_STAT.IDLE (R167). A read of a request that has ended early holds it back like any other transaction; a held tag, whose
transaction has failed (R70), does not (log entry 23). -/
def State.queueIdle (s : State) (p q : Nat) : Bool :=
  match s.queue p q with
  | none => false
  | some x =>
    !x.en && (s.queueReqs p q).isEmpty && x.reserved == 0
      && s.fab.all (fun t => t.phase == .held || !(t.part == p && t.queue == some q))

/-- The staging tiles of the shared pool: 65,536 less 128 for each partition's result FIFO, less retired ones (R226). -/
def State.stagingPool (s : State) : Nat :=
  65536 - 128 * s.parts.length - (s.bg.retired.filter (fun r => r.1 == .staging)).length

/-- The staging tiles in use, of all partitions and of one. -/
def State.stagingUsed (s : State) : Nat := (s.reqs.map (fun r => r.2.staging)).sum
def State.stagingOf (s : State) (p : Nat) : Nat :=
  ((s.reqs.filter (fun r => r.2.part == p)).map (fun r => r.2.staging)).sum

/-- The context tiles that a partition holds, CTX_STAT.TILES (R255). -/
def State.ctxTilesOf (s : State) (p : Nat) : Nat :=
  ((s.reqs.filter (fun r => r.2.part == p)).map (fun r => r.2.ctxTiles)).sum

/-- The context tiles that the store still has free (R250, R506). -/
def State.ctxFree (s : State) : Nat :=
  192 - (s.bg.retired.filter (fun r => r.1 == .context)).length - (s.reqs.map (fun r => r.2.ctxTiles)).sum

/-! ### Changes that an image carries (R420, R421) -/

/-- Add an element to a duplicate-free list. -/
def addMem (l : List Nat) (n : Nat) : List Nat := if n ∈ l then l else l ++ [n]

/-- A section's content has changed: it differs from both banks' last acknowledged and last written content, and an
image is due (R420, R421). -/
def State.dirty (s : State) (sec : Nat) : State :=
  { s with persist := { s.persist with
      dirtyA := addMem s.persist.dirtyA sec, dirtyB := addMem s.persist.dirtyB sec
      writeA := addMem s.persist.writeA sec, writeB := addMem s.persist.writeB sec, change := true } }

/-- A sent graft is a LEASE graft. -/
def GraftBody.isLease : GraftBody → Bool
  | .lease _ _ => true
  | _ => false

/-- A sent graft carries no change of its own: a snapshot, its end, or the handover. -/
def GraftBody.isSync : GraftBody → Bool
  | .snap | .snapEnd | .handover => true
  | _ => false

/-- Grafts cross the link from RESYNC on: in RESYNC they follow the snapshot in GSEQ order (R443, R450). -/
def State.session (s : State) : Bool := s.pair.link == .resync || s.pair.link == .synced

/-- Send a graft; otherwise the change waits for the next resynchronisation (R444, R446, R448). -/
def State.graft (s : State) (b : GraftBody) : State :=
  if !s.pair.ident.paired then s
  else if s.session then
    { s with pair := { s.pair with txSeq := s.pair.txSeq + 1, sent := s.pair.sent ++ [(s.pair.txSeq + 1, b)] } }
  else { s with pair := { s.pair with backlog := satAdd 0xFFFF s.pair.backlog 1 } }

/-- A graft that only an active instance outside DUAL_ACTIVE sends (R444, R451). -/
def State.cfgGraft (s : State) (b : GraftBody) : State :=
  if s.pair.dualActive ∨ s.mode.mode = .follower then s else s.graft b

/-- The GSEQ of the graft just sent, when the link is SYNCED and the instance sends configuration (R447). -/
def State.lastGraft (s : State) : Option Nat :=
  if s.pair.ident.paired ∧ s.pair.link = .synced ∧ ¬ s.pair.dualActive ∧ s.mode.mode ≠ .follower
  then some s.pair.txSeq else none

/-- The SEQ of the first image that will carry a change made now: the next one to be started. -/
def State.nextSeq (s : State) : Nat := s.persist.lastSeq + 1

/-! ### Virtual times (R199) -/

/-- A virtual time of a list by unit kind. -/
def vtOf (l : List (Nat × Nat)) (k : UnitKind) : Nat × Nat := l.getD (kindIdx k) (0, 1)

/-- Add cycles divided by a weight. -/
def vtAdd (v : Nat × Nat) (cycles weight : Nat) : Nat × Nat :=
  let n := v.1 * weight + cycles * v.2
  let d := v.2 * weight
  let g := Nat.gcd n d
  (n / g, d / g)

/-- One virtual time lies below another. -/
def vtLt (a b : Nat × Nat) : Bool := decide (a.1 * b.2 < b.1 * a.2)

/-- Set a kind's virtual time. -/
def vtSet (l : List (Nat × Nat)) (k : UnitKind) (v : Nat × Nat) : List (Nat × Nat) :=
  (List.range 3).map (fun i => if i = kindIdx k then v else l.getD i (0, 1))

end Sys2Proof.Machine
end

