-- ==== Sys2Proof/Machine/Clock.lean ====
section
/-! DEFINITION. What happens at a CLK_AON cycle in which no command waits (spec/10 R339; log entry 2). -/

namespace Sys2Proof.Machine

/-- One cycle of CLK_AON: SEAL_TIME advances by 10^5 / AON_FREQ ns, the fraction carried forward (R339). AON_FREQ 0 lies
outside R44; the counter then stands. -/
def tick (s : State) : State :=
  if !s.pins.aonRel ∨ s.pins.aonFreq = 0 then s
  else
    let n := 100000 + s.time.frac
    let d := n / s.pins.aonFreq
    { s with time := { s.time with ns := (s.time.ns + d) % 2 ^ 64, frac := n % s.pins.aonFreq }, now := s.now + d }

end Sys2Proof.Machine
end

