-- ==== Sys2Proof/Machine/Flags.lean ====
section
/-! DEFINITION. Every status and flag that the spec computes from other state: GLB_IRQ_SUM and GLB_IRQ, ERR_OUT_N, PEND,
the log's bits, the fence masks, pool counts and page-wide summaries (spec/16, 19 and 20). -/

namespace Sys2Proof.Machine

/-- The word whose bit i is set for each i of a list below 32. -/
def maskOf (l : List Nat) : Nat := (l.map (fun i => if i < 32 then 2 ^ i else 0)).sum

/-- The numbers below n that satisfy a test, as a mask. -/
def maskBy (n : Nat) (f : Nat → Bool) : Nat := maskOf ((List.range n).filter f)

/-- MODE_STAT.PEND: TARGET names a mode that Pleod has not yet reached (R93). -/
def State.pend (s : State) : Bool :=
  s.mode.mode != .inReset &&
  match s.mode.target with
  | .service => s.mode.mode != .service
  | .dormant => s.mode.mode != .dormant
  | .drain => s.mode.mode != .drain
  | .maintenance => s.mode.mode != .maintenance
  | .follower => s.mode.mode != .follower

/-- ERR_OUT_N is asserted (R482). -/
def State.errOut (s : State) : Bool := !s.mode.served || s.mode.safe || s.flt.errLatch

/-- In DORMANT, WAKING and while RST_BLK_N is low only the always-on registers respond (R77, R547). -/
def State.aonOnly (s : State) : Bool := !s.pins.blkRel || s.mode.mode == .dormant || s.mode.mode == .waking

/-- The Ralder link transmits the fault symbol (R438): in the forced safe state and in QUARANTINE, test included, but not in a
QUARANTINE entered from DORMANT, in which the core stays isolated (R89, R113); an instance with RLK_PHY_RDY low sends 0 (R82). -/
def State.txFault (s : State) : Bool :=
  s.pins.phyRdy && s.pins.blkRel && (s.mode.safe || s.mode.mode == .quarantine) && !s.pins.coreIso

/-- The forced safe state or QUARANTINE as the register port sees it (R77, R490). -/
def State.safePort (s : State) : Bool := s.mode.safe || s.mode.mode == .quarantine || s.mode.mode == .test

/-- GLB_IRQ_SUM (R546, R547). -/
def State.irqSum (s : State) : Nat :=
  let up := !s.aonOnly
  b2n (s.mode.chg && s.mode.chgIe)
  + 2 * b2n (up && (s.pm.done || s.pm.rej) && bitAt (s.blk 0x400) 16)
  + 4 * b2n s.irq.ledger
  + 8 * b2n (up && (s.ledger.purgeDone || s.ledger.purgeRej) && bitAt (s.blk 0x80C) 1)
  + 16 * b2n (up && (s.rng.rctFail || s.rng.aptFail) && bitAt (s.blk 0xB00) 5)
  + 32 * b2n (up && (s.hw.done || s.hw.rej) && bitAt (s.blk 0xC00) 30)
  + 64 * b2n s.irq.persist
  + 128 * b2n s.irq.pair
  + 256 * b2n ((s.mbx.dbStat &&& ~~~(wordOf (s.aon 0x1404))) != 0)
  + 512 * b2n ((s.flt.new || s.flt.drop || s.flt.ringLost || s.flt.dbErr) && bitAt (s.aon 0x1C00) 0)
  + 1024 * b2n (up && (s.bg.unitDone || s.bg.unitRej) && bitAt (s.blk 0x2000) 30)
  + 2048 * b2n (up && s.parts.any (fun p => p.2.intrErr))

/-- GLB_IRQ (R83, R547): held while CLK_FAB is stopped. -/
def State.glbIrq (s : State) : Bool := if s.pins.fabClk then s.irqSum != 0 else s.pins.irqHeld

/-- MODE_STAT (R93). -/
def State.modeStat (s : State) : Nat :=
  s.mode.mode.code + 0x10 * s.mode.stage + 0x100 * b2n s.pend + 0x200 * b2n s.mode.fresh
  + 0x400 * b2n s.mode.warmFail + 0x800 * b2n s.mode.chg + 0x1000 * b2n s.mode.drainExp
  + 0x2000 * b2n s.mode.badReq + 0x4000 * b2n s.rng.ready

/-- PIN_STAT (R540). -/
def State.pinStat (s : State) : Nat :=
  s.pins.aonFreq % 0x2000 + 0x2000 * (s.pins.opptBoot % 4) + 0x10000 * b2n s.pins.corePwrGood
  + 0x20000 * b2n s.pins.coreIso + 0x40000 * b2n s.pins.pwrReq + 0x80000 * b2n s.pins.pwrGnt
  + 0x100000 * b2n s.pins.rootKeyVld + 0x200000 * b2n s.pins.rootKeyAck + 0x400000 * b2n s.fabIdle
  + 0x800000 * b2n s.pins.phyRdy

/-- FLT_STAT (R499). -/
def State.fltStat (s : State) : Nat :=
  b2n s.flt.new + 2 * b2n s.flt.errLatch + 4 * b2n (s.flt.log.any (fun e => e.2.fatal))
  + 8 * b2n ((List.range 56).all (fun k => (Store.find s.flt.log k).isSome))
  + 0x10 * b2n s.flt.drop + 0x20 * b2n s.flt.ringLost + 0x40 * b2n s.flt.dbErr
  + 0x100 * s.flt.log.length + 0x10000 * s.flt.lastSrc + 0x1000000 * s.flt.lastKind

/-- The 32 bytes of a log entry in the layout of R496, with its phase and loss counts. -/
def LogEntry.record (e : LogEntry) (phase : Bool) (drops lost : Nat) : Bytes :=
  [byteOf e.msg.src, byteOf (e.msg.kind + 0x10 * b2n e.fatal + 0x20 * b2n e.sat + 0x80 * b2n phase)]
  ++ leBytes 2 e.count ++ leBytes 2 (min drops 0xFFFF) ++ leBytes 2 (min lost 0xFFFF)
  ++ leBytes 8 e.msg.addr ++ leBytes 8 e.first ++ leBytes 8 e.last

/-- FLT_LOG_DATAj (R501). -/
def State.logWord (s : State) (j : Nat) : Nat :=
  match Store.find s.flt.log (s.aon 0x1C10 % 64) with
  | some e => leNat (slice (e.record false 0 0) (4 * j) 4)
  | none => 0

/-- Units fenced by a fault or for test, as FLT_FENCE and UNIT_FENCE report them (R503, R516). -/
def State.fenceMask (s : State) (f : UnitSt → Bool) (n : Nat) : Nat :=
  if n = 0 then maskBy 24 (fun k => f (s.unit k))
  else if n = 1 then maskBy 16 (fun k => f (s.unit (0x20 + k))) + 0x10000 * maskBy 8 (fun k => f (s.unit (0x30 + k)))
  else maskBy 16 (fun k => f (s.unit (0x70 + k)))

/-- A tap is active (R318). -/
def State.tapActive (s : State) (n : Nat) : Bool :=
  s.sealing && !s.mode.safe && (s.boundStreams.any (fun p => p.2.tap == n))
    && !(s.unit (tapUnit n)).fltFence && !(s.unit (tapUnit n)).testFence

/-- The groves formed and not yet dissolved (R248); one that has shed every lane but its trunk, and a grove request resumed on one lane,
hold no grove of two lanes and do not count (log entry 30). -/
def State.groves (s : State) : List (Nat × Req) :=
  s.reqs.filter (fun r => decide (2 ≤ r.2.g0 ∧ 2 ≤ r.2.units.length) && r.2.phase != .waking && r.2.phase != .forming)

/-- Sums over partitions of an assignment (R176). -/
def State.assigned (s : State) (f : Assign → Nat) : Nat := (s.parts.map (fun p => f p.2.assign)).sum

/-- Secret tiles in use, of all partitions and of one (R395). -/
def State.stilesUsed (s : State) : Nat :=
  (s.hw.slots.map (fun p => p.2.tiles.length)).sum + (s.reqs.map (fun r => r.2.tiles)).sum
def State.stilesOf (s : State) (p : Nat) : Nat :=
  ((s.hw.slots.filter (fun x => x.2.part == p)).map (fun x => x.2.tiles.length)).sum
    + ((s.reqs.filter (fun r => r.2.part == p)).map (fun r => r.2.tiles)).sum
def State.stilesFree (s : State) : Nat := 512 - s.stilesUsed - s.hw.retiredTiles.length

/-- Q_STAT's error bits of a queue (R165, R559). -/
def Queue.anyErr (q : Queue) : Bool := q.fetchErr || q.cmplErr || q.dbErr || q.invalErr || q.pushRej

/-- Position and lap of a linear index as registers show them: position in [15:0], lap in [16] (R130). -/
def posLap (n v : Nat) : Nat := v % n + 0x10000 * (v / n % 2)

/-- Q_STAT (R165). -/
def State.qStat (s : State) (p q : Nat) : Nat :=
  match s.queue p q with
  | some x =>
    b2n (s.queueIdle p q) + 2 * b2n x.fetchErr + 4 * b2n x.cmplErr + 8 * b2n x.dbErr + 0x10 * b2n x.invalErr
    + 0x20 * b2n x.pushRej + 0x8000 * (x.inv / x.sqN % 2) + 0x10000 * (x.inv % x.sqN)
  | none => 0

/-- AVAIL: committed words that run without a break from the read position (R388). -/
def availAux : List Region → Nat → Nat
  | [], _ => 0
  | r :: rs, rd =>
    if r.start + r.len ≤ rd then availAux rs rd
    else if r.owner.isSome then 0
    else (r.start + r.len - max rd r.start) + availAux rs (r.start + r.len)

def ResultFifo.avail (f : ResultFifo) : Nat := availAux f.regions f.rd

/-- FREE: 2048 less the held words (R387). -/
def ResultFifo.free (f : ResultFifo) : Nat := 2048 - (f.tail - f.release)

/-- A gap is open: it opens at the first unsealed frame, though frames ahead of it are still to be resolved (R333). -/
def Stream.gapOpen (x : Stream) : Bool := x.gap.isSome || x.frames.any (fun f => f.reason.isSome)

/-- SEAL_STAT of a stream for the partition that bound it (R343). -/
def Stream.stat (x : Stream) : Nat :=
  1 + 2 * b2n x.gapOpen + 4 * b2n x.wrErr.isSome + 8 * b2n x.closing.isSome + 0x10 * b2n x.dbErr
  + 0x10000 * min x.gaps 0xFFFF

/-- The stream as its partition's page sees it (R343). -/
def State.streamOf (s : State) (part n : Nat) : Option Stream :=
  (Store.find s.seals.streams n).bind (fun x => if x.bound && x.part == part then some x else none)

/-- SEAL_POOL.BUF_FREE in 64 KiB units (R341). -/
def State.bufFree (s : State) : Nat := 64 - (s.seals.streams.map (fun p => p.2.buf64k)).sum

end Sys2Proof.Machine
end

