-- ==== Sys2Proof/Machine/Access.lean ====
section
/-! DEFINITION. Which registers exist, which respond in each mode, and which writes are refused with REG_ERR
(spec/02 R73 to R77, spec/16 R490, spec/19 R549, R552, spec/20 R555, R560). -/

namespace Sys2Proof.Machine

/-- The offset names a register of an arithmetic family. -/
def inRow (off base step n : Nat) : Bool :=
  decide (base ≤ off) && (off - base) % step == 0 && decide ((off - base) / step < n)

/-- The global registers that respond as those of the always-on island (R552), HW_STAT among them (R549). -/
def isAonReg (off : Nat) : Bool :=
  inRow off 0x0 4 3 || off == 0x10 || inRow off 0x20 4 2 || off == 0x40 || inRow off 0x100 4 4 || inRow off 0x200 4 3
    || off == 0x300 || off == 0x800 || inRow off 0xA00 4 2 || inRow off 0xA40 4 16 || off == 0xB10 || inRow off 0xB20 4 3
    || off == 0xC0C || off == 0xC10 || inRow off 0xD00 4 2 || off == 0xD0C || inRow off 0xE00 4 2
    || (decide (0x1000 ≤ off ∧ off < 0x1400) && off % 4 == 0 && decide (off % 0x80 ≤ 0x44))
    || inRow off 0x1400 4 4 || (decide (0x1800 ≤ off ∧ off < 0x1C00) && off % 4 == 0 && sources.contains ((off - 0x1800) / 4))
    || inRow off 0x1C00 4 16 || inRow off 0x2030 4 2

/-- The registers that respond in the forced safe state and in QUARANTINE (R490). -/
def isSafeReg (off : Nat) : Bool :=
  [0x0, 0x104, 0xC0C, 0x1C00, 0x1C04, 0x1C08, 0x1C0C, 0x1C10, 0x1C14, 0x1C18, 0x1C1C].contains off
    || inRow off 0x1C20 4 8
    || (decide (0x1800 ≤ off ∧ off < 0x1C00) && off % 4 == 0 && sources.contains ((off - 0x1800) / 4))

/-- The partition of a page offset and the offset within its page. -/
def pageOf (off : Nat) : Nat := (off - 0x10000) / 0x4000
def pageOff (off : Nat) : Nat := (off - 0x10000) % 0x4000

/-- The access gets REG_ERR and has no effect: the cases of R77, each with its own exception. -/
def State.portErr (s : State) (priv isRead : Bool) (off : Nat) : Bool :=
  let glob := decide (off < 0x10000)
  (glob && !priv && !(isRead && off == 0))
    || (s.aonOnly && !(isAonReg off))
    || (s.safePort && !(isSafeReg off))
    || (s.mode.mode == .attest && !glob)
    || (decide (0x10000 ≤ off ∧ off < 0x110000) && (s.part (pageOf off)).isNone)

/-- Global registers that hold a W1C field: a write needs every byte enabled (R75). -/
def isW1c (off : Nat) : Bool :=
  [0x10, 0x14, 0x18, 0x30, 0x104, 0x20C, 0x420, 0x804, 0x80C, 0xA08, 0xB00, 0xB14, 0xC0C, 0xD24, 0xE14, 0x1400, 0x1C08,
   0x2004, 0x211C].contains off || inRow off 0x1044 0x80 8

/-- Partition-page registers that hold a W1C field (R75). -/
def isPartW1c (off : Nat) : Bool := [0x4, 0x60C, 0xC08].contains off

/-- The outcome of a write at the port: REG_ERR as given. -/
def State.wrote (s : State) (err : Bool) : State := { s with port := ⟨0, err⟩ }

/-- The outcome of a read at the port. -/
def State.readOut (s : State) (v : Nat) (err : Bool) : State := { s with port := ⟨wordOf v, err⟩ }

/-- A write to a register: ignored while CLK_FAB stands, refused under R77 or for its byte enables, otherwise done. While RST_AON_N
is low the always-on registers respond and stay in reset, so a write of one changes nothing (log entry 7). -/
def State.portWrite (s : State) (priv : Bool) (off : Nat) (ben : BitVec 4) (needAll : Bool) (f : State → State) : State :=
  if !s.pins.fabClk then s
  else if s.portErr priv false off then s.wrote true
  else if needAll && !(fullBen ben) then s.wrote true
  else if !s.pins.aonRel then s.wrote false
  else (f s).wrote false

end Sys2Proof.Machine
end

