-- ==== Sys2Proof/Machine/Aes.lean ====
section
/-! DEFINITION. AES (FIPS 197) and its modes as spec/06 R204 and spec/13 name them: ECB, CBC, CTR, GCM, CCM, XTS, CMAC,
GMAC, the key wraps of SP 800-38F and the SP 800-108 derivation; and ChaCha20-Poly1305 (RFC 8439). The arithmetic follows
the standards that the rules name (log entry 15). -/

namespace Sys2Proof.Machine

/-! ### The field and the S-box -/

/-- Double in GF(2^8). -/
def xtime (a : Nat) : Nat := if 128 ≤ a then (2 * a) ^^^ 0x11b else 2 * a

/-- Multiply in GF(2^8). -/
def gmulAux : Nat → Nat → Nat → Nat
  | 0, _, _ => 0
  | n + 1, a, b => (if b % 2 = 1 then a else 0) ^^^ gmulAux n (xtime a) (b / 2)

def gmul (a b : Nat) : Nat := gmulAux 8 a b

/-- The inverse, a^254; 0 for 0. -/
def ginv (a : Nat) : Nat :=
  let a2 := gmul a a
  let a4 := gmul a2 a2
  let a8 := gmul a4 a4
  let a16 := gmul a8 a8
  let a32 := gmul a16 a16
  let a64 := gmul a32 a32
  let a128 := gmul a64 a64
  gmul a2 (gmul a4 (gmul a8 (gmul a16 (gmul a32 (gmul a64 a128)))))

def rotl8 (x n : Nat) : Nat := (x * 2 ^ n + x / 2 ^ (8 - n)) % 256

/-- The S-box entry of a byte. -/
def sboxOf (a : Nat) : Nat :=
  let b := ginv a
  b ^^^ rotl8 b 1 ^^^ rotl8 b 2 ^^^ rotl8 b 3 ^^^ rotl8 b 4 ^^^ 0x63

/-- The inverse S-box entry of a byte. -/
def invSboxOf (a : Nat) : Nat := ginv (rotl8 a 1 ^^^ rotl8 a 3 ^^^ rotl8 a 6 ^^^ 0x05)

def sboxTable : Array Nat := ((List.range 256).map sboxOf).toArray
def invSboxTable : Array Nat := ((List.range 256).map invSboxOf).toArray
def sbox (a : Nat) : Nat := sboxTable.getD a 0
def invSbox (a : Nat) : Nat := invSboxTable.getD a 0

/-! ### The cipher, on sixteen numbers below 256 -/

/-- The key schedule: words made so far, newest last. -/
def aesExpandAux (nk : Nat) : Nat → Nat → Nat → List (List Nat) → List (List Nat)
  | 0, _, _, ws => ws
  | n + 1, i, rc, ws =>
    let prev := ws.getD (i - 1) []
    let back := ws.getD (i - nk) []
    let t :=
      if i % nk = 0 then
        match prev.map sbox with
        | [a, b, c, d] => [b ^^^ rc, c, d, a]
        | _ => []
      else if 6 < nk ∧ i % nk = 4 then prev.map sbox
      else prev
    aesExpandAux nk n (i + 1) (if i % nk = 0 then xtime rc else rc) (ws ++ [List.zipWith (· ^^^ ·) back t])

/-- The round keys, sixteen bytes each. -/
def aesKeys (key : Bytes) : List (List Nat) :=
  let k := key.map BitVec.toNat
  let nk := key.length / 4
  let ws := (List.range nk).map (fun i => (k.drop (4 * i)).take 4)
  let all := aesExpandAux nk (4 * (nk + 7) - nk) nk 1 ws
  (List.range (nk + 7)).map (fun r => ((all.drop (4 * r)).take 4).flatten)

def xorN (a b : List Nat) : List Nat := List.zipWith (· ^^^ ·) a b

def shiftRows (s : List Nat) : List Nat := (List.range 16).map (fun i => s.getD ((i + 4 * (i % 4)) % 16) 0)
def invShiftRows (s : List Nat) : List Nat := (List.range 16).map (fun i => s.getD ((i + 12 * (i % 4)) % 16) 0)

/-- Multiply each column by a circulant of coefficients. -/
def mixWith (c : Nat × Nat × Nat × Nat) (s : List Nat) : List Nat :=
  (List.range 16).map (fun i =>
    let col := 4 * (i / 4)
    let r := i % 4
    let at' := fun k => s.getD (col + (r + k) % 4) 0
    gmul (at' 0) c.1 ^^^ gmul (at' 1) c.2.1 ^^^ gmul (at' 2) c.2.2.1 ^^^ gmul (at' 3) c.2.2.2)

def mixColumns (s : List Nat) : List Nat := mixWith (2, 3, 1, 1) s
def invMixColumns (s : List Nat) : List Nat := mixWith (14, 11, 13, 9) s

/-- The rounds after the first key addition. -/
def aesRounds : List (List Nat) → List Nat → List Nat
  | [], s => s
  | [k], s => xorN (shiftRows (s.map sbox)) k
  | k :: ks, s => aesRounds ks (xorN (mixColumns (shiftRows (s.map sbox))) k)

/-- The inverse rounds, round keys from the last. -/
def aesInvRounds : List (List Nat) → List Nat → List Nat
  | [], s => s
  | [k], s => xorN ((invShiftRows s).map invSbox) k
  | k :: ks, s => aesInvRounds ks (invMixColumns (xorN ((invShiftRows s).map invSbox) k))

/-- Encrypt one block under round keys. -/
def aesEncK (ks : List (List Nat)) (b : Bytes) : Bytes :=
  match ks with
  | k :: r => (aesRounds r (xorN (b.map BitVec.toNat) k)).map byteOf
  | [] => b

/-- Decrypt one block under round keys. -/
def aesDecK (ks : List (List Nat)) (b : Bytes) : Bytes :=
  match ks.reverse with
  | k :: r => (aesInvRounds r (xorN (b.map BitVec.toNat) k)).map byteOf
  | [] => b

def aesEnc (key b : Bytes) : Bytes := aesEncK (aesKeys key) b

/-! ### ECB, CBC, CTR -/

def ecbEnc (key m : Bytes) : Bytes := let ks := aesKeys key; (chunks 16 m).flatMap (aesEncK ks)
def ecbDec (key m : Bytes) : Bytes := let ks := aesKeys key; (chunks 16 m).flatMap (aesDecK ks)

def cbcEncAux (ks : List (List Nat)) : List Bytes → Bytes → Bytes
  | [], _ => []
  | b :: bs, iv => let c := aesEncK ks (xorBytes b iv); c ++ cbcEncAux ks bs c

def cbcEnc (key iv m : Bytes) : Bytes := cbcEncAux (aesKeys key) (chunks 16 m) iv

def cbcDecAux (ks : List (List Nat)) : List Bytes → Bytes → Bytes
  | [], _ => []
  | c :: cs, iv => xorBytes (aesDecK ks c) iv ++ cbcDecAux ks cs c

def cbcDec (key iv m : Bytes) : Bytes := cbcDecAux (aesKeys key) (chunks 16 m) iv

/-- Advance the low `bits` bits of a counter block by one, big-endian. -/
def incLow (bits : Nat) (blk : Bytes) : Bytes :=
  let n := beNat blk
  let m := 2 ^ bits
  beBytes 16 (n / m * m + (n % m + 1) % m)

def ctrAux (bits : Nat) (ks : List (List Nat)) : List Bytes → Bytes → Bytes
  | [], _ => []
  | b :: bs, c => xorBytes b (aesEncK ks c) ++ ctrAux bits ks bs (incLow bits c)

/-- Counter mode from an initial block. -/
def ctrCrypt (bits : Nat) (key ctr m : Bytes) : Bytes := ctrAux bits (aesKeys key) (chunks 16 m) ctr

/-! ### GCM -/

/-- Multiply in GF(2^128) as GCM orders bits: bit 127 of the number is the first. -/
def ghashMulAux : Nat → Nat → Nat → Nat → Nat
  | 0, _, _, z => z
  | n + 1, x, v, z =>
    ghashMulAux n x (if v % 2 = 1 then (v / 2) ^^^ (0xe1 * 2 ^ 120) else v / 2) (if x.testBit n then z ^^^ v else z)

def ghashMul (x y : Nat) : Nat := ghashMulAux 128 x y 0

/-- Pad to a multiple of sixteen bytes with zeros. -/
def pad16 (m : Bytes) : Bytes := m ++ zeros ((16 - m.length % 16) % 16)

def ghash (h : Nat) (m : Bytes) : Nat := (chunks 16 m).foldl (fun y b => ghashMul (y ^^^ beNat b) h) 0

/-- The GCM tag over additional data and ciphertext. -/
def gcmTag (key iv aad ct : Bytes) : Bytes :=
  let ks := aesKeys key
  let h := beNat (aesEncK ks (zeros 16))
  let s := ghash h (pad16 aad ++ pad16 ct ++ beBytes 8 (8 * aad.length) ++ beBytes 8 (8 * ct.length))
  xorBytes (beBytes 16 s) (aesEncK ks (iv ++ [0, 0, 0, 1]))

/-- The GCM keystream applied to a payload. -/
def gcmCrypt (key iv m : Bytes) : Bytes := ctrCrypt 32 key (iv ++ [0, 0, 0, 2]) m

/-! ### CCM -/

/-- The CCM encoding of the length of additional data. -/
def ccmAadLen (n : Nat) : Bytes :=
  if n = 0 then [] else if n < 0xFF00 then beBytes 2 n else [0xff, 0xfe] ++ beBytes 4 n

/-- The CCM tag. -/
def ccmTag (key nonce aad m : Bytes) (tlen : Nat) : Bytes :=
  let ks := aesKeys key
  let q := 15 - nonce.length
  let b0 := byteOf ((if aad.isEmpty then 0 else 64) + 8 * ((tlen - 2) / 2) + (q - 1)) :: (nonce ++ beBytes q m.length)
  let x := (chunks 16 (b0 ++ pad16 (ccmAadLen aad.length ++ aad) ++ pad16 m)).foldl (fun y b => aesEncK ks (xorBytes y b)) (zeros 16)
  (xorBytes x (aesEncK ks (byteOf (q - 1) :: (nonce ++ zeros q)))).take tlen

/-- The CCM keystream applied to a payload. -/
def ccmCrypt (key nonce m : Bytes) : Bytes :=
  let q := 15 - nonce.length
  ctrCrypt (8 * q) key (byteOf (q - 1) :: (nonce ++ beBytes q 1)) m

/-! ### XTS -/

/-- Double a tweak, little-endian. -/
def xtsDouble (t : Nat) : Nat := if 2 ^ 127 ≤ t then (2 * t - 2 ^ 128) ^^^ 0x87 else 2 * t

/-- One block under a tweak. -/
def xtsBlock (ks : List (List Nat)) (dec : Bool) (t : Nat) (b : Bytes) : Bytes :=
  let tb := leBytes 16 t
  xorBytes (if dec then aesDecK ks (xorBytes b tb) else aesEncK ks (xorBytes b tb)) tb

/-- The blocks of a unit, the last two with ciphertext stealing. -/
def xtsAux (ks : List (List Nat)) (dec : Bool) : List Bytes → Nat → Bytes
  | [], _ => []
  | [b], t => xtsBlock ks dec t b
  | b :: c :: r, t =>
    if r.isEmpty ∧ c.length < 16 then
      let t2 := xtsDouble t
      let cc := xtsBlock ks dec (if dec then t2 else t) b
      xtsBlock ks dec (if dec then t else t2) (c ++ cc.drop c.length) ++ cc.take c.length
    else xtsBlock ks dec t b ++ xtsAux ks dec (c :: r) (xtsDouble t)

/-- One data unit: the key's first half encrypts data, the second the tweak. -/
def xtsUnit (key : Bytes) (dec : Bool) (tweak m : Bytes) : Bytes :=
  let h := key.length / 2
  xtsAux (aesKeys (key.take h)) dec (chunks 16 m) (leNat (aesEnc (key.drop h) tweak))

/-! ### CMAC -/

/-- Double in the big-endian field of CMAC. -/
def cmacDouble (n : Nat) : Nat := if 2 ^ 127 ≤ n then (2 * n - 2 ^ 128) ^^^ 0x87 else 2 * n

/-- AES-CMAC. -/
def cmac (key m : Bytes) : Bytes :=
  let ks := aesKeys key
  let k1 := cmacDouble (beNat (aesEncK ks (zeros 16)))
  let full := m.length != 0 && m.length % 16 == 0
  let n := if full then m.length - 16 else m.length / 16 * 16
  let last := m.drop n
  let l := if full then xorBytes last (beBytes 16 k1)
           else xorBytes (last ++ [0x80] ++ zeros (15 - last.length)) (beBytes 16 (cmacDouble k1))
  let x := (chunks 16 (m.take n)).foldl (fun y b => aesEncK ks (xorBytes y b)) (zeros 16)
  aesEncK ks (xorBytes x l)

/-! ### Key wrap (SP 800-38F KW) -/

/-- One step of the wrap: (A, R) with the semiblocks of R, counter t. -/
def kwStep (ks : List (List Nat)) (st : Bytes × List Bytes) (t : Nat) : Bytes × List Bytes :=
  match st.2 with
  | [] => st
  | r :: rs =>
    let b := aesEncK ks (st.1 ++ r)
    (xorBytes (b.take 8) (beBytes 8 t), rs ++ [b.drop 8])

/-- One step of the unwrap, counter t, semiblocks last first. -/
def kwUnstep (ks : List (List Nat)) (st : Bytes × List Bytes) (t : Nat) : Bytes × List Bytes :=
  match st.2 with
  | [] => st
  | r :: rs =>
    let b := aesDecK ks (xorBytes st.1 (beBytes 8 t) ++ r)
    (b.take 8, rs ++ [b.drop 8])

/-- Wrap semiblocks under a key. -/
def kwWrap (key m : Bytes) : Bytes :=
  let ks := aesKeys key
  let r := chunks 8 m
  let st := (List.range (6 * r.length)).foldl (fun s i => kwStep ks s (i + 1)) (List.replicate 8 0xa6#8, r)
  st.1 ++ st.2.flatten

/-- Unwrap; none when the integrity check fails. -/
def kwUnwrap (key c : Bytes) : Option Bytes :=
  let ks := aesKeys key
  let r := chunks 8 (c.drop 8)
  let n := 6 * r.length
  let st := (List.range n).foldl (fun s i => kwUnstep ks s (n - i)) (c.take 8, r.reverse)
  if st.1 = List.replicate 8 0xa6#8 then some (st.2.reverse.flatten) else none

/-! ### ChaCha20-Poly1305 -/

def rotl32 (x n : Nat) : Nat := (x * 2 ^ n + x / 2 ^ (32 - n)) % 2 ^ 32

/-- A quarter round on four places of the state. -/
def quarter (s : List Nat) (p : Nat × Nat × Nat × Nat) : List Nat :=
  let m := 2 ^ 32
  let a := s.getD p.1 0; let b := s.getD p.2.1 0; let c := s.getD p.2.2.1 0; let d := s.getD p.2.2.2 0
  let a := (a + b) % m; let d := rotl32 (d ^^^ a) 16
  let c := (c + d) % m; let b := rotl32 (b ^^^ c) 12
  let a := (a + b) % m; let d := rotl32 (d ^^^ a) 8
  let c := (c + d) % m; let b := rotl32 (b ^^^ c) 7
  (((s.set p.1 a).set p.2.1 b).set p.2.2.1 c).set p.2.2.2 d

def chachaDouble (s : List Nat) : List Nat :=
  [(0, 4, 8, 12), (1, 5, 9, 13), (2, 6, 10, 14), (3, 7, 11, 15), (0, 5, 10, 15), (1, 6, 11, 12), (2, 7, 8, 13), (3, 4, 9, 14)].foldl quarter s

/-- The keystream block of a counter. -/
def chachaBlock (key nonce : Bytes) (ctr : Nat) : Bytes :=
  let s := [0x61707865, 0x3320646e, 0x79622d32, 0x6b206574] ++ (chunks 4 key).map leNat ++ [ctr % 2 ^ 32] ++ (chunks 4 nonce).map leNat
  let w := (List.range 10).foldl (fun t _ => chachaDouble t) s
  (List.zipWith (fun a b => (a + b) % 2 ^ 32) s w).flatMap (leBytes 4)

def chachaAux (key nonce : Bytes) : List Bytes → Nat → Bytes
  | [], _ => []
  | b :: bs, c => xorBytes b (chachaBlock key nonce c) ++ chachaAux key nonce bs (c + 1)

def chachaCrypt (key nonce m : Bytes) : Bytes := chachaAux key nonce (chunks 64 m) 1

/-- Poly1305. -/
def poly1305 (key m : Bytes) : Bytes :=
  let r := leNat (key.take 16) &&& 0x0ffffffc0ffffffc0ffffffc0fffffff
  let p := 2 ^ 130 - 5
  let a := (chunks 16 m).foldl (fun a b => (a + leNat (b ++ [1])) * r % p) 0
  leBytes 16 ((a + leNat (key.drop 16)) % 2 ^ 128)

def chachaTag (key nonce aad ct : Bytes) : Bytes :=
  poly1305 ((chachaBlock key nonce 0).take 32) (pad16 aad ++ pad16 ct ++ leBytes 8 aad.length ++ leBytes 8 ct.length)

end Sys2Proof.Machine
end

