-- ==== Sys2Proof/Machine/Sha.lean ====
section
/-! DEFINITION. The hash functions of spec/09 R289 (FIPS 180-4 SHA-2 and FIPS 202 SHA-3), HMAC (R298, FIPS 198-1) and
the SP 800-108 counter-mode derivation with HMAC, block by block so that a hash can stop at a block boundary. The
arithmetic follows the standards that the rules name (log entry 15). -/

namespace Sys2Proof.Machine

/-! ### Constants of SHA-2, from roots of the primes -/

/-- The largest r below 2^n with r^k ≤ x, from the top bit down. -/
def rootAux (k x : Nat) : Nat → Nat → Nat
  | 0, r => r
  | n + 1, r => rootAux k x n (if (r + 2 ^ n) ^ k ≤ x then r + 2 ^ n else r)

/-- A number has no divisor from 2 to the bound. -/
def noDivisor (n : Nat) : Nat → Bool
  | 0 => true
  | k + 1 => (decide (k + 1 < 2) || decide (n % (k + 1) ≠ 0)) && noDivisor n k

/-- The first 80 primes. -/
def primes80 : List Nat := ((List.range 410).filter (fun n => decide (2 ≤ n) && noDivisor n (min (n - 1) 20))).take 80

/-- The first 64 bits of the fraction of a prime's k-th root. -/
def rootFrac (k p : Nat) : Nat := rootAux k (p * 2 ^ (64 * k)) 69 0 % 2 ^ 64

def sha512K : List Nat := primes80.map (rootFrac 3)
def sha512H : List Nat := (primes80.take 8).map (rootFrac 2)
def sha384H : List Nat := ((primes80.drop 8).take 8).map (rootFrac 2)
def sha256K : List Nat := (sha512K.take 64).map (· / 2 ^ 32)
def sha256H : List Nat := sha512H.map (· / 2 ^ 32)

/-! ### SHA-2 -/

/-- Rotate a w-bit word right. -/
def rotrN (w x n : Nat) : Nat := (x / 2 ^ n + x * 2 ^ (w - n)) % 2 ^ w

/-- The word size and the rotation amounts of a SHA-2 family. -/
structure Sha2 where
  w : Nat
  s0 : Nat × Nat × Nat
  s1 : Nat × Nat × Nat
  b0 : Nat × Nat × Nat
  b1 : Nat × Nat × Nat
  ks : List Nat
  deriving DecidableEq, Repr

def sha2Small : Sha2 := ⟨32, (7, 18, 3), (17, 19, 10), (2, 13, 22), (6, 11, 25), sha256K⟩
def sha2Large : Sha2 := ⟨64, (1, 8, 7), (19, 61, 6), (28, 34, 39), (14, 18, 41), sha512K⟩

/-- Two rotations and a shift. -/
def sigSmall (w : Nat) (r : Nat × Nat × Nat) (x : Nat) : Nat := rotrN w x r.1 ^^^ rotrN w x r.2.1 ^^^ (x / 2 ^ r.2.2)

/-- Three rotations. -/
def sigBig (w : Nat) (r : Nat × Nat × Nat) (x : Nat) : Nat := rotrN w x r.1 ^^^ rotrN w x r.2.1 ^^^ rotrN w x r.2.2

/-- The message schedule: the last sixteen words, oldest first, and the words made so far, newest first. -/
def sha2Sched (c : Sha2) : Nat → List Nat → List Nat
  | 0, _ => []
  | n + 1, win =>
    let t := (sigSmall c.w c.s1 (win.getD 14 0) + win.getD 9 0 + sigSmall c.w c.s0 (win.getD 1 0) + win.getD 0 0) % 2 ^ c.w
    win.getD 0 0 :: sha2Sched c n (win.drop 1 ++ [t])

/-- One round on the eight working variables. -/
def sha2Round (c : Sha2) (v : List Nat) (kw : Nat) : List Nat :=
  match v with
  | [a, b, d, e, f, g, h, i] =>
    let ch := (f &&& g) ^^^ ((2 ^ c.w - 1 - f) &&& h)
    let maj := (a &&& b) ^^^ (a &&& d) ^^^ (b &&& d)
    let t1 := i + sigBig c.w c.b1 f + ch + kw
    let t2 := sigBig c.w c.b0 a + maj
    [(t1 + t2) % 2 ^ c.w, a, b, d, (e + t1) % 2 ^ c.w, f, g, h]
  | _ => v

/-- One SHA-2 block. -/
def sha2Block (c : Sha2) (h : List Nat) (block : Bytes) : List Nat :=
  let m := (chunks (c.w / 8) block).map beNat
  let ws := sha2Sched c c.ks.length m
  let v := (List.zipWith (· + ·) c.ks ws).foldl (sha2Round c) h
  List.zipWith (fun a b => (a + b) % 2 ^ c.w) h v

/-! ### SHA-3 -/

/-- Bit t of the round-constant generator: x^8 + x^6 + x^5 + x^4 + 1. -/
def kecRc : Nat → Nat → Nat
  | 0, r => r
  | t + 1, r => kecRc t (let s := r * 2; if 256 ≤ s then s ^^^ 0x171 else s)

/-- The round constant of round i. -/
def kecIota (i : Nat) : Nat := ((List.range 7).map (fun j => if kecRc (j + 7 * i) 1 % 2 = 1 then 2 ^ (2 ^ j - 1) else 0)).sum

/-- The walk of rho and pi: (position, rotation) in order. -/
def kecWalk : Nat → Nat → Nat → Nat → List (Nat × Nat)
  | 0, _, _, _ => []
  | n + 1, x, y, t => (x + 5 * y, (t + 1) * (t + 2) / 2 % 64) :: kecWalk n y ((2 * x + 3 * y) % 5) (t + 1)

def kecRot : List Nat :=
  (List.range 25).map (fun i => ((kecWalk 24 1 0 0).find? (fun p => p.1 == i)).elim 0 (·.2))

/-- Rotate a 64-bit lane left. -/
def rotl64 (x n : Nat) : Nat := rotrN 64 x (64 - n)

/-- One round of Keccak-f[1600] on 25 lanes, lane x + 5y. -/
def kecRound (a : List Nat) (i : Nat) : List Nat :=
  let c := (List.range 5).map (fun x => a.getD x 0 ^^^ a.getD (x + 5) 0 ^^^ a.getD (x + 10) 0 ^^^ a.getD (x + 15) 0 ^^^ a.getD (x + 20) 0)
  let d := (List.range 5).map (fun x => c.getD ((x + 4) % 5) 0 ^^^ rotl64 (c.getD ((x + 1) % 5) 0) 1)
  let t := (List.range 25).map (fun k => rotl64 (a.getD k 0 ^^^ d.getD (k % 5) 0) (kecRot.getD k 0))
  let b := (List.range 25).map (fun k =>
    let x := k % 5; let y := k / 5; t.getD (((x + 3 * y) % 5) + 5 * x) 0)
  (List.range 25).map (fun k =>
    let x := k % 5; let y := k / 5
    let v := b.getD k 0 ^^^ ((2 ^ 64 - 1 - b.getD ((x + 1) % 5 + 5 * y) 0) &&& b.getD ((x + 2) % 5 + 5 * y) 0)
    if k = 0 then v ^^^ kecIota i else v)

/-- Absorb one rate block. -/
def sha3Block (a : List Nat) (block : Bytes) : List Nat :=
  let m := (chunks 8 block).map leNat
  (List.range 24).foldl kecRound ((List.range 25).map (fun k => a.getD k 0 ^^^ m.getD k 0))

/-! ### The hash functions by ALG (R289) -/

/-- ALG is in the table of R289. -/
def hashKnown (alg : Nat) : Bool := [1, 2, 3, 4, 0x11, 0x12, 0x13].contains alg

/-- B (R289). -/
def hashB (alg : Nat) : Nat :=
  if alg = 1 then 64 else if alg = 0x11 then 136 else if alg = 0x12 then 104 else if alg = 0x13 then 72 else 128

/-- L (R289). -/
def hashL (alg : Nat) : Nat :=
  if alg = 1 ∨ alg = 4 ∨ alg = 0x11 then 32 else if alg = 2 ∨ alg = 0x12 then 48 else 64

/-- c_b (R289). -/
def hashCb (alg : Nat) : Nat := if alg = 1 then 16 else if 0x11 ≤ alg then 12 else 20

/-- One block of any of the functions. -/
def hashBlock (alg : Nat) (h : List Nat) (block : Bytes) : List Nat :=
  if 0x11 ≤ alg then sha3Block h block else if alg = 1 then sha2Block sha2Small h block else sha2Block sha2Large h block

/-- The padding of a message of `len` bytes, of which the last `len % B` have yet to be hashed. -/
def hashPad (alg len : Nat) : Bytes :=
  let b := hashB alg
  if 0x11 ≤ alg then
    let n := b - len % b
    if n = 1 then [0x86] else 0x06 :: (zeros (n - 2) ++ [0x80])
  else
    let l := if alg = 1 then 8 else 16
    0x80 :: (zeros ((2 * b - 1 - l - len % b) % b) ++ beBytes l (8 * len))

/-- Hash whole blocks. -/
def hashBlocks (alg : Nat) (h : List Nat) (bs : Bytes) : List Nat := (chunks (hashB alg) bs).foldl (hashBlock alg) h

/-- The chaining value's output bytes. -/
def hashOut (alg : Nat) (h : List Nat) : Bytes :=
  if 0x11 ≤ alg then (h.flatMap (leBytes 8)).take (hashL alg)
  else (h.flatMap (beBytes (if alg = 1 then 4 else 8))).take (hashL alg)

/-- The initial value of SHA-512/256 (FIPS 180-4, 5.3.6). -/
def sha512t256H : List Nat :=
  let name := ascii "SHA-512/256"
  hashBlocks 3 (sha512H.map (· ^^^ 0xa5a5a5a5a5a5a5a5)) (name ++ hashPad 3 name.length)

/-- The initial chaining value. -/
def hashInit (alg : Nat) : List Nat :=
  if 0x11 ≤ alg then List.replicate 25 0
  else if alg = 1 then sha256H else if alg = 2 then sha384H else if alg = 3 then sha512H else sha512t256H

/-- The hash of a byte string. -/
def hash (alg : Nat) (m : Bytes) : Bytes := hashOut alg (hashBlocks alg (hashInit alg) (m ++ hashPad alg m.length))

/-- The block key of HMAC: keys above B are hashed. -/
def hmacKey (alg : Nat) (k : Bytes) : Bytes :=
  let k' := if hashB alg < k.length then hash alg k else k
  k' ++ zeros (hashB alg - k'.length)

/-- The key block XORed with ipad or opad. -/
def hmacPad (alg : Nat) (k : Bytes) (b : Byte) : Bytes := (hmacKey alg k).map (· ^^^ b)

/-- HMAC. -/
def hmac (alg : Nat) (k m : Bytes) : Bytes :=
  hash alg (hmacPad alg k 0x5c ++ hash alg (hmacPad alg k 0x36 ++ m))

end Sys2Proof.Machine
end

