-- ==== Sys2Proof/Machine/Status.lean ====
section
/-! DEFINITION. The completion statuses of spec/21 R570 and the opcodes of spec/04 R133. -/

namespace Sys2Proof.Machine.St

def success : Nat := 0x00
def authFail : Nat := 0x01
def lengthMismatch : Nat := 0x02
def malformed : Nat := 0x03
def keySlotInvalid : Nat := 0x04
def keyPolicy : Nat := 0x05
def nonceExhausted : Nat := 0x06
def leaseUnavailable : Nat := 0x07
def entropyNotReady : Nat := 0x08
def pointInvalid : Nat := 0x09
def operandRange : Nat := 0x0A
def chainAborted : Nat := 0x0B
def preemptExported : Nat := 0x0C
def tileCheck : Nat := 0x0D
def accessFault : Nat := 0x0E
def queueDrained : Nat := 0x0F
def abortedByHost : Nat := 0x10
def grantTimeout : Nat := 0x11
def unsupported : Nat := 0x12
def contextInvalid : Nat := 0x13
def sealGap : Nat := 0x14

end Sys2Proof.Machine.St

namespace Sys2Proof.Machine.Opc

def cipher : Nat := 0x01
def aead : Nat := 0x02
def xts : Nat := 0x03
def mac : Nat := 0x04
def digest : Nat := 0x05
def hmac : Nat := 0x06
def keyUnwrap : Nat := 0x07
def keyDerive : Nat := 0x08
def keyExport : Nat := 0x09
def pkaOp : Nat := 0x0A
def wmacList : Nat := 0x0B
def random : Nat := 0x0C
def contextResume : Nat := 0x0D
def sealClose : Nat := 0x0E
def pageSeal : Nat := 0x0F
def fence : Nat := 0x10
def pad : Nat := 0x1F
def createQueue : Nat := 0x81
def destroyQueue : Nat := 0x82
def queueInfo : Nat := 0x83
def setQos : Nat := 0x84
def bindTap : Nat := 0x85
def unbindTap : Nat := 0x86
def slotInfo : Nat := 0x87
def partitionReset : Nat := 0x88

end Sys2Proof.Machine.Opc
end

