-- ==== Sys2Proof/Machine/Keys.lean ====
section
/-! DEFINITION. Keys as spec/13 R394 to R408 hold them: attribute blocks, derived keys, fingerprints, slots and the
mapping from local to global slots, erasure and installation. -/

namespace Sys2Proof.Machine

/-! ### Derivation (R400, R405) -/

/-- `len` bytes of the counter-mode output of a PRF. -/
def kdfBytes (prf : Bytes → Bytes) (outLen len : Nat) (fixed : Bytes) : Bytes :=
  ((List.range (cdiv len outLen)).flatMap (fun i => prf (beBytes 4 (i + 1) ++ fixed))).take len

/-- The fixed input after the counter: label, a zero byte, context, output length in bits. -/
def kdfFixed (label ctx : Bytes) (len : Nat) : Bytes := label ++ [0] ++ ctx ++ beBytes 4 (8 * len)

/-- A 32-byte key derived with CMAC-AES-256 (R400). -/
def kdf256 (key label ctx : Bytes) : Bytes := kdfBytes (cmac key) 16 32 (kdfFixed label ctx 32)

/-- A device-derived key (R400); DK reads as zeros before phase A1 has derived it. -/
def State.devKey (s : State) (label : String) (ctx : Bytes) : Bytes := kdf256 (s.hw.dk.getD (zeros 32)) (ascii label) ctx

/-- The stored form of the fingerprint of key material (R268, R400), which accounts, banks and grafts carry. -/
def State.fpOf (s : State) (mat : Bytes) : Bytes := cmac (s.devKey "LDS" []) (cmac (s.devKey "LDG" []) mat)

/-! ### Attributes (R396 to R398) -/

/-- The attribute block of sixteen bytes. -/
def KeyAttr.encode (a : KeyAttr) : Bytes :=
  [byteOf a.alg, 0] ++ leBytes 2 a.len
  ++ [byteOf a.use, byteOf (b2n a.ecbOk + 2 * b2n a.xivForbid + 4 * b2n a.ledger + 8 * a.exportP), byteOf a.limitLog2, 0]
  ++ leBytes 2 a.epoch ++ leBytes 2 a.lgid ++ zeros 4

/-- The fields of an attribute block. -/
def attrOf (b : Bytes) : KeyAttr :=
  let f := leNat (slice b 5 1)
  { alg := leNat (slice b 0 1), len := leNat (slice b 2 2), use := leNat (slice b 4 1) % 64
    ecbOk := bitAt f 0, xivForbid := bitAt f 1, ledger := bitAt f 2, exportP := bitsAt f 3 2
    limitLog2 := leNat (slice b 6 1), epoch := leNat (slice b 8 2) % 0x8000, lgid := leNat (slice b 10 2) }

def KeyAttr.blank : KeyAttr := ⟨0, 0, 0, false, false, false, 0, 0, 0, 0⟩

/-- LEN is a value that R397 gives the type. -/
def lenOk (alg len : Nat) : Bool :=
  match alg with
  | 0x01 => len == 16 | 0x02 => len == 24 | 0x03 => len == 32 | 0x04 => len == 32 | 0x05 => len == 64 | 0x06 => len == 32
  | 0x07 => decide (16 ≤ len ∧ len ≤ 64) | 0x08 => len == 32 | 0x09 => len == 32
  | 0x11 => len == 32 | 0x12 => len == 48 | 0x13 => len == 66 | 0x14 => len == 32 | 0x15 => len == 32
  | 0x20 => decide (4 ≤ len) && (len - 4) % 7 == 0 &&
      (let k := (len - 4) * 2 / 7; k % 16 == 0 && decide (256 ≤ k ∧ k ≤ 1024) && k + 4 + 5 * k / 2 == len)
  | 0x31 => len == 64 | 0x32 => len == 64 | 0x41 => len == 32 | 0x42 => len == 32
  | _ => false

/-- The USE flags that R397 permits. -/
def useMask (alg : Nat) : Nat :=
  if 1 ≤ alg ∧ alg ≤ 3 then 7 else if 4 ≤ alg ∧ alg ≤ 6 then 3 else if alg = 7 then 4 else if alg = 8 then 16
  else if alg = 9 then 32 else if 0x11 ≤ alg ∧ alg ≤ 0x13 then 24 else if alg = 0x14 then 8 else if alg = 0x15 then 16
  else if alg = 0x20 then 10 else if alg = 0x31 ∨ alg = 0x32 then 2 else if alg = 0x41 ∨ alg = 0x42 then 8 else 0

/-- The attribute block is valid (R398). -/
def attrValid (b : Bytes) : Bool :=
  let a := attrOf b
  let use := leNat (slice b 4 1)
  lenOk a.alg a.len && use != 0 && (use &&& useMask a.alg) == use
    && (!a.ecbOk || decide (1 ≤ a.alg ∧ a.alg ≤ 3))
    && (!(a.xivForbid || a.ledger) || decide (1 ≤ a.alg ∧ a.alg ≤ 3) || a.alg == 6)
    && (if a.ledger then decide (20 ≤ a.limitLog2 ∧ a.limitLog2 ≤ 64) else a.limitLog2 == 0 && slice b 8 4 == zeros 4)
    && a.exportP != 3
    && slice b 1 1 == [0] && bitsAt (leNat (slice b 5 1)) 5 3 == 0 && slice b 7 1 == [0]
    && !bitAt (leNat (slice b 8 2)) 15 && slice b 12 4 == zeros 4

/-- USE flags (R396). -/
def useEnc : Nat := 0
def useDec : Nat := 1
def useMac : Nat := 2
def useSign : Nat := 3
def useDerive : Nat := 4
def useWrap : Nat := 5
def KeyAttr.can (a : KeyAttr) (flag : Nat) : Bool := bitAt a.use flag

/-! ### Slots -/

def HwSlot.blank : HwSlot := ⟨.empty, KeyAttr.blank, [], 0, [], 0, false⟩

/-- A global slot. -/
def State.slot (s : State) (g : Nat) : HwSlot := (Store.find s.hw.slots g).getD HwSlot.blank

/-- The global slot of a local one (R394). -/
def State.gslot (s : State) (part loc : Nat) : Option Nat := (s.part part).bind (fun p => p.slotMap[loc]?)

/-- SLOT is below PART_INFO1.SLOTS. -/
def State.slotIn (s : State) (part loc : Nat) : Bool := (s.part part).elim false (fun p => decide (loc < p.assign.slots))

/-- The slot is the target of an admitted request (R399, R403). -/
def State.isReserved (s : State) (g : Nat) : Bool := s.reqs.any (fun r => r.2.dslot == some g)

/-- The state code that SLOT_INFO returns (R399). -/
def State.slotCode (s : State) (g : Nat) : Nat :=
  match (s.slot g).st with
  | .empty => if s.isReserved g then 4 else 0
  | .valid => 1 | .retired => 2 | .noHistory => 3 | .reserved => 4

/-- HW_POOL.SLOTS_HELD: slots that are not EMPTY (R413). -/
def State.slotsHeld (s : State) : Nat :=
  (s.hw.slots.filter (fun p => p.2.st != .empty)).length
  + ((s.reqs.filterMap (fun r => r.2.dslot)).dedup.filter (fun g => (s.slot g).st == .empty)).length

/-- The slot refers to the account (R268). -/
def State.slotOfAcct (s : State) (x : HwSlot) (a : Acct) : Bool :=
  x.attr.ledger && x.st != .empty && x.attr.epoch == a.epoch && x.attr.lgid == a.lgid && s.fpOf x.mat == a.fp

/-- Some slot refers to the account. -/
def State.acctBound (s : State) (a : Acct) : Bool := s.hw.slots.any (fun p => s.slotOfAcct p.2 a)

/-- The account of a slot's key. -/
def State.acctOf (s : State) (x : HwSlot) : Option Nat :=
  let fp := s.fpOf x.mat
  (s.ledger.accts.find? (fun a => a.2.epoch == x.attr.epoch && a.2.lgid == x.attr.lgid && a.2.fp == fp)).map (·.1)

/-- The lowest free secret tiles (R395). -/
def State.freeTiles (s : State) (n : Nat) (also : List Nat) : List Nat :=
  ((List.range 512).filter (fun t => (also.contains t || !(s.hw.slots.any (fun p => p.2.tiles.contains t)))
    && !(s.hw.retiredTiles.contains t))).take n

/-- Tiles that a key of this length needs. -/
def tilesNeeded (len : Nat) : Nat := if len ≤ 64 then 0 else cdiv len 64

/-- The tiles of a slot. -/
def State.tilesAt (s : State) (g : Nat) : List Nat := (s.slot g).tiles

/-- The tile checks of R395 with the target's own tiles counted free (R402 step 11); a key that takes no tile passes. -/
def State.tilesOk (s : State) (part g len : Nat) : Bool :=
  let own := (s.tilesAt g).length
  let n := tilesNeeded len
  n == 0 || (decide (n ≤ s.stilesFree + own) && decide (s.stilesOf part - own + n ≤ min 512 (s.aon 0xC10 % 0x400)))

/-! ### Image sections (R419) -/

/-- A slot's record has changed, and the records of its secret tiles with it. -/
def State.slotDirty (s : State) (g : Nat) (tiles : List Nat) : State :=
  tiles.foldl (fun x t => x.dirty (18 + t / 256)) (s.dirty (2 + g / 256))

/-- An account's record has changed. -/
def State.acctDirty (s : State) (a : Nat) : State := s.dirty (20 + a / 1024)

/-! ### Erasure and installation (R403, R404) -/

/-- A request that would have installed into a slot finds it erased by administration (R403). -/
def Req.slotErased (r : Req) : Req := { r with failed := true, status := St.keySlotInvalid, detail := 0x04 }

/-- Empty a slot: its tiles are freed, working copies become stale (R25, R404), and an image is due (R420). -/
def State.eraseG (s : State) (g : Nat) : State :=
  let t := s.slotDirty g (s.tilesAt g)
  ({ t with hw := { t.hw with slots := Store.del t.hw.slots g } } : State).markStale g

/-- Put a key into a slot with a fresh identity (R403). -/
def State.install (s : State) (g part : Nat) (st : SlotState) (attr : KeyAttr) (mat : Bytes) : State :=
  let tiles := s.freeTiles (tilesNeeded mat.length) (s.tilesAt g)
  let t := (s.markStale g).slotDirty g (tiles ++ s.tilesAt g)
  let x : HwSlot := { st := st, attr := attr, mat := mat, part := part, tiles := tiles, keyId := t.nextId, bad := false }
  ({ t with hw := { t.hw with slots := Store.put t.hw.slots g x } } : State).bump

end Sys2Proof.Machine
end

