-- ==== Sys2Proof/Machine/Operands.lean ====
section
/-! DEFINITION. The operand forms: the entry header (spec/04 R131), the body fields of every opcode, and the structural
checks of R157 that each opcode's chapter gives its reserved fields. -/

namespace Sys2Proof.Machine

/-- A little-endian field of an entry. -/
def fld (e : Bytes) (off len : Nat) : Nat := leNat (slice e off len)

/-- Every byte of a range is 0. -/
def zeroAt (e : Bytes) (off len : Nat) : Bool := slice e off len == zeros len

/-! ### The header (R131) -/

def eOpcode (e : Bytes) : Nat := fld e 0 1
def eSlots (e : Bytes) : Nat := fld e 1 1 % 16 + 1
def eTag (e : Bytes) : Nat := fld e 2 2
def eChain (e : Bytes) : Bool := bitAt (fld e 4 1) 0
def eIrq (e : Bytes) : Bool := bitAt (fld e 4 1) 1
def eUrgent (e : Bytes) : Bool := bitAt (fld e 4 1) 2
def eFlags (e : Bytes) : Nat := fld e 5 1
def eFlag (e : Bytes) (i : Nat) : Bool := bitAt (eFlags e) i

/-- The opcodes of R133: submission, admin. -/
def isSubmission (op : Nat) : Bool := decide (1 ≤ op ∧ op ≤ 0x0F)
def isAdmin (op : Nat) : Bool := decide (0x81 ≤ op ∧ op ≤ 0x88)
def isOpcode (op : Nat) : Bool := isSubmission op || isAdmin op || op == Opc.fence || op == Opc.pad

/-- The OPFLAGS bits that an opcode defines. -/
def flagMask (e : Bytes) : Nat :=
  let op := eOpcode e
  if op ≤ 6 then 0x1F
  else if op = Opc.keyUnwrap ∨ op = Opc.pageSeal then 3
  else if op = Opc.keyDerive ∨ op = Opc.contextResume ∨ op = Opc.sealClose then 1
  else if op = Opc.pkaOp then
    if fld e 10 1 = 1 ∧ (fld e 11 1 = 0x31 ∨ fld e 11 1 = 0x32) then 3 else 1
  else 0

/-- The SLOTS_M1 range of an opcode. -/
def slotsOk (e : Bytes) : Bool :=
  let op := eOpcode e
  let m := eSlots e - 1
  if op ≤ 8 ∨ op = Opc.pkaOp ∨ op = Opc.wmacList then decide (1 ≤ m)
  else if op = Opc.keyExport ∨ op = Opc.random ∨ op = Opc.createQueue ∨ op = Opc.bindTap then m == 1
  else if op = Opc.pageSeal then m == (if eFlag e 0 then 3 else 1)
  else m == 0

/-- Bytes of the body from an offset to the end are 0. -/
def tailZero (e : Bytes) (off : Nat) : Bool := zeroAt e off (32 * eSlots e - off)

/-! ### Cipher bodies (R205, R206) -/

def cSlot (e : Bytes) : Nat := fld e 8 2
def cMode (e : Bytes) : Nat := fld e 10 1
def cTagLen (e : Bytes) : Nat := fld e 11 1
def cAadLen (e : Bytes) : Nat := fld e 12 4
def cLen (e : Bytes) : Nat := fld e 16 6
def cInline (e : Bytes) : Nat := fld e 22 2
def cSrc (e : Bytes) : Nat := fld e 24 8
def cDst (e : Bytes) : Nat := fld e 32 8
def cSrcCnt (e : Bytes) : Nat := fld e 40 1
def cDstCnt (e : Bytes) : Nat := fld e 41 1
def cParam (e : Bytes) : Nat := fld e 44 4
def cDec (e : Bytes) : Bool := eFlag e 0
def cSrcSgl (e : Bytes) : Bool := eFlag e 1
def cDstSgl (e : Bytes) : Bool := eFlag e 2
def cStream (e : Bytes) : Bool := eFlag e 3
def cExtIv (e : Bytes) : Bool := eFlag e 4

def mEcb : Nat := 0x01
def mCbc : Nat := 0x02
def mCtr : Nat := 0x03
def mGcm : Nat := 0x10
def mCcm : Nat := 0x11
def mChacha : Nat := 0x12
def mXts : Nat := 0x20
def mCmac : Nat := 0x30
def mGmac : Nat := 0x31

/-- The opcode that a mode belongs to (R204); 0 for a MODE absent from the table. -/
def modeOpcode (m : Nat) : Nat :=
  if m = mEcb ∨ m = mCbc ∨ m = mCtr then Opc.cipher
  else if m = mGcm ∨ m = mCcm ∨ m = mChacha then Opc.aead
  else if m = mXts then Opc.xts
  else if m = mCmac ∨ m = mGmac then Opc.mac
  else 0

/-- IV field bytes used (R206, R211, R212). -/
def ivUsed (e : Bytes) : Nat :=
  let m := cMode e
  if m = mXts then 16
  else if !(cExtIv e) then 0
  else if m = mCbc ∨ m = mCtr then 16
  else if m = mGcm ∨ m = mGmac ∨ m = mChacha then 12
  else if m = mCcm then min 16 (cParam e % 256)
  else 0

/-- MPARAM's reserved bits are 0. -/
def paramOk (e : Bytes) : Bool :=
  let m := cMode e
  if m = mXts then true
  else if m = mCcm ∨ m = mCtr then decide (cParam e < 256)
  else cParam e == 0

/-! ### Digest bodies (R290, R291) -/

def dAlg (e : Bytes) : Nat := fld e 10 1
def dHostPad (e : Bytes) : Bool := eFlag e 0
def dInit (e : Bytes) : Bool := eFlag e 2
def dFinal (e : Bytes) : Bool := eFlag e 3
def dVerify (e : Bytes) : Bool := eFlag e 4
def dState (e : Bytes) : Nat := fld e 48 8

/-! ### Other fields: PRF of KEY_DERIVE (R405), LEN and DST of RANDOM (R372) -/

def kPrf (e : Bytes) : Nat := fld e 12 1
def rndLen (e : Bytes) : Nat := fld e 16 4
def rndDst (e : Bytes) : Nat := fld e 32 8

/-! ### Reserved body fields (code 0x09 of R157) -/

/-- Every reserved body field of the entry is 0. A FENCE has no body (R131), and its bytes 8 to 31 are not checked (log entry 27). -/
def reservedOk (e : Bytes) : Bool :=
  let op := eOpcode e
  if op ≤ 4 then
    zeroAt e 42 2 && paramOk e && zeroAt e (48 + ivUsed e) (16 - ivUsed e) && tailZero e (64 + cInline e)
  else if op ≤ 6 then zeroAt e 12 4 && zeroAt e 41 7 && zeroAt e 56 8 && tailZero e (64 + cInline e)
  else if op = Opc.keyUnwrap then zeroAt e 12 4 && zeroAt e 20 2 && zeroAt e 32 32 && tailZero e (64 + cInline e)
  else if op = Opc.keyDerive then zeroAt e 13 3 && zeroAt e 36 28 && tailZero e (64 + fld e 32 2 + fld e 34 2)
  else if op = Opc.keyExport then zeroAt e 12 20 && zeroAt e 44 20
  else if op = Opc.pkaOp then zeroAt e 20 2 && zeroAt e 46 18 && tailZero e (64 + cInline e)
  else if op = Opc.wmacList then
    zeroAt e 10 2 && zeroAt e 24 40 && tailZero e (if fld e 16 8 = 0 then 64 + 16 * fld e 8 2 else 64)
  else if op = Opc.random then zeroAt e 8 8 && zeroAt e 20 12 && zeroAt e 40 24
  else if op = Opc.contextResume then decide (fld e 8 1 < 64) && zeroAt e 9 3 && zeroAt e 16 16
  else if op = Opc.sealClose then decide (fld e 8 1 < 64) && zeroAt e 9 7 && zeroAt e 24 8
  else if op = Opc.pageSeal then zeroAt e 13 3 && zeroAt e 20 4 && zeroAt e 56 8
  else if op = Opc.createQueue then
    decide (fld e 12 1 < 8) && decide (fld e 13 1 < 32) && bitsAt (fld e 14 1) 4 3 == 0 && zeroAt e 32 32
  else if op = Opc.destroyQueue then decide (fld e 10 1 < 2) && zeroAt e 11 21
  else if op = Opc.queueInfo then zeroAt e 10 22
  else if op = Opc.setQos then zeroAt e 10 2 && decide (fld e 12 1 < 8) && zeroAt e 13 2 && zeroAt e 16 16
  else if op = Opc.bindTap then decide (fld e 9 1 < 4) && decide (fld e 15 1 < 32) && zeroAt e 22 2 && zeroAt e 40 24
  else if op = Opc.unbindTap then decide (fld e 8 1 < 64) && zeroAt e 9 23
  else if op = Opc.slotInfo then zeroAt e 11 21
  else if op = Opc.partitionReset then zeroAt e 8 24
  else true

/-- The first structural check that an entry fails, as its DETAIL (R157): 0x06 belongs to the chain as a whole. -/
def structural (e : Bytes) (adminQueue pastEnd changed : Bool) : Option Nat :=
  let op := eOpcode e
  if !(isOpcode op) then some 0x01
  else if (adminQueue && isSubmission op) || (!adminQueue && isAdmin op) then some 0x02
  else if decide (16 ≤ fld e 1 1) || decide (8 ≤ fld e 4 1) || !(zeroAt e 6 2) || (eFlags e &&& flagMask e) != eFlags e
  then some 0x03
  else if op != Opc.fence && !(slotsOk e) then some 0x04
  else if pastEnd then some 0x05
  else if changed then some 0x07
  else if op == Opc.fence && (eChain e || eSlots e != 1) then some 0x08
  else if !(reservedOk e) then some 0x09
  else none

/-! ### Elements of a scatter list (R208) -/

/-- The elements of a list: address and length. -/
def elements (bs : Bytes) : List (Nat × Nat) := (chunks 16 bs).map (fun b => (fld b 0 8, fld b 8 4))

/-- No element has a non-zero reserved field. -/
def elementsOk (bs : Bytes) : Bool := (chunks 16 bs).all (fun b => zeroAt b 12 4)

/-- The pieces of `len` bytes at offset `off` of the string that elements describe: address, length, offset from `off`. -/
def spread : List (Nat × Nat) → Nat → Nat → Nat → List (Nat × Nat × Nat)
  | [], _, _, _ => []
  | (a, n) :: r, off, len, done =>
    if len = 0 then []
    else if n ≤ off then spread r (off - n) len done
    else
      let k := min (n - off) len
      (a + off, k, done) :: spread r 0 (len - k) (done + k)

/-! ### The declared source (R207, R292, R348, R401) -/

/-- The tag bytes at the end of the source of a cipher entry. -/
def cTagIn (e : Bytes) : Nat :=
  let op := eOpcode e
  if cDec e ∧ (op = Opc.aead ∨ op = Opc.mac) then cTagLen e else 0

/-- TAG_LEN', the effective MAC length under VERIFY (R292). -/
def dTagEff (e : Bytes) : Nat := if cTagLen e = 0 then hashL (dAlg e) else cTagLen e

/-- The declared source length S. -/
def srcLen (e : Bytes) : Nat :=
  let op := eOpcode e
  if op ≤ 4 then cAadLen e + cLen e + cTagIn e
  else if op ≤ 6 then cLen e + (if dVerify e then dTagEff e else 0)
  else if op = Opc.keyUnwrap ∨ op = Opc.pkaOp then fld e 16 4
  else 0

/-- The inline rules of R207 and R348, which give MALFORMED with DETAIL 0x0A. -/
def inlineOk (e : Bytes) : Bool :=
  let op := eOpcode e
  let s := srcLen e
  let i := cInline e
  decide (i ≤ s) && decide (i ≤ 32 * eSlots e - 64)
    && (if op ≤ 6 then
          (decide (i ≠ s) || (cSrc e == 0 && !(cSrcSgl e) && cSrcCnt e == 0))
          && (!(cSrcSgl e) || (cSrcCnt e != 0 && cSrc e % 16 == 0)) && (cSrcSgl e || cSrcCnt e == 0)
        else (decide (i ≠ s) || cSrc e == 0) && (decide (i = s) || cSrc e != 0))

/-- The destination-list rules (R206, R208). -/
def dstListOk (e : Bytes) : Bool :=
  (!(cDstSgl e) || (cDstCnt e != 0 && cDst e % 16 == 0)) && (cDstSgl e || cDstCnt e == 0)

end Sys2Proof.Machine
end

