-- ==== Sys2Proof/Machine/DigestFn.lean ====
section
/-! DEFINITION. What a DIGEST or HMAC entry asks for and what a digest lane makes of its source (spec/09 R289 to R306): field
checks, limits, state records and the result. -/

namespace Sys2Proof.Machine

/-- The outer tail length OT (R299). -/
def outerTailLen (alg : Nat) : Nat := (hashPad alg (hashB alg + hashL alg)).length

/-- The outer tail (R299). -/
def outerTail (alg : Nat) : Bytes := hashPad alg (hashB alg + hashL alg)

/-- The body field checks of R292 and R207, DETAIL 0x0A. Under an unknown ALG a TAG_LEN fails when it is outside 0 and 16 to L for every L,
whose greatest is 64. -/
def digestBodyOk (e : Bytes) : Bool :=
  let isHmac := eOpcode e == Opc.hmac
  inlineOk e
    && (isHmac || (cSlot e == 0 && cTagLen e == 0 && !(dVerify e)))
    && (!isHmac || cTagLen e == 0 || decide (16 ≤ cTagLen e ∧ cTagLen e ≤ if hashKnown (dAlg e) then hashL (dAlg e) else 64))
    && (!(dVerify e) || dFinal e) && (!(dHostPad e) || dFinal e)
    && (cDst e != 0) == (dFinal e && !(dVerify e))
    && (dState e != 0) == (!(dInit e) || !(dFinal e)) && dState e % 64 == 0

/-- The limits of R294 that do not depend on COUNT, as their DETAIL. -/
def digestLimit (e : Bytes) : Option Nat :=
  let b := hashB (dAlg e)
  let ot := if eOpcode e = Opc.hmac then outerTailLen (dAlg e) else 0
  let whole := fun n => n % b = 0 ∧ b ≤ n
  if !(dFinal e) then if whole (cLen e) then none else some 0x03
  else if dHostPad e then if ot ≤ cLen e ∧ whole (cLen e - ot) then none else some 0x03
  else none

/-- The message bytes that the entry adds to COUNT (R301). -/
def digestAdds (e : Bytes) : Nat :=
  if dHostPad e ∧ eOpcode e = Opc.hmac then cLen e - outerTailLen (dAlg e) else cLen e

/-- The COUNT limit of R294 after an entry. -/
def digestCountOk (e : Bytes) (count : Nat) : Bool :=
  decide (count + digestAdds e + (if eOpcode e = Opc.hmac then hashB (dAlg e) else 0) ≤ 2 ^ 61 - 1)

/-- The chaining state as bytes 32–231 of a state record (R302). -/
def digestStateBytes (alg : Nat) (h : List Nat) : Bytes :=
  let bs := if 0x11 ≤ alg then h.flatMap (leBytes 8) else h.flatMap (beBytes (if alg = 1 then 4 else 8))
  slice bs 0 200

/-- The chaining state of a state record. -/
def digestStateOf (alg : Nat) (bs : Bytes) : List Nat :=
  if 0x11 ≤ alg then (List.range 25).map (fun i => leNat (slice bs (8 * i) 8))
  else
    let w := if alg = 1 then 4 else 8
    (List.range 8).map (fun i => beNat (slice bs (w * i) w))

/-- The first 32 bytes of a state record (R302, R303). -/
def digestHeader (e : Bytes) (part count : Nat) : Bytes :=
  if eOpcode e = Opc.hmac then
    [0x03, byteOf (dAlg e), byteOf part, 0] ++ leBytes 2 (cSlot e) ++ [0, 0] ++ leBytes 8 count ++ zeros 16
  else [0x02, byteOf (dAlg e)] ++ zeros 6 ++ leBytes 8 count ++ zeros 16

/-- The length of a state record. -/
def digestRecLen (e : Bytes) : Nat := if eOpcode e = Opc.hmac then 288 else 256

/-- The key that wraps HMAC state records, and the key check of a slot's key (R303). -/
def State.dgsKey (s : State) (part slot : Nat) : Bytes := s.devKey "DGS" ([byteOf part] ++ beBytes 2 slot)
def State.dgkCheck (s : State) (mat : Bytes) : Bytes := cmac (s.devKey "DGK" []) mat

/-- A state record (R302, R303). -/
def State.digestRecord (s : State) (e : Bytes) (part count : Nat) (h : List Nat) (mat : Bytes) : Bytes :=
  let hd := digestHeader e part count
  let st := digestStateBytes (dAlg e) h
  if eOpcode e = Opc.hmac then hd ++ kwWrap (s.dgsKey part (cSlot e)) (hd ++ st ++ s.dgkCheck mat)
  else hd ++ st ++ zeros 24

/-- The clear part of a state record passes the second check of R304. -/
def digestRecOk (e rec_ : Bytes) : Bool :=
  let hmac := eOpcode e == Opc.hmac
  slice rec_ 0 1 == [if hmac then 0x03 else 0x02] && slice rec_ 1 1 == [byteOf (dAlg e)]
    && leNat (slice rec_ 8 8) % hashB (dAlg e) == 0
    && (if hmac then zeroAt rec_ 3 1 && zeroAt rec_ 6 2 && zeroAt rec_ 16 16
        else zeroAt rec_ 2 6 && zeroAt rec_ 16 16 && zeroAt rec_ 232 24
          && (if 0x11 ≤ dAlg e then true else if dAlg e = 1 then zeroAt rec_ 64 168 else zeroAt rec_ 96 136))

/-- COUNT of a state record. -/
def digestCount (rec_ : Bytes) : Nat := leNat (slice rec_ 8 8)

/-- The inner state that a keyed record restores, or the status and DETAIL of its failed check (R304). -/
def State.hmacRestore (s : State) (e rec_ : Bytes) (part : Nat) (mat : Bytes) : Except (Nat × Nat) (List Nat) :=
  match kwUnwrap (s.dgsKey part (cSlot e)) (slice rec_ 32 256) with
  | none => .error (St.contextInvalid, 0x06)
  | some u =>
    if slice u 0 32 == slice rec_ 0 32 && slice rec_ 2 1 == [byteOf part] && leNat (slice rec_ 4 2) == cSlot e
      && slice u 232 16 == s.dgkCheck mat
    then .ok (digestStateOf (dAlg e) (slice u 32 200)) else .error (St.contextInvalid, 0x07)

/-- The state that a message starts from (R297, R298). -/
def digestStart (e mat : Bytes) : List Nat :=
  if eOpcode e = Opc.hmac then hashBlock (dAlg e) (hashInit (dAlg e)) (hmacPad (dAlg e) mat 0x36) else hashInit (dAlg e)

/-- What a digest lane makes of an entry. -/
inductive DigestOut where
  | record (count : Nat) (h : List Nat)
  | result (bs : Bytes)
  | badTail
  deriving DecidableEq, Repr

/-- The lane's work on the source from a chaining state and COUNT (R296 to R301). -/
def digestRun (e : Bytes) (h : List Nat) (count : Nat) (mat m : Bytes) : DigestOut :=
  let alg := dAlg e
  let isHmac := decide (eOpcode e = Opc.hmac)
  let n := digestAdds e
  if !(dFinal e) then .record (count + n) (hashBlocks alg h m)
  else
    let total := count + n + (if isHmac then hashB alg else 0)
    let inner := hashOut alg (hashBlocks alg h (m.take n ++ (if dHostPad e then [] else hashPad alg total)))
    if isHmac then
      if dHostPad e && m.drop n != outerTail alg then .badTail
      else
        let h2 := hashBlock alg (hashInit alg) (hmacPad alg mat 0x5c)
        .result ((hashOut alg (hashBlocks alg h2 (inner ++ outerTail alg))).take (dTagEff e))
    else .result inner

end Sys2Proof.Machine
end

