-- ==== Sys2Proof/Machine/Drbg.lean ====
section
/-! DEFINITION. The DRBG (spec/11 R370): a CTR_DRBG of SP 800-90A with AES-256 and a derivation function. The entropy is a free
value, the construction is computed. -/

namespace Sys2Proof.Machine

/-- The seed length of AES-256: a key and a block. -/
def seedLen : Nat := 48

/-- BCC: the CBC-MAC of whole blocks. -/
def bcc (ks : List (List Nat)) (m : Bytes) : Bytes := (chunks 16 m).foldl (fun c b => aesEncK ks (xorBytes c b)) (zeros 16)

/-- Block_Cipher_df to a seed. -/
def blockDf (input : Bytes) : Bytes :=
  let body := beBytes 4 input.length ++ beBytes 4 seedLen ++ input ++ [0x80]
  let body := body ++ zeros ((16 - body.length % 16) % 16)
  let ks := aesKeys ((List.range 32).map byteOf)
  let temp := (List.range 3).flatMap (fun i => bcc ks (beBytes 4 i ++ zeros 12 ++ body))
  let k := aesKeys (temp.take 32)
  let x1 := aesEncK k (slice temp 32 16)
  let x2 := aesEncK k x1
  x1 ++ x2 ++ aesEncK k x2

/-- The blocks that follow V under a key. -/
def drbgBlocks (ks : List (List Nat)) : Nat → Bytes → Bytes
  | 0, _ => []
  | n + 1, v => let w := incLow 128 v; aesEncK ks w ++ drbgBlocks ks n w

/-- CTR_DRBG_Update: the new Key and V. -/
def drbgUpdate (key v provided : Bytes) : Bytes × Bytes :=
  let x := xorBytes (drbgBlocks (aesKeys key) 3 v) provided
  (x.take 32, x.drop 32)

/-- V after blocks have been taken. -/
def drbgSkip : Nat → Bytes → Bytes
  | 0, v => v
  | n + 1, v => drbgSkip n (incLow 128 v)

/-- One generate request: the bytes, and the Key and V that follow. -/
def drbgGenerate (key v : Bytes) (n : Nat) : Bytes × (Bytes × Bytes) :=
  let b := cdiv n 16
  ((drbgBlocks (aesKeys key) b v).take n, drbgUpdate key (drbgSkip b v) (zeros seedLen))

/-- Samples of the entropy source, in bytes. -/
def State.entropy (s : State) (n : Nat) : Bytes × State :=
  ((List.range n).map (fun i => Config.entropyByte (s.free + i)), { s with free := s.free + n })

/-- Instantiation from the 1024 startup samples (R370). -/
def State.instantiate (s : State) : State :=
  let (e, t) := s.entropy 128
  let kv := drbgUpdate (zeros 32) (zeros 16) (blockDf e)
  { t with rng := { t.rng with key := kv.1, v := kv.2, count := 0 } }

/-- A reseed with 768 new samples, applied in one step (R370). -/
def State.reseed (s : State) : State :=
  let (e, t) := s.entropy 96
  let kv := drbgUpdate s.rng.key s.rng.v (blockDf e)
  { t with rng := { t.rng with key := kv.1, v := kv.2, count := 0 } }

/-- A draw is one generate request; the 2^20th starts a reseed (R370). -/
def State.drbg (s : State) (n : Nat) : Bytes × State :=
  let g := drbgGenerate s.rng.key s.rng.v n
  (g.1, { s with rng := { s.rng with
    key := g.2.1, v := g.2.2, count := s.rng.count + 1
    reseeding := s.rng.reseeding || (s.rng.ready && decide (2 ^ 20 ≤ s.rng.count + 1)) } })

end Sys2Proof.Machine
end

