-- ==== Sys2Proof/Machine/CipherFn.lean ====
section
/-! DEFINITION. What a cipher entry asks for and what a lane makes of its source (spec/06 R204 to R224): field checks,
policy, limits, and the output string with its tag. -/

namespace Sys2Proof.Machine

/-! ### Checks -/

/-- The IV source that R211 gives. -/
inductive IvSource where
  | none | field | ledger | drbg
  deriving DecidableEq, Repr

/-- A key's mode belongs to the AEAD modes and GMAC, which may take a ledger nonce. -/
def ledgerMode (m : Nat) : Bool := m == mGcm || m == mGmac || m == mChacha || m == mCcm

/-- The IV source for an entry under a slot's attributes (R211). -/
def ivSource (e : Bytes) (a : KeyAttr) : IvSource :=
  let m := cMode e
  if m = mEcb ∨ m = mCmac then .none
  else if m = mXts then .field
  else if cDec e || cExtIv e then .field
  else if a.ledger && ledgerMode m then .ledger
  else .drbg

/-- The length of a built IV (R212). -/
def ivLen (e : Bytes) : Nat :=
  let m := cMode e
  if m = mCbc ∨ m = mCtr ∨ m = mXts then 16 else if m = mCcm then cParam e % 256 else 12

/-- TAG_LEN is in its mode's set or among the unsupported values (R218). -/
def tagLenOk (e : Bytes) : Bool :=
  let m := cMode e
  let t := cTagLen e
  if m = mGcm ∨ m = mGmac then [4, 8, 12, 13, 14, 15, 16].contains t
  else if m = mCcm then [4, 6, 8, 10, 12, 14, 16].contains t
  else if m = mChacha then t == 16
  else if m = mCmac then decide (1 ≤ t ∧ t ≤ 16)
  else if m = mXts then t == 0
  else decide (t ≤ 1)

/-- MPARAM's value is in its mode's set or among the unsupported values (R218). -/
def paramValOk (e : Bytes) : Bool :=
  let m := cMode e
  if m = mXts then decide (16 ≤ cParam e ∧ cParam e ≤ 2 ^ 24)
  else if m = mCcm then decide (7 ≤ cParam e ∧ cParam e ≤ 13)
  else if m = mCtr then decide (1 ≤ cParam e ∧ cParam e ≤ 128)
  else true

/-- The body field checks: false gives MALFORMED with DETAIL 0x0A (R204 to R208, R211, R217, R218, R221). -/
def cipherBodyOk (e : Bytes) : Bool :=
  let m := cMode e
  let op := eOpcode e
  inlineOk e && dstListOk e
    && (modeOpcode m == 0 || modeOpcode m == op)
    && (modeOpcode m == 0 ||
        (tagLenOk e && paramValOk e
         && (op == Opc.aead || cAadLen e == 0)
         && !(m == mCtr && cTagLen e == 1)
         && !((m == mEcb || m == mCmac) && cExtIv e)
         && !(cDec e && !(cExtIv e) && (m == mCbc || m == mCtr || ledgerMode m))
         && !(op == Opc.aead && cDec e && !(cStream e) && decide (262144 < cLen e))))
    && !(op == Opc.mac && cDec e && (cDst e != 0 || cDstSgl e))

/-- MODE is absent or a value is unsupported (R204, R218). -/
def cipherUnsupported (e : Bytes) : Bool :=
  let m := cMode e
  modeOpcode m == 0
    || ((m == mGcm || m == mGmac) && cTagLen e == 4)
    || (m == mCtr && !([32, 64, 128].contains (cParam e)))
    || (m == mCmac && decide (cTagLen e < 8))

/-- The key's algorithm and length serve MODE (R204). -/
def algServes (m alg : Nat) : Bool :=
  if m = mXts then alg == 4 || alg == 5 else if m = mChacha then alg == 6 else decide (1 ≤ alg ∧ alg ≤ 3)

/-- The use flag checked (R204). -/
def useFor (e : Bytes) : Nat := if eOpcode e = Opc.mac then useMac else if cDec e then useDec else useEnc

/-- The counter field of CTR does not pass 2^CTR_BITS − 1 (R218). A built block starts with its low bits 0 (R212). -/
def ctrOk (e : Bytes) : Bool :=
  let bits := cParam e
  let n := cdiv (cLen e) 16
  if cExtIv e ∨ cDec e then decide (beNat (slice e 48 16) % 2 ^ bits + n ≤ 2 ^ bits)
  else decide (n ≤ 2 ^ min bits 64)

/-- The limits that give LENGTH_MISMATCH, as their DETAIL (R218). -/
def cipherLimit (e : Bytes) : Option Nat :=
  let m := cMode e
  let n := cLen e
  if m = mEcb ∨ m = mCbc then
    if cTagLen e = 1 ∧ !(cDec e) then (if 2 ^ 48 - 17 < n then some 0x04 else none)
    else if n % 16 ≠ 0 ∨ n = 0 then some 0x03 else none
  else if m = mCtr then if n = 0 then some 0x03 else if ctrOk e then none else some 0x04
  else if m = mGcm then if (2 ^ 32 - 2) * 16 < n then some 0x04 else none
  else if m = mGmac then if 2 ^ 32 ≤ n then some 0x04 else none
  else if m = mCcm then if 2 ^ (8 * (15 - cParam e)) ≤ n then some 0x04 else none
  else if m = mChacha then if (2 ^ 32 - 1) * 64 < n then some 0x04 else none
  else if m = mXts then if n < 16 ∨ n % cParam e ≠ 0 then some 0x03 else none
  else none

/-! ### Output -/

/-- The payload output length (R221). -/
def payloadOut (e : Bytes) : Nat :=
  let m := cMode e
  if eOpcode e = Opc.mac then 0
  else if (m = mEcb ∨ m = mCbc) ∧ cTagLen e = 1 ∧ !(cDec e) then cLen e + 16 - cLen e % 16
  else cLen e

/-- The tag bytes written (R221). -/
def tagOut (e : Bytes) : Nat :=
  if !(cDec e) ∧ (eOpcode e = Opc.aead ∨ eOpcode e = Opc.mac) then cTagLen e else 0

/-- The output length O, with the length of a built IV (R221). -/
def outLen (e : Bytes) (builtIv : Nat) : Nat := builtIv + payloadOut e + tagOut e

/-- PKCS#7 padding (R216). -/
def pkcs7 (m : Bytes) : Bytes := let k := 16 - m.length % 16; m ++ List.replicate k (byteOf k)

/-- RESULT of a padded decryption (R217). -/
def padResult (m : Bytes) : Nat :=
  let k := (m.getLast?.getD 0).toNat
  if 1 ≤ k ∧ k ≤ 16 ∧ (m.drop (m.length - k)).all (fun b => b == byteOf k) then m.length - k else 2 ^ 63 + m.length

/-- The units of an XTS payload under consecutive tweaks (R215). -/
def xtsAll (key : Bytes) (dec : Bool) (n : Nat) : List Bytes → Nat → Bytes
  | [], _ => []
  | u :: us, j => xtsUnit key dec (leBytes 16 ((n + j) % 2 ^ 128)) u ++ xtsAll key dec n us (j + 1)

/-- The payload transformed (R215). -/
def payloadOf (e key iv m : Bytes) : Bytes :=
  let mode := cMode e
  if mode = mEcb then if cDec e then ecbDec key m else ecbEnc key (if cTagLen e = 1 then pkcs7 m else m)
  else if mode = mCbc then if cDec e then cbcDec key iv m else cbcEnc key iv (if cTagLen e = 1 then pkcs7 m else m)
  else if mode = mCtr then ctrCrypt (cParam e) key iv m
  else if mode = mGcm then gcmCrypt key iv m
  else if mode = mCcm then ccmCrypt key iv m
  else if mode = mChacha then chachaCrypt key iv m
  else if mode = mXts then xtsAll key (cDec e) (leNat iv) (chunks (cParam e) m) 0
  else []

/-- The tag over additional data and payload, `pt` plaintext and `ct` ciphertext (R215). -/
def tagOf (e key iv aad pt ct : Bytes) : Bytes :=
  let mode := cMode e
  (if mode = mGcm then gcmTag key iv aad ct
   else if mode = mCcm then ccmTag key iv aad pt (cTagLen e)
   else if mode = mChacha then chachaTag key iv aad ct
   else if mode = mGmac then gcmTag key iv pt []
   else if mode = mCmac then cmac key pt
   else []).take (cTagLen e)

/-- What a lane makes of a request: the output ahead of the tag, the tag to write, whether a tag check passed, and RESULT
as the padding gives it. -/
structure LaneOut where
  body   : Bytes
  tag    : Bytes
  tagOk  : Bool
  result : Nat
  deriving DecidableEq, Repr

/-- A request's lane work on its whole source (R215 to R217, R224). -/
def laneOut (e key iv builtIv src : Bytes) : LaneOut :=
  let aad := slice src 0 (cAadLen e)
  let m := slice src (cAadLen e) (cLen e)
  let out := payloadOf e key iv m
  let given := slice src (cAadLen e + cLen e) (cTagIn e)
  if eOpcode e = Opc.mac then
    let t := tagOf e key iv aad m m
    if cDec e then ⟨[], [], given == t, 0⟩ else ⟨builtIv, t, true, 0⟩
  else if eOpcode e = Opc.aead then
    if cDec e then ⟨out, [], given == tagOf e key iv aad out m, 0⟩
    else ⟨builtIv ++ out, tagOf e key iv aad m out, true, 0⟩
  else
    ⟨builtIv ++ out, [], true,
      if cDec e ∧ cTagLen e = 1 ∧ (cMode e = mEcb ∨ cMode e = mCbc) then padResult out else 0⟩

/-! ### Groves (R236 to R243) -/

/-- The desired grove size; 1 for a request that is not eligible (R236). -/
def groveWant (e : Bytes) (maxLanes segKib : Nat) : Nat :=
  let m := cMode e
  let seg := max 1 segKib * 1024
  let ml := min 8 maxLanes
  if (m = mGcm ∨ m = mCtr ∨ (m = mXts ∧ 2 * cParam e ≤ cLen e)) ∧ 2 ≤ ml ∧ 2 * seg ≤ cLen e then
    min (min ml (cLen e / seg)) (if m = mXts then cLen e / cParam e else cLen e)
  else 1

/-- The pieces dealt out to g lanes: n pieces, the later lanes taking the larger count (R241, R243). -/
def deal (n g : Nat) : List (Nat × Nat) :=
  (List.range g).map (fun j =>
    let k := g - n % g
    (j * (n / g) + (j - k), n / g + (if k ≤ j then 1 else 0)))

/-- The segments of a grove on its lanes in ascending order: first 16-byte block or data unit, and length in them. -/
def groveSegs (e : Bytes) (lanes : List Nat) : List Segment :=
  let g := lanes.length
  let mk := fun (p : Nat × Nat) (l : Nat) => Segment.mk p.1 p.2 (some l) false 0 [] 0 0
  if cMode e = mXts then List.zipWith mk (deal (cLen e / cParam e) g) lanes
  else
    let k := cdiv (cLen e) 16
    (List.zipWith mk (deal (cdiv k 64) g) lanes).map (fun s =>
      { s with start := 64 * s.start, len := min (64 * s.len) (k - 64 * s.start) })

/-- The bytes of one unit of splitting. -/
def splitBytes (e : Bytes) : Nat := if cMode e = mXts then cParam e else 16

/-- The offset of a segment in the payload, and its bytes. -/
def Segment.off (g : Segment) (e : Bytes) : Nat := g.start * splitBytes e
def Segment.size (g : Segment) (e : Bytes) : Nat := min (g.len * splitBytes e) (cLen e - g.off e)

/-- What the trunk's record holds of a segment stopped after `n` payload bytes, whose ciphertext so far is `ct` (R253): position,
the counter block or data unit number of the next block, and the partial GHASH value. -/
def Segment.stop (g : Segment) (e key iv : Bytes) (n : Nat) (ct : Bytes) : Segment :=
  let b := g.start + n / splitBytes e
  let low := 2 ^ cParam e
  { g with
    lane := none, pos := n
    ctr := if cMode e = mGcm then iv ++ beBytes 4 ((b + 2) % 2 ^ 32)
           else if cMode e = mCtr then let c := beNat iv; beBytes 16 (c / low * low + (c + b) % low)
           else leBytes 16 ((leNat iv + b) % 2 ^ 128)
    hash := if cMode e = mGcm then ghash (beNat (aesEnc key (zeros 16))) ct else 0 }

/-! ### Suspension points (R235) -/

/-- The payload bytes that a number of blocks make: 64 bytes of ChaCha20, else 16; the last block of a data unit may be short. -/
def blockBytes (e : Bytes) (m : Nat) : Nat :=
  if cMode e = mXts then let n := cdiv (cParam e) 16; m / n * cParam e + min (cParam e) (16 * (m % n))
  else if cMode e = mChacha then 64 * m else 16 * m

/-- A lane whose work covers `total` payload bytes can stop after `m` blocks: at no boundary from the last block on, nor between the
last two blocks of a data unit that ends with ciphertext stealing. -/
def canStop (e : Bytes) (total m : Nat) : Bool :=
  (m == 0 || decide (blockBytes e m < total))
    && !(cMode e == mXts && cParam e % 16 != 0 && m % cdiv (cParam e) 16 + 1 == cdiv (cParam e) 16)

/-- Payload bytes cut down to whole blocks, of XTS to whole data units. -/
def wholeBlocks (e : Bytes) (n : Nat) : Nat :=
  let k := if cMode e = mXts then max 1 (cParam e) else if cMode e = mChacha then 64 else 16
  n / k * k

end Sys2Proof.Machine
end

