-- ==== Sys2Proof/Machine/Curve.lean ====
section
/-! DEFINITION. The number arithmetic of the public-key functions: modular powers, the curves of FIPS 186-5 and SP 800-186,
RFC 7748, and the RSA encodings of RFC 8017, as spec/11 R344 and R353 name them (log entry 15). -/

namespace Sys2Proof.Machine

/-! ### Modular arithmetic -/

/-- A power modulo m; `n` bounds the bits of the exponent. -/
def powModAux (m : Nat) : Nat → Nat → Nat → Nat → Nat
  | 0, _, _, acc => acc
  | n + 1, b, e, acc => powModAux m n (b * b % m) (e / 2) (if e % 2 = 1 then acc * b % m else acc)

/-- b^e modulo m. -/
def powMod (b e m : Nat) : Nat := powModAux m (e.log2 + 1) (b % m) e (1 % m)

/-- The inverse modulo a prime. -/
def invMod (a p : Nat) : Nat := powMod a (p - 2) p

/-- a − b modulo m. -/
def subMod (a b m : Nat) : Nat := (a % m + m - b % m) % m

/-! ### Short Weierstrass curves with a = −3 -/

/-- Field prime, coefficient b, order, base point, length L. -/
structure PCurve where
  p  : Nat
  b  : Nat
  n  : Nat
  gx : Nat
  gy : Nat
  l  : Nat
  deriving DecidableEq, Repr

def p256 : PCurve where
  p := 2 ^ 256 - 2 ^ 224 + 2 ^ 192 + 2 ^ 96 - 1
  b := 0x5ac635d8aa3a93e7b3ebbd55769886bc651d06b0cc53b0f63bce3c3e27d2604b
  n := 0xffffffff00000000ffffffffffffffffbce6faada7179e84f3b9cac2fc632551
  gx := 0x6b17d1f2e12c4247f8bce6e563a440f277037d812deb33a0f4a13945d898c296
  gy := 0x4fe342e2fe1a7f9b8ee7eb4a7c0f9e162bce33576b315ececbb6406837bf51f5
  l := 32

def p384 : PCurve where
  p := 2 ^ 384 - 2 ^ 128 - 2 ^ 96 + 2 ^ 32 - 1
  b := 0xb3312fa7e23ee7e4988e056be3f82d19181d9c6efe8141120314088f5013875ac656398d8a2ed19d2a85c8edd3ec2aef
  n := 0xffffffffffffffffffffffffffffffffffffffffffffffffc7634d81f4372ddf581a0db248b0a77aecec196accc52973
  gx := 0xaa87ca22be8b05378eb1c71ef320ad746e1d3b628ba79b9859f741e082542a385502f25dbf55296c3a545e3872760ab7
  gy := 0x3617de4a96262c6f5d9e98bf9292dc29f8f41dbd289a147ce9da3113b5f0b8c00a60b1ce1d7e819d7a431d7c90ea0e5f
  l := 48

def p521 : PCurve where
  p := 2 ^ 521 - 1
  b := 0x051953eb9618e1c9a1f929a21a0b68540eea2da725b99b315f3b8b489918ef109e156193951ec7e937b1652c0bd3bb1bf073573df883d2c34f1ef451fd46b503f00
  n := 0x01fffffffffffffffffffffffffffffffffffffffffffffffffffffffffffffffffa51868783bf2f966b7fcc0148f709a5d03bb5c9b8899c47aebb6fb71e91386409
  gx := 0xc6858e06b70404e9cd9e3ecb662395b4429c648139053fb521f828af606b4d3dbaa14b5e77efe75928fe1dc127a2ffa8de3348b3c1856a429bf97e7e31c2e5bd66
  gy := 0x11839296a789a3bc0045c8a5fb42c7d1bd998f54449579b446817afbd17273e662c97ee72995ef42640c550b9013fad0761353c7086a272c24088be94769fd16650
  l := 66

/-- The curve of an ALGO or a key type. -/
def pCurveOf (algo : Nat) : PCurve := if algo = 1 then p256 else if algo = 2 then p384 else p521

/-- A point; none is the point at infinity. -/
abbrev Pt := Option (Nat × Nat)

/-- The point lies on the curve. -/
def PCurve.on (c : PCurve) (x y : Nat) : Bool := y * y % c.p == (x * x * x + c.b + 3 * (c.p - x % c.p)) % c.p

/-- The sum of two points. -/
def PCurve.add (c : PCurve) (a b : Pt) : Pt :=
  match a, b with
  | none, q => q
  | q, none => q
  | some (x1, y1), some (x2, y2) =>
    if x1 = x2 ∧ (y1 + y2) % c.p = 0 then none
    else
      let m := if x1 = x2 then (3 * x1 * x1 + c.p - 3) * invMod (2 * y1) c.p % c.p
               else subMod y2 y1 c.p * invMod (subMod x2 x1 c.p) c.p % c.p
      let x := subMod (m * m) (x1 + x2) c.p
      some (x, subMod (m * subMod x1 x c.p) y1 c.p)

def PCurve.mulAux (c : PCurve) : Nat → Nat → Pt → Pt → Pt
  | 0, _, _, acc => acc
  | n + 1, k, q, acc => PCurve.mulAux c n (k / 2) (c.add q q) (if k % 2 = 1 then c.add acc q else acc)

/-- k times a point. -/
def PCurve.mul (c : PCurve) (k : Nat) (q : Pt) : Pt := PCurve.mulAux c (k.log2 + 1) k q none

def PCurve.g (c : PCurve) : Pt := some (c.gx, c.gy)

/-- The SEC 1 uncompressed encoding; infinity is all zeros (R345). -/
def PCurve.enc (c : PCurve) : Pt → Bytes
  | none => zeros (1 + 2 * c.l)
  | some (x, y) => [4] ++ beBytes c.l x ++ beBytes c.l y

/-- A digest as the integer of FIPS 186-5: its leftmost bits. -/
def PCurve.zOf (c : PCurve) (d : Bytes) : Nat := beNat d / 2 ^ (8 * d.length - (c.n.log2 + 1))

/-- The x coordinate, 0 at infinity. -/
def ptX (q : Pt) : Nat := q.elim 0 (·.1)

/-- An ECDSA signature under nonce k; none when r or s is 0. -/
def PCurve.sign (c : PCurve) (d k z : Nat) : Option (Nat × Nat) :=
  let r := ptX (c.mul k c.g) % c.n
  let s := invMod k c.n * (z + r * d) % c.n
  if r = 0 ∨ s = 0 then none else some (r, s)

/-- The ECDSA equation. -/
def PCurve.verify (c : PCurve) (q : Pt) (z r s : Nat) : Bool :=
  let w := invMod s c.n
  match c.add (c.mul (z * w % c.n) c.g) (c.mul (r * w % c.n) q) with
  | none => false
  | some (x, _) => x % c.n == r

/-! ### Curve25519 -/

def p25519 : Nat := 2 ^ 255 - 19
def l25519 : Nat := 2 ^ 252 + 27742317777372353535851937790883648493

/-- The clamped scalar. -/
def clamp (k : Bytes) : Nat := (leNat k % 2 ^ 254) / 8 * 8 + 2 ^ 254

/-- One step of the Montgomery ladder. -/
def ladderStep (x1 : Nat) (st : Nat × Nat × Nat × Nat) (bit : Bool) : Nat × Nat × Nat × Nat :=
  let p := p25519
  let (x2, z2, x3, z3) := if bit then (st.2.2.1, st.2.2.2, st.1, st.2.1) else st
  let a := (x2 + z2) % p
  let b := subMod x2 z2 p
  let c := (x3 + z3) % p
  let d := subMod x3 z3 p
  let da := d * a % p
  let cb := c * b % p
  let aa := a * a % p
  let bb := b * b % p
  let e := subMod aa bb p
  let x5 := (da + cb) * (da + cb) % p
  let z5 := x1 * (subMod da cb p * subMod da cb p % p) % p
  let x4 := aa * bb % p
  let z4 := e * ((aa + 121665 * e) % p) % p
  if bit then (x5, z5, x4, z4) else (x4, z4, x5, z5)

/-- X25519 (RFC 7748). -/
def x25519 (k u : Bytes) : Bytes :=
  let x1 := leNat u % 2 ^ 255 % p25519
  let s := clamp k
  let r := ((List.range 255).reverse.map (fun i => s.testBit i)).foldl (ladderStep x1) (1, 0, x1, 1)
  leBytes 32 (r.1 * invMod r.2.1 p25519 % p25519)

def ed25519D : Nat := subMod 0 (121665 * invMod 121666 p25519) p25519

/-- The sum of two points of edwards25519. -/
def edAdd (a b : Nat × Nat) : Nat × Nat :=
  let p := p25519
  let t := ed25519D * (a.1 * b.1 % p) % p * (a.2 * b.2 % p) % p
  ((a.1 * b.2 + a.2 * b.1) % p * invMod (1 + t) p % p, (a.2 * b.2 + a.1 * b.1) % p * invMod (subMod 1 t p) p % p)

def edMulAux : Nat → Nat → Nat × Nat → Nat × Nat → Nat × Nat
  | 0, _, _, acc => acc
  | n + 1, k, q, acc => edMulAux n (k / 2) (edAdd q q) (if k % 2 = 1 then edAdd acc q else acc)

/-- k times a point of edwards25519. -/
def edMul (k : Nat) (q : Nat × Nat) : Nat × Nat := edMulAux (k.log2 + 1) k q (0, 1)

/-- The x coordinate for y with a sign bit, if it exists. -/
def edX (y sign : Nat) : Option Nat :=
  let p := p25519
  let x2 := subMod (y * y) 1 p * invMod (ed25519D * (y * y % p) + 1) p % p
  let x := powMod x2 ((p + 3) / 8) p
  let x := if x * x % p = x2 then x else x * powMod 2 ((p - 1) / 4) p % p
  if x * x % p ≠ x2 then none
  else if x = 0 ∧ sign = 1 then none
  else some (if x % 2 = sign then x else p - x)

def edEnc (q : Nat × Nat) : Bytes := leBytes 32 (q.2 + 2 ^ 255 * (q.1 % 2))

/-- The y of an encoding, and its point if it decodes. -/
def edY (b : Bytes) : Nat := leNat b % 2 ^ 255
def edDec (b : Bytes) : Option (Nat × Nat) := (edX (edY b) (leNat b / 2 ^ 255)).map (fun x => (x, edY b))

def edBase : Nat × Nat :=
  let y := 4 * invMod 5 p25519 % p25519
  ((edX y 0).getD 0, y)

/-- SHA-512 as a little-endian number modulo the group order. -/
def edHash (m : Bytes) : Nat := leNat (hash 3 m) % l25519

/-- The public key of a seed. -/
def edPub (seed : Bytes) : Bytes := edEnc (edMul (clamp ((hash 3 seed).take 32)) edBase)

/-- PureEdDSA (R353). -/
def edSign (seed m : Bytes) : Bytes :=
  let h := hash 3 seed
  let r := edHash (h.drop 32 ++ m)
  let rb := edEnc (edMul r edBase)
  let k := edHash (rb ++ edPub seed ++ m)
  rb ++ leBytes 32 ((r + k * clamp (h.take 32)) % l25519)

/-- The cofactored equation for a decoded key and R (R353). -/
def edVerify (a r : Nat × Nat) (ab rb : Bytes) (s : Nat) (m : Bytes) : Bool :=
  edMul 8 (edMul s edBase) == edMul 8 (edAdd r (edMul (edHash (rb ++ ab ++ m)) a))

/-! ### RSA encodings (RFC 8017) -/

/-- The DigestInfo prefix of a hash. -/
def digestInfo (alg : Nat) : Bytes :=
  let h := hashL alg
  [0x30, byteOf (h + 17), 0x30, 0x0d, 0x06, 0x09, 0x60, 0x86, 0x48, 0x01, 0x65, 0x03, 0x04, 0x02, byteOf alg, 0x05, 0x00, 0x04,
   byteOf h]

/-- EMSA-PKCS1-v1_5 of a digest. -/
def pkcs1Encode (alg k : Nat) (d : Bytes) : Bytes :=
  let t := digestInfo alg ++ d
  [0, 1] ++ List.replicate (k - t.length - 3) 0xff ++ [0] ++ t

/-- MGF1. -/
def mgf1 (alg : Nat) (seed : Bytes) (n : Nat) : Bytes :=
  ((List.range (cdiv n (hashL alg))).flatMap (fun i => hash alg (seed ++ beBytes 4 i))).take n

/-- EMSA-PSS of a digest with a salt; the modulus has 8k bits. -/
def pssEncode (alg k : Nat) (d salt : Bytes) : Bytes :=
  let h := hash alg (zeros 8 ++ d ++ salt)
  let db := zeros (k - salt.length - h.length - 2) ++ [1] ++ salt
  let m := xorBytes db (mgf1 alg h db.length)
  (m.take 1).map (· &&& 0x7f) ++ m.drop 1 ++ h ++ [0xbc]

/-- The check of EMSA-PSS with a salt as long as the digest. -/
def pssVerify (alg k : Nat) (d em : Bytes) : Bool :=
  let hl := hashL alg
  let m := em.take (k - hl - 1)
  let h := slice em (k - hl - 1) hl
  let x := xorBytes m (mgf1 alg h m.length)
  let db := (x.take 1).map (· &&& 0x7f) ++ x.drop 1
  let salt := db.drop (db.length - hl)
  em.drop (k - 1) == [0xbc] && (m.take 1).all (fun b => decide (b.toNat < 128))
    && db.take (db.length - hl) == zeros (k - 2 * hl - 2) ++ [1] && h == hash alg (zeros 8 ++ d ++ salt)

/-- EME-OAEP with an empty label. -/
def oaepEncode (alg k : Nat) (m seed : Bytes) : Bytes :=
  let hl := hashL alg
  let db := hash alg [] ++ zeros (k - m.length - 2 * hl - 2) ++ [1] ++ m
  let mdb := xorBytes db (mgf1 alg seed db.length)
  [0] ++ xorBytes seed (mgf1 alg mdb hl) ++ mdb

/-- The message of an OAEP block. -/
def oaepDecode (alg k : Nat) (em : Bytes) : Option Bytes :=
  let hl := hashL alg
  let mdb := em.drop (1 + hl)
  let seed := xorBytes (slice em 1 hl) (mgf1 alg mdb hl)
  let db := xorBytes mdb (mgf1 alg seed (k - hl - 1))
  let t := (db.drop hl).dropWhile (· == 0)
  if em.take 1 == [0] && db.take hl == hash alg [] && t.take 1 == [1] then some (t.drop 1) else none

/-- The components of an RSA key (R397). -/
structure RsaKey where
  k  : Nat
  n  : Nat
  e  : Nat
  p  : Nat
  q  : Nat
  dp : Nat
  dq : Nat
  qi : Nat
  deriving DecidableEq, Repr

/-- The components from the material. -/
def rsaOf (mat : Bytes) : RsaKey :=
  let k := (mat.length - 4) * 2 / 7
  let part := fun i => beNat (slice mat (k + 4 + i * (k / 2)) (k / 2))
  { k := k, n := beNat (slice mat 0 k), e := beNat (slice mat k 4), p := part 0, q := part 1, dp := part 2, dq := part 3
    qi := part 4 }

/-- The private operation by CRT. -/
def rsaPrivate (r : RsaKey) (c : Nat) : Nat :=
  let m1 := powMod c r.dp r.p
  let m2 := powMod c r.dq r.q
  m2 + r.q * (r.qi * subMod m1 m2 r.p % r.p)

end Sys2Proof.Machine
end

