-- ==== Sys2Proof/Machine/Lattice.lean ====
section
/-! DEFINITION. The lattice functions that spec/11 R344 and R353 name: ML-KEM-768 and ML-KEM-1024 (FIPS 203), ML-DSA-65 and
ML-DSA-87 (FIPS 204) (log entry 14). -/

namespace Sys2Proof.Machine

/-! ### SHAKE -/

def squeeze (rate : Nat) : Nat → List Nat → Bytes
  | 0, _ => []
  | n + 1, a => (a.flatMap (leBytes 8)).take rate ++ squeeze rate n (sha3Block a (zeros rate))

/-- The first `n` bytes of SHAKE with a rate. -/
def shake (rate : Nat) (m : Bytes) (n : Nat) : Bytes :=
  let z := rate - 1 - m.length % rate
  let p := if z = 0 then m ++ [0x9f] else m ++ [0x1f] ++ zeros (z - 1) ++ [0x80]
  (squeeze rate (cdiv n rate) ((chunks rate p).foldl sha3Block (List.replicate 25 0))).take n

def shake128 (m : Bytes) (n : Nat) : Bytes := shake 168 m n
def shake256 (m : Bytes) (n : Nat) : Bytes := shake 136 m n

/-! ### Polynomials: 256 coefficients below q -/

abbrev Poly := List Nat

def pAdd (q : Nat) (a b : Poly) : Poly := List.zipWith (fun x y => (x + y) % q) a b
def pSub (q : Nat) (a b : Poly) : Poly := List.zipWith (fun x y => (x + q - y) % q) a b
def pZero : Poly := List.replicate 256 0

/-- The low `n` bits reversed. -/
def bitRev : Nat → Nat → Nat
  | 0, _ => 0
  | n + 1, x => x % 2 * 2 ^ n + bitRev n (x / 2)

/-- b^e modulo q for small exponents. -/
def powQ (q b : Nat) : Nat → Nat
  | 0 => 1
  | e + 1 => b * powQ q b e % q

/-- The value of a polynomial at a point modulo q. -/
def evalAt (q x : Nat) (p : List Nat) : Nat := p.foldr (fun c acc => (c + x * acc) % q) 0

/-- Bits of a byte string, least significant first. -/
def bitsOf (b : Bytes) : List Nat := b.flatMap (fun x => (List.range 8).map (fun i => x.toNat / 2 ^ i % 2))

/-- The number with the given bits, least significant first. -/
def ofBits (l : List Nat) : Nat := l.foldr (fun b acc => b + 2 * acc) 0

/-- Pieces of `n` elements. -/
def groupsAux (n : Nat) : Nat → List Nat → List (List Nat)
  | 0, _ => []
  | f + 1, l => if l.isEmpty then [] else l.take n :: groupsAux n f (l.drop n)

/-- Coefficients packed in d bits each. -/
def packBits (d : Nat) (p : Poly) : Bytes :=
  let bits := p.flatMap (fun c => (List.range d).map (fun i => c / 2 ^ i % 2))
  (groupsAux 8 bits.length bits).map (fun g => byteOf (ofBits g))

/-- Coefficients of d bits each. -/
def unpackBits (d : Nat) (b : Bytes) : Poly := let l := bitsOf b; (groupsAux d l.length l).map ofBits

/-! ### ML-KEM (FIPS 203) -/

def kemQ : Nat := 3329

/-- ζ^(2·BitRev7(i)+1) for each i. -/
def kemGammas : List Nat := (List.range 128).map (fun i => powQ kemQ 17 (2 * bitRev 7 i + 1))
def kemGammaInvs : List Nat := (List.range 128).map (fun i => powQ kemQ 17 (256 - (2 * bitRev 7 i + 1)))

/-- The coefficients with even, then with odd index. -/
def evens (p : Poly) : Poly := (List.range 128).map (fun j => p.getD (2 * j) 0)
def odds (p : Poly) : Poly := (List.range 128).map (fun j => p.getD (2 * j + 1) 0)

/-- The number-theoretic transform: residues modulo X² − γ_i. -/
def kemNtt (p : Poly) : Poly :=
  let e := evens p
  let o := odds p
  kemGammas.flatMap (fun g => [evalAt kemQ g e, evalAt kemQ g o])

/-- The coefficient of index j from the values at all γ. -/
def kemBack (v : List Nat) (j : Nat) : Nat :=
  (List.zipWith (fun x g => x * powQ kemQ g j) v kemGammaInvs).sum * 3303 % kemQ

/-- The inverse transform. -/
def kemInv (p : Poly) : Poly :=
  let e := evens p
  let o := odds p
  (List.range 128).flatMap (fun j => [kemBack e j, kemBack o j])

/-- The product of transformed polynomials. -/
def kemMul (a b : Poly) : Poly :=
  (List.range 128).flatMap (fun i =>
    let a0 := a.getD (2 * i) 0
    let a1 := a.getD (2 * i + 1) 0
    let b0 := b.getD (2 * i) 0
    let b1 := b.getD (2 * i + 1) 0
    [(a0 * b0 + a1 * b1 % kemQ * kemGammas.getD i 0) % kemQ, (a0 * b1 + a1 * b0) % kemQ])

def kemDot (a b : List Poly) : Poly := (List.zipWith kemMul a b).foldl (pAdd kemQ) pZero

/-- Rejection sampling over a fixed count of blocks (R360). -/
def kemSample (seed : Bytes) : Poly :=
  let cand := (chunks 3 (shake128 seed (168 * 8))).flatMap (fun c =>
    let n := leNat c
    [n % 4096, n / 4096])
  (cand.filter (· < kemQ)).take 256

/-- The centred binomial distribution with η = 2. -/
def kemCbd (b : Bytes) : Poly :=
  (groupsAux 4 1024 (bitsOf b)).map (fun g => (g.getD 0 0 + g.getD 1 0 + kemQ - g.getD 2 0 - g.getD 3 0) % kemQ)

def kemPrf (s : Bytes) (n : Nat) : Poly := kemCbd (shake256 (s ++ [byteOf n]) 128)

def kemCompress (d x : Nat) : Nat := (2 ^ (d + 1) * x + kemQ) / (2 * kemQ) % 2 ^ d
def kemDecompress (d y : Nat) : Nat := (2 * kemQ * y + 2 ^ d) / 2 ^ (d + 1)

/-- Rank, d_u and d_v of ALGO 0x21 and 0x22. -/
def kemK (algo : Nat) : Nat := if algo = 0x21 then 3 else 4
def kemDu (algo : Nat) : Nat := if algo = 0x21 then 10 else 11
def kemDv (algo : Nat) : Nat := if algo = 0x21 then 4 else 5

/-- Row i of the matrix, or of its transpose. -/
def kemRow (algo : Nat) (rho : Bytes) (i : Nat) (tr : Bool) : List Poly :=
  (List.range (kemK algo)).map (fun j => kemSample (rho ++ (if tr then [byteOf i, byteOf j] else [byteOf j, byteOf i])))

/-- The keys that a seed d ‖ z expands to: ek and the transformed secret. -/
def kemKeys (algo : Nat) (seed : Bytes) : Bytes × List Poly :=
  let k := kemK algo
  let g := hash 0x13 (seed.take 32 ++ [byteOf k])
  let rho := g.take 32
  let s := (List.range k).map (fun i => kemNtt (kemPrf (g.drop 32) i))
  let t := (List.range k).map (fun i =>
    pAdd kemQ (kemDot (kemRow algo rho i false) s) (kemNtt (kemPrf (g.drop 32) (k + i))))
  (t.flatMap (packBits 12) ++ rho, s)

/-- K-PKE encryption. -/
def kemEncrypt (algo : Nat) (ek m r : Bytes) : Bytes :=
  let k := kemK algo
  let t := (List.range k).map (fun i => (unpackBits 12 (slice ek (384 * i) 384)).map (· % kemQ))
  let rho := ek.drop (384 * k)
  let y := (List.range k).map (fun i => kemNtt (kemPrf r i))
  let u := (List.range k).map (fun i => pAdd kemQ (kemInv (kemDot (kemRow algo rho i true) y)) (kemPrf r (k + i)))
  let v := pAdd kemQ (pAdd kemQ (kemInv (kemDot t y)) (kemPrf r (2 * k))) ((bitsOf m).map (kemDecompress 1))
  u.flatMap (fun p => packBits (kemDu algo) (p.map (kemCompress (kemDu algo))))
    ++ packBits (kemDv algo) (v.map (kemCompress (kemDv algo)))

/-- Encapsulation: ciphertext and K. -/
def kemEncaps (algo : Nat) (ek m : Bytes) : Bytes × Bytes :=
  let g := hash 0x13 (m ++ hash 0x11 ek)
  (kemEncrypt algo ek m (g.drop 32), g.take 32)

/-- Decapsulation with implicit rejection. -/
def kemDecaps (algo : Nat) (seed c : Bytes) : Bytes :=
  let k := kemK algo
  let du := kemDu algo
  let key := kemKeys algo seed
  let u := (List.range k).map (fun i =>
    kemNtt ((unpackBits du (slice c (32 * du * i) (32 * du))).map (kemDecompress du)))
  let v := (unpackBits (kemDv algo) (c.drop (32 * du * k))).map (kemDecompress (kemDv algo))
  let w := pSub kemQ v (kemInv (kemDot key.2 u))
  let m := packBits 1 (w.map (kemCompress 1))
  let g := hash 0x13 (m ++ hash 0x11 key.1)
  if kemEncrypt algo key.1 m (g.drop 32) == c then g.take 32 else shake256 (seed.drop 32 ++ c) 32

/-- The first coefficient of ek at or above q, if any (R358). -/
def kemBadCoeff (algo : Nat) (ek : Bytes) : Option Nat :=
  ((List.range (kemK algo)).flatMap (fun i => unpackBits 12 (slice ek (384 * i) 384))).find? (fun c => decide (kemQ ≤ c))

def kemEkLen (algo : Nat) : Nat := if algo = 0x21 then 1184 else 1568
def kemCtLen (algo : Nat) : Nat := if algo = 0x21 then 1088 else 1568

/-! ### ML-DSA (FIPS 204) -/

def dsaQ : Nat := 8380417

/-- Parameters of ALGO 0x31 and 0x32. -/
structure DsaParam where
  k     : Nat
  l     : Nat
  eta   : Nat
  tau   : Nat
  omega : Nat
  ct    : Nat
  deriving DecidableEq, Repr

def dsaParam (algo : Nat) : DsaParam := if algo = 0x31 then ⟨6, 5, 4, 49, 55, 48⟩ else ⟨8, 7, 2, 60, 75, 64⟩
def dsaG1 : Nat := 2 ^ 19
def dsaG2 : Nat := 261888
def DsaParam.beta (p : DsaParam) : Nat := p.tau * p.eta

def dsaZetas : List Nat := (List.range 256).map (fun j => powQ dsaQ 1753 (2 * bitRev 8 j + 1))
def dsaZetaInvs : List Nat := (List.range 256).map (fun j => powQ dsaQ 1753 (512 - (2 * bitRev 8 j + 1)))

def dsaNtt (p : Poly) : Poly := dsaZetas.map (fun z => evalAt dsaQ z p)

/-- The powers x^0 … x^255 of each point accumulated: one inverse transform. -/
def dsaInvAux : Nat → List Nat → Poly
  | 0, _ => []
  | n + 1, v => v.sum * 8347681 % dsaQ :: dsaInvAux n (List.zipWith (fun x z => x * z % dsaQ) v dsaZetaInvs)

def dsaInv (p : Poly) : Poly := dsaInvAux 256 p
def dsaMul (a b : Poly) : Poly := List.zipWith (fun x y => x * y % dsaQ) a b
def dsaDot (a b : List Poly) : Poly := (List.zipWith dsaMul a b).foldl (pAdd dsaQ) pZero

def dsaRow (p : DsaParam) (rho : Bytes) (r : Nat) : List Poly :=
  (List.range p.l).map (fun s =>
    (((chunks 3 (shake128 (rho ++ [byteOf s, byteOf r]) (168 * 10))).map (fun c => leNat c % 2 ^ 23)).filter
      (· < dsaQ)).take 256)

/-- A bounded secret polynomial. -/
def dsaBounded (eta : Nat) (seed : Bytes) : Poly :=
  let nib := (shake256 seed (136 * 7)).flatMap (fun b => [b.toNat % 16, b.toNat / 16])
  ((nib.filter (fun b => decide (if eta = 2 then b < 15 else b < 9))).take 256).map (fun b =>
    (dsaQ + eta - (if eta = 2 then b % 5 else b)) % dsaQ)

/-- The distance of a residue from 0. -/
def dsaAbs (x : Nat) : Nat := min x (dsaQ - x)
def dsaNorm (ps : List Poly) : Nat := ps.foldl (fun m p => p.foldl (fun m x => max m (dsaAbs x)) m) 0

/-- Decompose: high part, and low part as a residue with its sign. -/
def dsaDecompose (r : Nat) : Nat × Int :=
  let m := 2 * dsaG2
  let r0 : Int := if r % m ≤ dsaG2 then ((r % m : Nat) : Int) else ((r % m : Nat) : Int) - m
  if (r : Int) - r0 = dsaQ - 1 then (0, r0 - 1) else (((r : Int) - r0).toNat / m, r0)

def dsaHigh (r : Nat) : Nat := (dsaDecompose r).1

/-- The seeds ρ, ρ′, K, the secrets s1 and s2, and t. -/
structure DsaKey where
  rho : Bytes
  k   : Bytes
  s1  : List Poly
  s2  : List Poly
  t   : List Poly
  deriving DecidableEq, Repr

def dsaKeys (algo : Nat) (xi : Bytes) : DsaKey :=
  let p := dsaParam algo
  let h := shake256 (xi ++ [byteOf p.k, byteOf p.l]) 128
  let rho := h.take 32
  let rp := slice h 32 64
  let s1 := (List.range p.l).map (fun r => dsaBounded p.eta (rp ++ leBytes 2 r))
  let s2 := (List.range p.k).map (fun r => dsaBounded p.eta (rp ++ leBytes 2 (r + p.l)))
  let n1 := s1.map dsaNtt
  let t := (List.range p.k).map (fun r => pAdd dsaQ (dsaInv (dsaDot (dsaRow p rho r) n1)) (s2.getD r []))
  { rho := rho, k := h.drop 96, s1 := s1, s2 := s2, t := t }

/-- Power2Round with d = 13: t1 and t0 as residues. -/
def dsaT1 (x : Nat) : Nat := (x + 4095) / 8192
def dsaT0 (x : Nat) : Nat := (x + dsaQ - 8192 * dsaT1 x) % dsaQ

/-- The public key of a seed. -/
def dsaPub (key : DsaKey) : Bytes := key.rho ++ key.t.flatMap (fun p => packBits 10 (p.map dsaT1))

/-- SampleInBall. -/
def dsaBallAux : Nat → Nat → Bytes → List Nat → Poly → Poly
  | 0, _, _, _, c => c
  | f + 1, i, s, signs, c =>
    match s, signs with
    | b :: s', sg :: signs' =>
      if i < b.toNat then dsaBallAux f i s' signs c
      else if 256 ≤ i then c
      else dsaBallAux f (i + 1) s' signs' ((c.set i (c.getD b.toNat 0)).set b.toNat (if sg = 1 then dsaQ - 1 else 1))
    | _, _ => c

def dsaBall (p : DsaParam) (ct : Bytes) : Poly :=
  let s := shake256 ct (136 * 5)
  dsaBallAux 680 (256 - p.tau) (s.drop 8) ((bitsOf (s.take 8)).take p.tau) pZero

/-- The hint as bytes. -/
def dsaHintPack (p : DsaParam) (h : List (List Nat)) : Bytes :=
  let idx := h.map (fun l => (List.range 256).filter (fun i => l.getD i 0 == 1))
  let flat := idx.flatten
  flat.map byteOf ++ zeros (p.omega - flat.length)
    ++ (List.range p.k).map (fun i => byteOf ((idx.take (i + 1)).map List.length).sum)

/-- The indices strictly rise. -/
def rising : List Nat → Bool
  | a :: b :: l => decide (a < b) && rising (b :: l)
  | _ => true

def dsaHintAux (p : DsaParam) (y : Bytes) : Nat → Nat → Nat → Option (List (List Nat))
  | 0, _, pos => if (y.drop pos).take (p.omega - pos) == zeros (p.omega - pos) then some [] else none
  | n + 1, i, pos =>
    let stop := leNat (slice y (p.omega + i) 1)
    let l := ((y.take stop).drop pos).map (·.toNat)
    if stop < pos ∨ p.omega < stop ∨ !(rising l) then none
    else (dsaHintAux p y n (i + 1) stop).map (fun r => (List.range 256).map (fun j => if l.contains j then 1 else 0) :: r)

/-- The hint of a signature; none when it is malformed (R358). -/
def dsaHint (p : DsaParam) (y : Bytes) : Option (List (List Nat)) := dsaHintAux p y p.k 0 0

def dsaMu (pk ctx m : Bytes) : Bytes := shake256 (shake256 pk 64 ++ [0, byteOf ctx.length] ++ ctx ++ m) 64

def dsaChallenge (p : DsaParam) (mu : Bytes) (w1 : List Poly) : Bytes :=
  shake256 (mu ++ w1.flatMap (packBits 4)) p.ct

/-- The residue of γ1 − v. -/
def dsaMask (v : Nat) : Nat := (dsaQ + dsaG1 - v) % dsaQ

/-- One signing iteration. -/
def dsaTry (p : DsaParam) (key : DsaKey) (mu rr : Bytes) (kappa : Nat) : Option Bytes :=
  let y := (List.range p.l).map (fun r => (unpackBits 20 (shake256 (rr ++ leBytes 2 (kappa + r)) 640)).map dsaMask)
  let ny := y.map dsaNtt
  let w := (List.range p.k).map (fun r => dsaInv (dsaDot (dsaRow p key.rho r) ny))
  let ct := dsaChallenge p mu (w.map (·.map dsaHigh))
  let c := dsaNtt (dsaBall p ct)
  let mulC := fun (q : Poly) => dsaInv (dsaMul c (dsaNtt q))
  let z := List.zipWith (fun a b => pAdd dsaQ a (mulC b)) y key.s1
  let wc := List.zipWith (fun a b => pSub dsaQ a (mulC b)) w key.s2
  let t0 := key.t.map (fun q => mulC (q.map dsaT0))
  let low := wc.foldl (fun m q => q.foldl (fun m x => max m (dsaDecompose x).2.natAbs) m) 0
  let h := List.zipWith (fun a b => List.zipWith (fun x t => b2n (dsaHigh ((x + t) % dsaQ) != dsaHigh x)) a b) wc t0
  if dsaG1 - p.beta ≤ dsaNorm z ∨ dsaG2 - p.beta ≤ low ∨ dsaG2 ≤ dsaNorm t0 ∨ p.omega < (h.map List.sum).sum then none
  else some (ct ++ z.flatMap (fun q => packBits 20 (q.map dsaMask)) ++ dsaHintPack p h)

def dsaLoop (p : DsaParam) (key : DsaKey) (mu rr : Bytes) : Nat → Nat → Option Bytes
  | 0, _ => none
  | n + 1, kappa =>
    match dsaTry p key mu rr kappa with
    | some s => some s
    | none => dsaLoop p key mu rr n (kappa + p.l)

/-- ML-DSA.Sign with a context; none after 256 iterations without a signature (R353). -/
def dsaSign (algo : Nat) (xi rnd ctx m : Bytes) : Option Bytes :=
  let key := dsaKeys algo xi
  let mu := dsaMu (dsaPub key) ctx m
  dsaLoop (dsaParam algo) key mu (shake256 (key.k ++ rnd ++ mu) 64) 256 0

/-- UseHint. -/
def dsaUseHint (h r : Nat) : Nat :=
  let d := dsaDecompose r
  if h = 0 then d.1 else if 0 < d.2 then (d.1 + 1) % 16 else (d.1 + 15) % 16

/-- The norm bound and the challenge check of a signature whose hint is well formed. -/
def dsaVerify (algo : Nat) (pk sig ctx m : Bytes) (h : List (List Nat)) : Bool :=
  let p := dsaParam algo
  let ct := sig.take p.ct
  let z := (List.range p.l).map (fun i => (unpackBits 20 (slice sig (p.ct + 640 * i) 640)).map dsaMask)
  let nz := z.map dsaNtt
  let c := dsaNtt (dsaBall p ct)
  let w := (List.range p.k).map (fun r =>
    let t1 := (unpackBits 10 (slice pk (32 + 320 * r) 320)).map (· * 8192 % dsaQ)
    dsaInv (pSub dsaQ (dsaDot (dsaRow p (pk.take 32) r) nz) (dsaMul c (dsaNtt t1))))
  let w1 := List.zipWith (fun a b => List.zipWith dsaUseHint a b) h w
  decide (dsaNorm z < dsaG1 - p.beta) && dsaChallenge p (dsaMu pk ctx m) w1 == ct

def dsaPkLen (algo : Nat) : Nat := if algo = 0x31 then 1952 else 2592
def dsaSigLen (algo : Nat) : Nat := if algo = 0x31 then 3309 else 4627

/-- The hint bytes of a signature. -/
def dsaHintOf (algo : Nat) (sig : Bytes) : Option (List (List Nat)) :=
  let p := dsaParam algo
  dsaHint p (sig.drop (p.ct + 640 * p.l))

end Sys2Proof.Machine
end

