-- ==== Sys2Proof/Machine/PkaFn.lean ====
section
/-! DEFINITION. What a PKA_OP entry asks for and what its job returns (spec/11 R344 to R359). -/

namespace Sys2Proof.Machine

/-! ### Fields (R347, R348) -/

def pFunc (e : Bytes) : Nat := fld e 10 1
def pAlgo (e : Bytes) : Nat := fld e 11 1
def pDslot (e : Bytes) : Nat := fld e 12 2
def pModBits (e : Bytes) : Nat := fld e 14 2
def pInLen (e : Bytes) : Nat := fld e 16 4
def pDstLen (e : Bytes) : Nat := fld e 40 4
def pHash (e : Bytes) : Nat := fld e 44 1
def pCtxLen (e : Bytes) : Nat := fld e 45 1

def fSign : Nat := 1
def fVerify : Nat := 2
def fAgree : Nat := 3
def fPubkey : Nat := 4
def fEncrypt : Nat := 5
def fDecrypt : Nat := 6

def isP (a : Nat) : Bool := decide (1 ≤ a ∧ a ≤ 3)
def isRsa (a : Nat) : Bool := decide (0x10 ≤ a ∧ a ≤ 0x12)
def isKem (a : Nat) : Bool := a == 0x21 || a == 0x22
def isDsa (a : Nat) : Bool := a == 0x31 || a == 0x32

/-- The table of R345 lists the combination. -/
def pkaKnown (a f : Nat) : Bool :=
  if isP a then decide (1 ≤ f ∧ f ≤ 4)
  else if a = 4 ∨ a = 0x10 ∨ a = 0x11 ∨ isDsa a then f == 1 || f == 2 || f == 4
  else if a = 5 then f == 3 || f == 4
  else if a = 0x12 ∨ isKem a then f == 4 || f == 5 || f == 6
  else false

/-- The combination takes a private key, and a destination slot. -/
def pkaSlot (f : Nat) : Bool := f != fVerify && f != fEncrypt
def pkaDslot (a f : Nat) : Bool := f == fAgree || f == fDecrypt || (f == fEncrypt && isKem a)

/-- The combination is secret-bearing (R346). -/
def pkaSecret (f : Nat) : Bool := f != fVerify

/-- The key type of an algorithm. -/
def pkaKeyAlg (a : Nat) : Nat :=
  if isP a then 0x10 + a else if a = 4 then 0x14 else if a = 5 then 0x15 else if isRsa a then 0x20
  else if a = 0x21 then 0x31 else if a = 0x22 then 0x32 else if a = 0x31 then 0x41 else 0x42

/-- The use flags of which one must be carried, by number (R345). -/
def pkaUses (a f : Nat) : List Nat :=
  if f = fSign then [3] else if f = fAgree then [4] else if f = fDecrypt then [1]
  else if isP a then [3, 4] else if a = 4 ∨ isDsa a then [3] else if a = 5 then [4] else if isRsa a then [3, 1] else [1]

/-- A digest algorithm is required (R348). -/
def pkaHashed (a f : Nat) : Bool := (isP a && (f == fSign || f == fVerify)) || (isRsa a && f != fPubkey)

/-- The modulus comes from MOD_BITS. -/
def pkaModded (a f : Nat) : Bool := isRsa a && (f == fVerify || f == fEncrypt)

/-- DST output length with a modulus of k bytes (R345). -/
def pkaOutLen (a f k : Nat) : Nat :=
  if f = fVerify ∨ f = fAgree ∨ f = fDecrypt then 0
  else if isP a then let l := (pCurveOf a).l; if f = fSign then 2 * l else 1 + 2 * l
  else if a = 4 then if f = fSign then 64 else 32
  else if a = 5 then 32
  else if isRsa a then if f = fPubkey then k + 4 else k
  else if isKem a then if f = fEncrypt then kemCtLen a else kemEkLen a
  else if f = fSign then dsaSigLen a else dsaPkLen a

/-- The fixed part of the source string (R345). -/
def pkaFixed (e : Bytes) (k : Nat) : Nat :=
  let a := pAlgo e
  let f := pFunc e
  let h := hashL (pHash e)
  if f = fPubkey then 0
  else if isP a then
    let l := (pCurveOf a).l
    if f = fSign then h else if f = fVerify then 1 + 4 * l + h else 1 + 2 * l
  else if a = 4 then if f = fVerify then 96 else 0
  else if a = 5 then 32
  else if isRsa a then
    if f = fSign then h else if f = fVerify then 2 * k + 4 + h else if f = fEncrypt then k + 4 else k
  else if isKem a then if f = fEncrypt then kemEkLen a else kemCtLen a
  else (if f = fVerify then dsaPkLen a + dsaSigLen a else 0) + pCtxLen e

/-- The source ends in a message M of R345. -/
def pkaHasM (a f : Nat) : Bool := (a == 4 || isDsa a) && (f == fSign || f == fVerify)
def pkaOaep (a f : Nat) : Bool := a == 0x12 && f == fEncrypt

/-- The body field checks of R348, DETAIL 0x0A. Those of SLOT, DSLOT and DST need a combination that R345 lists. -/
def pkaBodyOk (e : Bytes) : Bool :=
  let a := pAlgo e
  let f := pFunc e
  inlineOk e
    && (if pkaModded a f then pModBits e % 128 == 0 && decide (2048 ≤ pModBits e ∧ pModBits e ≤ 8192) else pModBits e == 0)
    && (if pkaHashed a f then decide (1 ≤ pHash e ∧ pHash e ≤ 3) else pHash e == 0)
    && (isDsa a && (f == fSign || f == fVerify) || pCtxLen e == 0)
    && (!(pkaKnown a f) ||
        ((cSlot e != 0xFFFF) == pkaSlot f && (pDslot e != 0xFFFF) == pkaDslot a f
         && (cDst e != 0) == decide (0 < pkaOutLen a f 1) && (pDstLen e != 0) == decide (0 < pkaOutLen a f 1)))

/-- The lengths of R349, as the DETAIL of the first that fails; k is the modulus length in bytes. -/
def pkaLimit (e : Bytes) (k : Nat) : Option Nat :=
  let a := pAlgo e
  let f := pFunc e
  let n := pInLen e
  let fix := pkaFixed e k
  let var := n - fix
  if n < fix ∨ (n ≠ fix ∧ !(pkaHasM a f) ∧ !(pkaOaep a f)) then some 0x03
  else if pkaHasM a f ∧ 65536 < var then some 0x04
  else if pkaOaep a f ∧ (var = 0 ∨ k < var + 2 * hashL (pHash e) + 2) then some 0x04
  else if pDstLen e < pkaOutLen a f k then some 0x02
  else none

/-- The staging tiles of a job (R354). -/
def pkaStaging (e : Bytes) : Nat :=
  if pkaHasM (pAlgo e) (pFunc e) then cdiv (pCtxLen e + (pInLen e - pkaFixed e 0)) 64 else 0

/-- Bytes of the single draw ahead of the decoy key (R354); a deterministic ML-DSA signature draws none of its own. -/
def pkaDraw (e : Bytes) : Nat :=
  let a := pAlgo e
  let f := pFunc e
  if isP a ∧ f = fSign then (pCurveOf a).l + 8
  else if (a = 0x11 ∧ f = fSign) ∨ (a = 0x12 ∧ f = fEncrypt) then hashL (pHash e)
  else if isKem a ∧ f = fEncrypt then 32
  else if isDsa a ∧ f = fSign ∧ !(eFlag e 1) then 32
  else 0

/-- Bytes that the randomised representation adds to the draw (R363): a coordinate Z; for an RSA private operation two 64-bit
multiples and the base's blinding factor, `k` bytes of modulus. -/
def pkaBlind (e : Bytes) (k : Nat) (randrep : Bool) : Nat :=
  let a := pAlgo e
  let f := pFunc e
  if !randrep || f == fVerify then 0
  else if isP a then (pCurveOf a).l
  else if a = 4 ∨ a = 5 then 32
  else if isRsa a ∧ (f = fSign ∨ f = fDecrypt) then 16 + k
  else 0

/-! ### Operand tiles (R351, R361, R364, R365) -/

/-- The integers and keys of the algorithm are big-endian byte strings. -/
def pkaBig (a : Nat) : Bool := isP a || isRsa a

/-- A byte string in the order of an integer's words (R364), and back. -/
def tileForm (big : Bool) (bs : Bytes) : Bytes := if big then bs.reverse else bs

/-- The lengths of the public operands at the head of the source string (R345). -/
def pkaFields (e : Bytes) (k : Nat) : List Nat :=
  let a := pAlgo e
  let f := pFunc e
  let h := hashL (pHash e)
  if isP a then
    let l := (pCurveOf a).l
    if f = fSign then [h] else if f = fVerify then [1 + 2 * l, h, l, l] else if f = fAgree then [1 + 2 * l] else []
  else if a = 4 then if f = fVerify then [32, 32, 32] else []
  else if isRsa a then if f = fVerify then [k, 4, h, k] else if f = fEncrypt then [k, 4] else []
  else if isDsa a ∧ f = fVerify then [dsaPkLen a, dsaSigLen a]
  else []

/-- A string cut into fields, and what follows them. -/
def cutFields : List Nat → Bytes → List Bytes × Bytes
  | [], b => ([], b)
  | n :: ns, b => let r := cutFields ns (b.drop n); (b.take n :: r.1, r.2)

/-- The public operands of a source string in its order; M and the context stay in staging (R354). -/
def pkaOperands (e : Bytes) (k : Nat) (src : Bytes) : List Bytes :=
  let c := cutFields (pkaFields e k) src
  if pkaHasM (pAlgo e) (pFunc e) || c.2.isEmpty then c.1 else c.1 ++ [c.2]

/-- Operands laid into tiles, each starting on a new one, with the role of the tiles that they take. -/
def layTiles (big : Bool) (role : TileRole) : Nat → List Bytes → Mem × Store TileRole → Mem × Store TileRole
  | _, [], m => m
  | t, b :: bs, m =>
    let n := cdiv b.length 64
    layTiles big role (t + n) bs
      (Mem.setBytes m.1 (64 * t) (tileForm big b), (List.range n).foldl (fun r i => Store.put r (t + i) role) m.2)

/-- The first tile of the public operands (R365), and that of the key (log entry 62). -/
def pubTile : Nat := 8
def secretTile : Nat := 128

/-- Tiles 0 to 7 are DECOY (R365). -/
def decoyRoles : Store TileRole := (List.range 8).map (fun i => (i, .decoy))

/-- The decoy tiles filled from the keystream under the decoy key, and a decoy on them: tiles 0 and 1 by a word of tile 2, the
product in tiles 3 to 5 (R361, log entry 62). -/
def decoyTiles (m : Mem) (key : Bytes) : Mem :=
  let f := Mem.setBytes m 0 (ctrCrypt 128 key (zeros 16) (zeros 512))
  Mem.setBytes f 192 (leBytes 192 (leNat (Mem.bytes f 0 128) * leNat (Mem.bytes f 128 8)))

/-! ### Jobs -/

/-- What a job ends with. -/
inductive JobOut where
  | done (dst : Bytes) (key : Option Bytes)
  | fail (st detail : Nat)
  | redraw
  | checkFail
  deriving DecidableEq, Repr

/-- The validation of a P-curve point (R358): the point, or DETAIL. -/
def pPoint (c : PCurve) (b : Bytes) : Except Nat Pt :=
  let x := beNat (slice b 1 c.l)
  let y := beNat (slice b (1 + c.l) c.l)
  if b == zeros (1 + 2 * c.l) then .error 0x03
  else if b.take 1 != [4] then .error 0x06
  else if c.p ≤ x ∨ c.p ≤ y then .error 0x01
  else if !(c.on x y) then .error 0x02
  else .ok (some (x, y))

/-- n and e of a source string are usable (R358). -/
def rsaPubOk (n e bits : Nat) : Bool :=
  n % 2 == 1 && n.log2 + 1 == bits && e % 2 == 1 && decide (2 ^ 16 < e ∧ e < 2 ^ 32)

/-- A private RSA operation with the check of R359. -/
def rsaChecked (r : RsaKey) (c : Nat) : Option Nat :=
  let m := rsaPrivate r c
  if powMod m r.e r.n == c % r.n && decide (m < r.n) then some m else none

/-- A computed point lies on its curve (R359). -/
def pChecked (c : PCurve) (q : Pt) : Bool := q.elim false (fun p => c.on p.1 p.2)

/-- A computed Edwards point lies on the curve (R359). -/
def edChecked (b : Bytes) : Bool := (edDec (b.take 32)).isSome

/-- Key expansion and the matrix find their 256 coefficients in the fixed count of blocks (R360). -/
def kemFull (a : Nat) (rho : Bytes) : Bool := (List.range (kemK a)).all (fun i => (kemRow a rho i false).all (·.length == 256))
def dsaFull (a : Nat) (key : DsaKey) : Bool :=
  (key.s1 ++ key.s2).all (·.length == 256)
    && (List.range (dsaParam a).k).all (fun r => (dsaRow (dsaParam a) key.rho r).all (·.length == 256))

/-- The P-curve functions. -/
def jobP (e mat rnd src : Bytes) : JobOut :=
  let c := pCurveOf (pAlgo e)
  let f := pFunc e
  let d := beNat mat
  let h := hashL (pHash e)
  if f = fSign then
    let k := beNat rnd % (c.n - 1) + 1
    if !(pChecked c (c.mul k c.g)) then .checkFail
    else
      match c.sign d k (c.zOf src) with
      | some s => .done (beBytes c.l s.1 ++ beBytes c.l s.2) none
      | none => .redraw
  else if f = fPubkey then if pChecked c (c.mul d c.g) then .done (c.enc (c.mul d c.g)) none else .checkFail
  else
    match pPoint c (src.take (1 + 2 * c.l)) with
    | .error x => .fail St.pointInvalid x
    | .ok q =>
      if f = fAgree then if pChecked c (c.mul d q) then .done [] (some (beBytes c.l (ptX (c.mul d q)))) else .checkFail
      else
        let r := beNat (slice src (1 + 2 * c.l + h) c.l)
        let s := beNat (slice src (1 + 3 * c.l + h) c.l)
        if r = 0 ∨ s = 0 ∨ c.n ≤ r ∨ c.n ≤ s then .fail St.authFail 0x02
        else if c.verify q (c.zOf (slice src (1 + 2 * c.l) h)) r s then .done [] none else .fail St.authFail 0x00

/-- The Ed25519 functions. -/
def jobEd (e mat src : Bytes) : JobOut :=
  if pFunc e = fSign then if edChecked (edSign mat src) then .done (edSign mat src) none else .checkFail
  else if pFunc e = fPubkey then if edChecked (edPub mat) then .done (edPub mat) none else .checkFail
  else
    let ab := src.take 32
    let rb := slice src 32 32
    let s := leNat (slice src 64 32)
    if p25519 ≤ edY ab then .fail St.pointInvalid 0x01
    else
      match edDec ab with
      | none => .fail St.pointInvalid 0x02
      | some a =>
        if edMul 8 a = (0, 1) then .fail St.pointInvalid 0x04
        else
          match (if p25519 ≤ edY rb then none else edDec rb) with
          | none => .fail St.authFail 0x02
          | some r =>
            if l25519 ≤ s then .fail St.authFail 0x02
            else if edVerify a r ab rb s (src.drop 96) then .done [] none else .fail St.authFail 0x00

/-- The X25519 functions. -/
def jobX (e mat src : Bytes) : JobOut :=
  if pFunc e = fPubkey then .done (x25519 mat (leBytes 32 9)) none
  else
    let k := x25519 mat src
    if k == zeros 32 then .fail St.pointInvalid 0x05 else .done [] (some k)

/-- The RSA functions. -/
def jobRsa (e mat rnd src : Bytes) : JobOut :=
  let f := pFunc e
  let hash := pHash e
  let h := hashL hash
  if f = fPubkey then .done (mat.take ((rsaOf mat).k + 4)) none
  else if f = fSign then
    let r := rsaOf mat
    let em := if pAlgo e = 0x10 then pkcs1Encode hash r.k src else pssEncode hash r.k src rnd
    match rsaChecked r (beNat em) with
    | some s => .done (beBytes r.k s) none
    | none => .checkFail
  else if f = fDecrypt then
    let r := rsaOf mat
    let c := beNat src
    if c = 0 then .fail St.authFail 0x03
    else if c = r.n then .fail St.operandRange 0x02
    else if r.n < c then .fail St.operandRange 0x03
    else
      match rsaChecked r c with
      | none => .checkFail
      | some m =>
        match oaepDecode hash r.k (beBytes r.k m) with
        | some x => if 1 ≤ x.length ∧ x.length ≤ 64 then .done [] (some x) else .fail St.authFail 0x03
        | none => .fail St.authFail 0x03
  else
    let k := pModBits e / 8
    let n := beNat (src.take k)
    let ex := beNat (slice src k 4)
    if !(rsaPubOk n ex (pModBits e)) then .fail St.operandRange 0x04
    else if f = fEncrypt then
      .done (beBytes k (powMod (beNat (oaepEncode hash k (src.drop (k + 4)) rnd)) ex n)) none
    else
      let s := beNat (src.drop (k + 4 + h))
      let d := slice src (k + 4) h
      if s = 0 ∨ n ≤ s then .fail St.authFail 0x02
      else
        let em := beBytes k (powMod s ex n)
        if (if pAlgo e = 0x10 then em == pkcs1Encode hash k d else pssVerify hash k d em) then .done [] none
        else .fail St.authFail 0x00

/-- The ML-KEM functions. -/
def jobKem (e mat rnd src : Bytes) : JobOut :=
  let a := pAlgo e
  if pFunc e = fPubkey ∨ pFunc e = fDecrypt then
    let ek := (kemKeys a mat).1
    if !(kemFull a (ek.drop (384 * kemK a))) then .checkFail
    else if pFunc e = fPubkey then .done ek none else .done [] (some (kemDecaps a mat src))
  else
    match kemBadCoeff a src with
    | some x => .fail St.operandRange (if x = kemQ then 0x02 else 0x03)
    | none =>
      if kemFull a (src.drop (384 * kemK a)) then let r := kemEncaps a src rnd; .done r.1 (some r.2) else .checkFail

/-- The ML-DSA functions. -/
def jobDsa (e mat rnd src : Bytes) : JobOut :=
  let a := pAlgo e
  let n := pCtxLen e
  if (pFunc e = fPubkey ∨ pFunc e = fSign) ∧ !(dsaFull a (dsaKeys a mat)) then .checkFail
  else if pFunc e = fPubkey then .done (dsaPub (dsaKeys a mat)) none
  else if pFunc e = fSign then
    match dsaSign a mat (if eFlag e 1 then zeros 32 else rnd) (src.take n) (src.drop n) with
    | some s => .done s none
    | none => .fail St.operandRange 0x05
  else
    let pk := src.take (dsaPkLen a)
    let sig := slice src (dsaPkLen a) (dsaSigLen a)
    let rest := src.drop (dsaPkLen a + dsaSigLen a)
    match dsaHintOf a sig with
    | none => .fail St.authFail 0x02
    | some h => if dsaVerify a pk sig (rest.take n) (rest.drop n) h then .done [] none else .fail St.authFail 0x00

/-- A job's result from the key material, the drawn randomness and the source (R345, R353, R358, R359). The randomised representation
leaves it as it is (R363). An expanded public key is computed once here, so its check against its own hash (R359) fails only where a
unit reports it (UnitFault.check). -/
def pkaJob (e mat rnd src : Bytes) : JobOut :=
  let a := pAlgo e
  if isP a then jobP e mat rnd src
  else if a = 4 then jobEd e mat src
  else if a = 5 then jobX e mat src
  else if isRsa a then jobRsa e mat rnd src
  else if isKem a then jobKem e mat rnd src
  else jobDsa e mat rnd src

end Sys2Proof.Machine
end

