-- ==== Sys2Proof/Machine/Usage.lean ====
section
/-! DEFINITION. What every request asks of the units: its kind, its staging tiles, and what its use of a unit adds to the virtual
times (spec/05 R198, R199; spec/06 R226; spec/11 R354). -/

namespace Sys2Proof.Machine

/-- The unit kind that a request needs (R198, R402, R406, R407, R530). -/
def Req.kind (r : Req) : Option UnitKind :=
  let op := r.origOp
  if r.owner = .kek ∨ op ≤ 4 ∨ op = Opc.keyUnwrap ∨ op = Opc.keyExport then some .cipher
  else if op = Opc.digest ∨ op = Opc.hmac ∨ op = Opc.pageSeal then some .digest
  else if op = Opc.keyDerive then if kPrf r.entry = 1 then some .cipher else some .digest
  else if op = Opc.pkaOp ∨ op = Opc.wmacList then some .cluster
  else none

/-- Staging tiles that a request needs before its grant (R226, R354). -/
def Req.stagingNeed (r : Req) : Nat :=
  if r.origOp = Opc.aead ∧ cDec r.entry ∧ !(cStream r.entry) then cdiv (cLen r.entry) 64
  else if r.origOp = Opc.pkaOp then pkaStaging r.entry
  else 0

/-- A request stops occupying units: its virtual times grow by the cycles over the weights (R199). -/
def State.chargeV (s : State) (r : Req) (cycles : Nat) : State :=
  match r.kind, s.part r.part with
  | some k, some p =>
    if r.owner = .kek then s
    else
      let t := s.updPart r.part (fun x => { x with vt := vtSet x.vt k (vtAdd (vtOf x.vt k) cycles (max 1 p.assign.weight)) })
      t.updQueue r.part r.qid (fun x => { x with vt := vtSet x.vt k (vtAdd (vtOf x.vt k) cycles (max 1 r.weight)) })
  | _, _ => s

/-- The cycles for which a request held its units where no command tells them are a free value (R199, log entry 61). -/
def State.chargeHeld (s : State) (r : Req) : State :=
  if r.units.isEmpty then s
  else ({ s with picks := s.picks + 1 } : State).chargeV r (Config.occupied s.picks * r.units.length)

/-- A request gives up its units before their last cycle; a grove keeps its lanes (R247). -/
def State.letGo (s : State) (rid : Nat) (r : Req) : State :=
  let t := s.chargeHeld r
  if r.units.isEmpty || decide (2 ≤ r.g0) then t else (t.freeUnits r.units).updReq rid (fun x => { x with units := [] })

end Sys2Proof.Machine
end

