-- ==== Sys2Proof/Machine/Events.lean ====
section
/-! DEFINITION. Interrupt events and messages (spec/05 R196, R197), completion entries (spec/04 R158 to R161), and what a completed
request frees. -/

namespace Sys2Proof.Machine

/-! ### Vectors (R195 to R197) -/

def Vec.reset : Vec := ⟨false, 0, false⟩

/-- A vector's state; one that nothing has written is idle. -/
def Partition.vec (p : Partition) (v : Nat) : Vec := (Store.find p.vecs v).getD Vec.reset

/-- Set a vector's state. -/
def Partition.setVec (p : Partition) (v : Nat) (x : Vec) : Partition := { p with vecs := Store.put p.vecs v x }

/-- VEC_CTL of a vector. -/
def Partition.vecCtl (p : Partition) (v : Nat) : Nat := p.reg (0x40C + 16 * v)

/-- VEC_CTL.MASK. -/
def Partition.masked (p : Partition) (v : Nat) : Bool := bitAt (p.vecCtl v) 16

/-- VEC_ADDR. -/
def Partition.vecAddr (p : Partition) (v : Nat) : Nat := p.reg (0x400 + 16 * v) + 2 ^ 32 * p.reg (0x404 + 16 * v)

/-- Write one message: ADDR and DATA are copied now, the count and the timer restart, PEND clears (R196, R197). -/
def State.startMessage (s : State) (p v : Nat) : State :=
  match s.part p with
  | none => s
  | some x =>
    (s.updPart p (fun y => y.setVec v Vec.reset)).writes p 4 (x.vecAddr v) (leBytes 4 (x.reg (0x408 + 16 * v))) (.intr p v)

/-- A trigger is met (R196). -/
def State.trigger (s : State) (p v : Nat) : State :=
  match s.part p with
  | none => s
  | some x =>
    if x.masked v then s.updPart p (fun y => y.setVec v { y.vec v with pend := true }) else s.startMessage p v

/-- One event counts on a vector (R196). -/
def State.countEvent (s : State) (p v : Nat) : State :=
  match s.part p with
  | none => s
  | some x =>
    let c := x.vec v
    let ctl := x.vecCtl v
    let t := s.updPart p (fun y => y.setVec v
      { c with count := c.count + 1, timer := c.timer || decide (bitsAt ctl 8 8 ≠ 0) })
    if max 1 (ctl % 256) ≤ c.count + 1 then t.trigger p v else t

/-- Raise the partition's error vector (R180, R196). -/
def State.errEvent (s : State) (p : Nat) : State :=
  match s.part p with
  | none => s
  | some x => s.trigger p (let v := x.reg 0 % 32; if x.assign.vectors ≤ v then 0 else v)

/-! ### Completions (R158 to R161) -/

/-- The sixteen bytes of a completion entry (R159). -/
def cqEntry (q : Queue) (r : Req) (st detail res : Nat) : Bytes :=
  let phase := if q.cqTail / q.cqN % 2 = 0 then 1 else 0
  leBytes 2 r.tag
  ++ [byteOf st, byteOf (phase + 2 * b2n r.chained + 4 * b2n r.pushed + 8 * (q.head / q.sqN % 2))]
  ++ leBytes 2 (q.head % q.sqN) ++ [byteOf r.opcode, byteOf detail] ++ leBytes 8 res

/-- Write the completion entry of a request at the completion tail (R160, R161); its credit becomes an occupied entry. -/
def State.postCq (s : State) (rid : Nat) (r : Req) : State :=
  match s.queue r.part r.qid with
  | none => s
  | some q =>
    let bs := cqEntry q r r.status r.detail r.result
    let addr := q.cfg.cqBase + 16 * (q.cqTail % q.cqN)
    let t := s.updQueue r.part r.qid (fun x =>
      { x with cqTail := (x.cqTail + 1) % (2 * x.cqN), reserved := x.reserved - 1 })
    (t.updReq rid (fun x => { x with phase := .completing, credit := false })).writes r.part 3 addr bs
      (.cmpl r.part r.qid (some rid))

/-- Post the completions that wait for a credit, oldest first, while credits last (R158, R166). -/
def State.postWaiting (s : State) (p q : Nat) : State :=
  ((s.queueReqs p q).filter (fun r => r.2.phase == .waitCredit)).foldl (fun t r =>
    match t.queue p q with
    | some x => if 0 < x.credits then (t.updQueue p q (fun y => { y with reserved := y.reserved + 1 })).postCq r.1 r.2 else t
    | none => t) s

/-- The grants of a request are withdrawn. -/
def State.dropGrants (s : State) (rid : Nat) : State :=
  { s with gov := { s.gov with grants := s.gov.grants.filter (fun g => g.what != .req rid && g.what != .bind rid) } }

/-- The save areas that hold the request's context are emptied. -/
def State.dropSave (s : State) (rid : Nat) : State :=
  { s with units := Store.mapAll s.units (fun _ u => if u.save = some rid then { u with save := none } else u) }

/-- Complete a request: its status is fixed, its units, slot reservation, tiles and grants are released (a grove keeps its
lanes until the completion's write response, R247), and its completion entry is written, or waits for a credit; none is written for
a LOAD_KEK, nor for a request that a partition reset ends (R193). RESULT is 0 for a status other than SUCCESS unless the caller
gives it (R567). -/
def State.complete (s : State) (rid st detail res : Nat) : State :=
  match s.req rid with
  | none => s
  | some r =>
    let grove := decide (2 ≤ r.g0)
    let t := (if grove then s.dropGrants rid else (s.dropGrants rid).letGo rid r).dropSave rid
    if r.owner = .kek ∨ r.quiet then { t.freeUnits (if grove then r.units else []) with reqs := Store.del t.reqs rid }
    else
      let t := (t.countP r.part 28 1).countP r.part (if st = St.authFail then 30 else 32) (b2n (st != St.success))
      let t := t.updReq rid (fun x =>
        { x with phase := .waitCredit, status := st, detail := detail, result := res, dslot := none, staging := 0
                 ctxTiles := 0, tiles := 0, units := if grove then x.units else [], segs := [], ending := none, victimOf := none
                 expIdx := 0 })
      if r.credit then t.postCq rid { r with status := st, detail := detail, result := res }
      else t.postWaiting r.part r.qid

/-- Complete with a status other than SUCCESS and RESULT 0 (R567). -/
def State.reject (s : State) (rid st detail : Nat) : State := s.complete rid st detail 0

end Sys2Proof.Machine
end

