-- ==== Sys2Proof/Machine/Endings.lean ====
section
/-! DEFINITION. The end of a request: where its output lies, what it zero-fills, how it stops and what it leaves (spec/05 R193, spec/06
R229, R230, spec/07 R265, R266), and what the response to its completion does. -/

namespace Sys2Proof.Machine

/-! ### The destination -/

/-- The semantic opcode is a streaming AEAD decryption. -/
def Req.streaming (r : Req) : Bool := r.origOp == Opc.aead && cDec r.entry && cStream r.entry

/-- The destination as address and length pieces; direct addressing is one piece that reaches as far as asked. -/
def Req.dstElems (r : Req) : List (Nat × Nat) :=
  if r.origOp ≤ 4 && cDstSgl r.entry then elements ((r.dstList.map (·.2)).flatten) else [(cDst r.entry, 2 ^ 49)]

/-- Write bytes into the destination at an offset of the output string. -/
def State.writeOut (s : State) (r : Req) (off : Nat) (bs : Bytes) (pf : Purpose) : State :=
  (spread r.dstElems off bs.length 0).foldl (fun t p => t.writes r.part 2 p.1 ((bs.drop p.2.2).take p.2.1) pf) s

/-- A write of the request that has no response yet. -/
def State.writesOut (s : State) (rid : Nat) : Bool :=
  s.fab.any (fun t => t.isWrite && t.phase != .held && t.purpose.rid == some rid)

/-- The runs of output that have been issued, by offset and length: one from the start, and in a grove one for each segment (R266).
A streaming decryption builds no IV, so that its payload starts at offset 0. -/
def Req.written (r : Req) : List (Nat × Nat) :=
  (0, r.wrote) :: r.segs.map (fun g => (g.start * splitBytes r.entry, g.wrote))

/-- A streaming decryption that has written must be zero-filled (R227, R229). -/
def Req.needsZero (r : Req) : Bool := r.streaming && r.written.any (fun w => decide (0 < w.2))

/-- Every run of output is overwritten with zeros (R227, R229). -/
def State.zeroFill (s : State) (rid : Nat) (r : Req) : State :=
  let t := s.updReq rid (fun x =>
    { x with phase := .zeroing, wrote := 0, segs := x.segs.map (fun (g : Segment) => { g with wrote := 0 }), tagBytes := [] })
  r.written.foldl (fun t w => t.writeOut r w.1 (zeros w.2) (.zero rid)) t

/-! ### Ending a request (R229, R265, R266) -/

/-- The fixed attributes of a shared secret (R352). -/
def secretAttr (len : Nat) : KeyAttr :=
  { alg := 0x0A, len := len, use := 16, ecbOk := false, xivForbid := false, ledger := false, exportP := 0, limitLog2 := 0
    epoch := 0, lgid := 0 }

/-- A PKA_OP that ends with SUCCESS writes its destination slot ahead of the completion (R352). -/
def State.landKey (s : State) (rid : Nat) (r : Req) : State :=
  match r.dslot with
  | some g =>
    if r.origOp = Opc.pkaOp ∧ !r.failed ∧ !r.quiet ∧ !r.iv.isEmpty then
      ((s.updReq rid (fun x => { x with tiles := 0 })).install g r.part .valid (secretAttr r.iv.length) r.iv).cfgGraft (.slot g)
    else s
  | none => s

/-- A request whose status is fixed and whose writes have all been answered completes, after the zero-fill of a streaming
decryption. -/
def State.settle (s : State) (rid : Nat) : State :=
  match s.req rid with
  | none => s
  | some r =>
    if s.writesOut rid then s
    else if r.failed && r.needsZero && r.phase != .zeroing then s.zeroFill rid r
    else (s.landKey rid r).complete rid r.status r.detail r.result

/-- The request's status is fixed: writes already issued complete first. -/
def State.endAt (s : State) (rid st detail : Nat) : State :=
  (s.updReq rid (fun x =>
    { x with
    failed := true, status := st, detail := detail, result := 0, phase := .writing, tagBytes := [], ending := none, shedding := [] })).settle rid

/-- End a request with a status; the first cause stands. -/
def State.endReq (s : State) (rid st detail : Nat) : State :=
  match s.req rid with
  | none => s
  | some r =>
    if r.phase = .completing ∨ r.phase = .waitCredit ∨ r.failed then s
    else ((s.dropGrants rid).letGo rid r).endAt rid st detail

/-- The live export of a request is removed (R260). -/
def State.dropLive (s : State) (r : Req) (rid : Nat) : State :=
  s.updPart r.part (fun p => { p with live := p.live.filter (fun l => l.rid != rid) })

/-- The request runs on its units. -/
def Req.running (r : Req) : Bool :=
  !r.units.isEmpty && (r.phase == .reading || r.phase == .ready || r.phase == .capturing)

/-- The request is past its last lane cycle: its status is its own (R230, R265). A RANDOM takes no lane; it is past once its last chunk
is written. -/
def Req.past (r : Req) : Bool :=
  r.phase == .tagWriting || r.phase == .zeroing || r.phase == .completing || r.phase == .waitCredit
    || (r.phase == .writing && (r.origOp != Opc.random || decide (rndLen r.entry ≤ r.wrote)))

/-- The write of an export record is unanswered. -/
def State.recordOut (s : State) (rid : Nat) : Bool := s.fab.any (fun t => t.phase != .held && t.purpose == .exp rid)

/-- End a request from outside: one that runs stops at its next suspension point, which SUSPEND_CAPTURE reports; one past its last
lane cycle goes on; the answer to an export record under way is waited for; any other ends at once (R265). -/
def State.stopReq (s : State) (rid st detail : Nat) : State :=
  match s.req rid with
  | none => s
  | some r =>
    if r.past then s
    else if r.running then s.updReq rid (fun x => { x with phase := .capturing, ending := x.ending.or (some (st, detail)) })
    else if r.phase = .exporting ∧ s.recordOut rid then s.updReq rid (fun x => { x with ending := x.ending.or (some (st, detail)) })
    else s.endReq rid st detail

/-- End an admitted request from outside (DESTROY_QUEUE, DRAIN_TMO): an exported one posts a second completion under its original tag
and opcode (R264, R265). -/
def State.abortReq (s : State) (rid st : Nat) : State :=
  match s.req rid with
  | none => s
  | some r =>
    let t := s.dropLive r rid
    if r.phase = .exported then
      (t.updReq rid (fun x => { x with opcode := x.origOp, tag := x.origTag, chained := false })).stopReq rid st 0
    else t.stopReq rid st 0

/-- End a request without a completion (R193); one whose completion still waits for a credit is gone. -/
def State.dropReq (s : State) (rid : Nat) : State :=
  match s.req rid with
  | none => s
  | some r =>
    if r.phase = .waitCredit then { s.freeUnits r.units with reqs := Store.del s.reqs rid }
    else ((s.dropLive r rid).updReq rid (fun x => { x with quiet := true })).stopReq rid St.abortedByHost 0

/-- A partition reset still waits for requests that it ends (R193 steps 3 and 4). -/
def State.dropping (s : State) (p : Nat) : Bool := s.reqs.any (fun r => r.2.part == p && r.2.quiet)

/-! ### After the completion's write response -/

/-- Words of a FIFO region set to 0. -/
def zeroWords (words : RegFile) (start : Nat) : Nat → RegFile
  | 0 => words
  | n + 1 => RegFile.set (zeroWords words start n) 0 ((start + n) % 2048) 0

/-- A request's FIFO region is committed; one that did not end with SUCCESS holds zeros (R388). -/
def State.commitFifo (s : State) (rid : Nat) (r : Req) : State :=
  match r.fifo with
  | none => s
  | some (start, len) =>
    s.updPart r.part (fun p => { p with rf := { p.rf with
      words := if r.status = St.success then p.rf.words else zeroWords p.rf.words start len
      regions := p.rf.regions.map (fun (x : Region) => if x.owner = some rid then { x with owner := none } else x) } })

/-- A request's completion write has been answered: the request is gone, a grove dissolves, the chain goes on or fails
(R156), and the completion event counts (R196, R562). -/
def State.finishReq (s : State) (rid : Nat) (ok : Bool) : State :=
  match s.req rid with
  | none => s
  | some r =>
    let t := (s.freeUnits r.units).commitFifo rid r
    let t := { t with reqs := Store.del t.reqs rid }
    let t := t.updQueue r.part r.qid (fun q =>
      match q.chain with
      | some c =>
        if c.current = some rid then
          if c.left = 0 then { q with chain := none }
          else { q with chain := some { c with current := none, failed := c.failed || !ok || r.status != St.success } }
        else q
      | none => q)
    match t.queue r.part r.qid with
    | some q => if ok && r.irq && q.cie then t.countEvent r.part q.cfg.vector else t
    | none => t

end Sys2Proof.Machine
end

