-- ==== Sys2Proof/Machine/KeyFn.lean ====
section
/-! DEFINITION. The checks on key material, wrapped blobs and derived keys (spec/13 R401 to R407). -/

namespace Sys2Proof.Machine

/-! ### Entry fields -/

/-- DSLOT and KSLOT of KEY_UNWRAP and KEY_DERIVE, SLOT and KSLOT of KEY_EXPORT. -/
def kDslot (e : Bytes) : Nat := fld e 8 2
def kKslot (e : Bytes) : Nat := fld e 10 2
def kReplace (e : Bytes) : Bool := eFlag e 0
def kErase (e : Bytes) : Bool := eFlag e 1
def kInLen (e : Bytes) : Nat := fld e 16 4
def kAttr (e : Bytes) : Bytes := slice e 16 16
def kLabelLen (e : Bytes) : Nat := fld e 32 2
def kCtxLen (e : Bytes) : Nat := fld e 34 2
def kDstLen (e : Bytes) : Nat := fld e 40 4

/-- Body checks of KEY_UNWRAP (R401). -/
def unwrapBodyOk (e : Bytes) : Bool :=
  if kErase e then kInLen e == 0 && cInline e == 0 && cSrc e == 0 && kKslot e == 0 else inlineOk e

/-- Body checks of KEY_DERIVE (R405). -/
def deriveBodyOk (e : Bytes) : Bool := decide (kLabelLen e + kCtxLen e ≤ 32 * eSlots e - 64)

/-! ### Material -/

/-- The halves of an XTS key are equal. -/
def xtsEqual (alg : Nat) (mat : Bytes) : Bool :=
  (alg == 4 || alg == 5) && mat.take (mat.length / 2) == mat.drop (mat.length / 2)

/-- The private-key ranges of R402 step 10. -/
def privateOk (alg : Nat) (mat : Bytes) : Bool :=
  if 0x11 ≤ alg ∧ alg ≤ 0x13 then
    decide (1 ≤ beNat mat ∧ beNat mat < (pCurveOf (alg - 0x10)).n)
  else if alg = 0x20 then
    let r := rsaOf mat
    r.n % 2 == 1 && r.n.testBit (8 * r.k - 1) && r.e % 2 == 1 && decide (2 ^ 16 < r.e ∧ r.e < 2 ^ 32)
      && r.p % 2 == 1 && r.q % 2 == 1
  else true

/-- The blob length of a key of LEN bytes (R401). -/
def blobLen (len : Nat) : Nat := 24 + 8 * cdiv len 8

/-- The plaintext of a blob (R401, R407). -/
def blobPlain (a : KeyAttr) (mat : Bytes) : Bytes := KeyAttr.encode a ++ mat ++ zeros (8 * cdiv mat.length 8 - mat.length)

/-- Attributes and material of an unwrapped blob, or the failing DETAIL of KEY_POLICY (steps 8 to 10 of R402). -/
def openBlob (u : Bytes) (inLen : Nat) : Except Nat (KeyAttr × Bytes) :=
  let a := attrOf u
  let mat := slice u 16 a.len
  if !(attrValid (u.take 16)) || blobLen a.len != inLen || u.drop (16 + a.len) != zeros (u.length - 16 - a.len)
  then .error 0x09
  else if xtsEqual a.alg mat then .error 0x0B
  else if !(privateOk a.alg mat) then .error 0x0C
  else .ok (a, mat)

/-- The derived material (R405). -/
def derive (e key : Bytes) : Bytes :=
  let len := (attrOf (kAttr e)).len
  let label := slice e 64 (kLabelLen e)
  let ctx := slice e (64 + kLabelLen e) (kCtxLen e)
  let fixed := kAttr e ++ label ++ [0] ++ ctx ++ beBytes 4 (8 * len)
  if kPrf e = 1 then kdfBytes (cmac key) 16 len fixed else kdfBytes (hmac 2 key) 48 len fixed

/-- The plaintext of a partition KEK blob carries the right header (R410). -/
def kekHeaderOk (part : Nat) (u : Bytes) : Bool := u.take 8 == [0x4B, byteOf part] ++ zeros 6 && u.length == 40

end Sys2Proof.Machine
end

