-- ==== Sys2Proof/Machine/WmacFn.lean ====
section
/-! DEFINITION. The raw-mode commands of WMAC_LIST: body and command checks, and what a job does to the operand tiles, the
accumulator, memory and the result FIFO (spec/12 R377 to R385). -/

namespace Sys2Proof.Machine

def wCount (e : Bytes) : Nat := fld e 8 2
def wFifo (e : Bytes) : Nat := fld e 12 4
def wList (e : Bytes) : Nat := fld e 16 8

/-- The body checks of R381. -/
def wmacBodyOk (e : Bytes) : Bool :=
  decide (1 ≤ wCount e ∧ wCount e ≤ 4096) && decide (wFifo e ≤ 2048) && wList e % 16 == 0
    && (wList e != 0 || decide (16 * wCount e ≤ 32 * eSlots e - 64))

/-- The commands of a list. -/
def wmacCmds (bs : Bytes) : List Bytes := chunks 16 bs

def wOp (c : Bytes) : Nat := fld c 0 1
def wFlag (c : Bytes) (i : Nat) : Bool := bitAt (fld c 1 1) i
def wB (c : Bytes) (i : Nat) : Nat := fld c i 1
def wAddr (c : Bytes) : Nat := fld c 8 8

/-- OP is in the table of R382. -/
def wKnown (op : Nat) : Bool := [0x01, 0x02, 0x10, 0x11, 0x12, 0x20, 0x21, 0x22, 0x23].contains op

/-- Fields keep their ranges and tile ranges end by tile 255 (R382). -/
def wRangeOk (c : Bytes) : Bool :=
  let op := wOp c
  if op ≤ 2 then
    decide (1 ≤ wB c 3 ∧ wB c 3 ≤ 64 ∧ wB c 2 + wB c 3 ≤ 256)
      && (if op = 2 ∧ wFlag c 0 then wAddr c == 0 else wAddr c % 64 == 0)
  else if op = 0x10 then decide (wB c 2 ≤ 254)
  else if op ≤ 0x12 then decide (wB c 2 ≤ 253)
  else if op ≤ 0x21 then decide (wB c 2 ≤ 240)
  else decide (wB c 2 ≤ 240 ∧ wB c 3 ≤ 240 ∧ wB c 4 ≤ 240)

/-- Reserved fields are 0 (R382). -/
def wReservedOk (c : Bytes) : Bool :=
  let op := wOp c
  let fl := fld c 1 1
  if op = 1 then fl == 0 && zeroAt c 4 4
  else if op = 2 then decide (fl < 2) && zeroAt c 4 4
  else
    zeroAt c 8 8 &&
    (if op = 0x10 then decide (fl < 4) && decide (wB c 4 < 8) && zeroAt c 5 1 && decide (wB c 7 < 8)
     else if op ≤ 0x12 then fl == 0 && zeroAt c 3 5
     else if op ≤ 0x21 then decide (fl < 2) && zeroAt c 3 5
     else decide (fl < (if op = 0x23 then 4 else 2)) && zeroAt c 5 3)

/-- FIFO words that a command pushes. -/
def wPush (c : Bytes) : Nat := if wOp c = 2 ∧ wFlag c 0 then 16 * wB c 3 else 0

/-- The first failing command: index, status and DETAIL (R383). -/
def wmacCheckAux (limit : Nat) : List Bytes → Nat → Nat → Option (Nat × Nat × Nat)
  | [], _, _ => none
  | c :: cs, i, pushed =>
    let op := wOp c
    if op = 0x40 ∨ op = 0x41 then some (i, St.keyPolicy, 0x07)
    else if !(wKnown op) then some (i, St.malformed, 0x0A)
    else if !(wRangeOk c) then some (i, St.malformed, 0x0A)
    else if !(wReservedOk c) then some (i, St.malformed, 0x09)
    else if limit < pushed + wPush c then some (i, St.malformed, 0x0A)
    else wmacCheckAux limit cs (i + 1) (pushed + wPush c)

def wmacCheck (limit : Nat) (cs : List Bytes) : Option (Nat × Nat × Nat) := wmacCheckAux limit cs 0 0

/-- A job under way: operand tiles by byte, accumulator, stores to memory, words pushed. -/
structure WmacSt where
  tiles  : Mem
  acc    : Nat
  stores : List (Nat × Bytes)
  words  : List Nat
  deriving DecidableEq, Repr

/-- The 256 coefficients of a polynomial in 16 tiles, reduced modulo q (R364, R378). -/
def polyAt (m : Mem) (t q : Nat) : Poly := ((chunks 4 (Mem.bytes m (64 * t) 1024)).map (fun b => leNat b % q))
def setPoly (m : Mem) (t : Nat) (p : Poly) : Mem := Mem.setBytes m (64 * t) (p.flatMap (leBytes 4))

/-- One command (R377, R378, R382); `data` is what a LOAD has read. -/
def wmacStep (st : WmacSt) (c data : Bytes) : WmacSt :=
  let op := wOp c
  let q := if wFlag c 0 then dsaQ else kemQ
  let big := wFlag c 0
  if op = 1 then { st with tiles := Mem.setBytes st.tiles (64 * wB c 2) (slice data 0 (64 * wB c 3)) }
  else if op = 2 then
    let bs := Mem.bytes st.tiles (64 * wB c 2) (64 * wB c 3)
    if wFlag c 0 then { st with words := st.words ++ (chunks 4 bs).map leNat }
    else { st with stores := st.stores ++ [(wAddr c, bs)] }
  else if op = 0x10 then
    let a := leNat (Mem.bytes st.tiles (64 * wB c 2) 128)
    let b := leNat (Mem.bytes st.tiles (64 * wB c 3 + 8 * wB c 4) 8)
    let sum := ((if wFlag c 0 then 0 else st.acc) + a * b) % 2 ^ 1088
    if wFlag c 1 then
      { st with acc := sum / 2 ^ 64, tiles := Mem.setBytes st.tiles (64 * wB c 6 + 8 * wB c 7) (leBytes 8 sum) }
    else { st with acc := sum }
  else if op = 0x11 then { st with tiles := Mem.setBytes st.tiles (64 * wB c 2) (leBytes 192 st.acc) }
  else if op = 0x12 then { st with acc := leNat (Mem.bytes st.tiles (64 * wB c 2) 136) }
  else if op = 0x20 then
    let p := polyAt st.tiles (wB c 2) q
    { st with tiles := setPoly st.tiles (wB c 2) (if big then dsaNtt p else kemNtt p) }
  else if op = 0x21 then
    let p := polyAt st.tiles (wB c 2) q
    { st with tiles := setPoly st.tiles (wB c 2) (if big then dsaInv p else kemInv p) }
  else
    let a := polyAt st.tiles (wB c 3) q
    let b := polyAt st.tiles (wB c 4) q
    let r :=
      if op = 0x22 then if big then dsaMul a b else kemMul a b
      else if wFlag c 1 then pSub q a b else pAdd q a b
    { st with tiles := setPoly st.tiles (wB c 2) r }

/-- The commands in list order, up to the first LOAD whose data has not arrived: the index reached. `data i` is what command i's
LOAD has read (R379). -/
def wmacRun (data : Nat → Bytes) : List Bytes → Nat → WmacSt → Nat × WmacSt
  | [], i, st => (i, st)
  | c :: cs, i, st => if wOp c = 1 ∧ (data i).isEmpty then (i, st) else wmacRun data cs (i + 1) (wmacStep st c (data i))

end Sys2Proof.Machine
end

