-- ==== Sys2Proof/Machine/Queueing.lean ====
section
/-! DEFINITION. How a checked request joins the scheduler: its unit kind, its staging tiles and the virtual times
(spec/05 R198, R199; spec/06 R226). -/

namespace Sys2Proof.Machine

/-- The request waits for a unit or holds one. -/
def Req.active (r : Req) : Bool := r.phase == .waitPlace || r.phase == .waitGrant || !r.units.isEmpty

/-- A partition holds an active request of a kind other than `rid`. -/
def State.activePart (s : State) (k : UnitKind) (p rid : Nat) : Bool :=
  s.reqs.any (fun r => r.1 != rid && r.2.kind == some k && r.2.part == p && r.2.owner == .queue && r.2.active)

/-- A queue holds an active request of a kind other than `rid`. -/
def State.activeQueue (s : State) (k : UnitKind) (p q rid : Nat) : Bool :=
  s.reqs.any (fun r => r.1 != rid && r.2.kind == some k && r.2.part == p && r.2.qid == q && r.2.owner == .queue && r.2.active)

/-- The least of some virtual times. -/
def vtLeast : List (Nat × Nat) → Option (Nat × Nat)
  | [] => none
  | v :: vs =>
    match vtLeast vs with
    | some w => some (if vtLt w v then w else v)
    | none => some v

/-- A virtual time raised to the least of others. -/
def vtRaise (v : Nat × Nat) (others : List (Nat × Nat)) : Nat × Nat :=
  match vtLeast others with
  | some w => if vtLt v w then w else v
  | none => v

/-- The virtual times of the partitions active for a kind, one partition apart. -/
def State.partVts (s : State) (k : UnitKind) (p rid : Nat) : List (Nat × Nat) :=
  (s.parts.filter (fun x => x.1 != p && s.activePart k x.1 rid)).map (fun x => vtOf x.2.vt k)

/-- The virtual times of a partition's queues active for a kind, one queue apart. -/
def State.queueVts (s : State) (k : UnitKind) (p q rid : Nat) : List (Nat × Nat) :=
  ((s.part p).elim [] (fun x => x.queues.filter (fun y => y.1 != q && s.activeQueue k p y.1 rid))).map (fun y => vtOf y.2.vt k)

/-- A partition and a queue that gain their first active request of a kind have their virtual times raised (R199). -/
def State.raiseV (s : State) (k : UnitKind) (p q rid : Nat) : State :=
  let t := if s.activePart k p rid then s
    else s.updPart p (fun x => { x with vt := vtSet x.vt k (vtRaise (vtOf x.vt k) (s.partVts k p rid)) })
  if t.activeQueue k p q rid then t
  else t.updQueue p q (fun x => { x with vt := vtSet x.vt k (vtRaise (vtOf x.vt k) (t.queueVts k p q rid)) })

/-- The request joins the requests that wait for a unit. -/
def State.toPlace (s : State) (rid : Nat) : State :=
  match s.req rid with
  | none => s
  | some r =>
    let t := r.kind.elim s (fun k => s.raiseV k r.part r.qid rid)
    (t.updReq rid (fun x => { x with phase := .waitPlace })).bump

/-- The waits of R219 steps 1 to 6 are over: the request waits for staging tiles, or for a unit. -/
def State.enqueue (s : State) (rid : Nat) : State :=
  match s.req rid with
  | none => s
  | some r =>
    if r.stagingNeed = 0 then s.toPlace rid
    else (s.updReq rid (fun x => { x with phase := .waitStaging, waitSeq := s.nextId })).bump

/-- The waiting request whose staging tiles come next: by class, then by the order in which they began to wait; one held
back by an earlier request of its partition and class, or for want of tiles, is passed over (R226). -/
def State.stagingPick (s : State) : Option (Nat × Req) :=
  let waits := s.reqs.filter (fun r => r.2.phase == .waitStaging)
  let heads := waits.filter (fun r =>
    waits.all (fun o => o.2.part != r.2.part || o.2.cls != r.2.cls || decide (r.2.waitSeq ≤ o.2.waitSeq)))
  let fits := heads.filter (fun r =>
    decide (s.stagingOf r.2.part + r.2.stagingNeed ≤ 16384) && decide (s.stagingUsed + r.2.stagingNeed ≤ s.stagingPool))
  fits.find? (fun r => fits.all (fun o =>
    decide (r.2.cls < o.2.cls) || (r.2.cls == o.2.cls && decide (r.2.waitSeq ≤ o.2.waitSeq))))

/-- The global slots that a request uses still hold the keys of its admission (R25, R262 check 7). KEK slots are 4608 + p. -/
def State.keyIdOf (s : State) (g : Nat) : Nat :=
  if 4608 ≤ g then (Store.find s.hw.keks (g - 4608)).elim 0 (fun k => leNat k + 1) else (s.slot g).keyId

/-- The material of a global slot or KEK. -/
def State.matOf (s : State) (g : Nat) : Bytes :=
  if 4608 ≤ g then (Store.find s.hw.keks (g - 4608)).getD [] else (s.slot g).mat

/-- Record the slots that a request uses, with the keys they hold now. -/
def State.useKeys (s : State) (rid : Nat) (gs : List Nat) : State :=
  s.updReq rid (fun r => { r with keys := gs.map (fun g => (g, s.keyIdOf g)) })

/-- The keys of admission are still in place. -/
def State.keysSame (s : State) (r : Req) : Bool := r.keys.all (fun k => s.keyIdOf k.1 == k.2 && k.2 != 0)

/-! ### Checks of an entry -/

/-- A check's failure: status and DETAIL. -/
abbrev Failure := Option (Nat × Nat)

/-- The first failure of a list of checks. -/
def firstFail : List Failure → Failure
  | [] => none
  | some f :: _ => some f
  | none :: r => firstFail r

/-- A check that fails with a status and DETAIL unless a condition holds. -/
def must (ok : Bool) (st detail : Nat) : Failure := if ok then none else some (st, detail)

/-- The local slot holds a key that is not retired; its tile checks hold (R209 checks 1 and 2, R507). -/
def State.slotHolds (s : State) (part loc : Nat) : Failure :=
  match s.gslot part loc with
  | none => some (St.keySlotInvalid, 0x01)
  | some g =>
    let x := s.slot g
    firstFail [must (s.slotIn part loc) St.keySlotInvalid 0x01,
      must (x.st == .valid || x.st == .noHistory) St.keySlotInvalid 0x02,
      must (!x.bad) St.tileCheck 0x04]

/-- The global slot of a local one; 0 when there is none. -/
def State.gOf (s : State) (part loc : Nat) : Nat := (s.gslot part loc).getD 0

/-- The slot checks of R293. -/
def State.hmacSlot (s : State) (part loc : Nat) : Failure :=
  let a := (s.slot (s.gOf part loc)).attr
  firstFail [s.slotHolds part loc,
    must (a.alg == 7 && decide (16 ≤ a.len ∧ a.len ≤ 64)) St.keyPolicy 0x02,
    must (KeyAttr.can a useMac) St.keyPolicy 0x01,
    must (!a.ledger) St.keyPolicy 0x05]

end Sys2Proof.Machine
end

