-- ==== Sys2Proof/Machine/Ledger.lean ====
section
/-! DEFINITION. The nonce ledger (spec/08 R267 to R282, spec/14 R445, R455): counters taken from live leases, new leases,
abandonment, retirement and accounts. -/

namespace Sys2Proof.Machine

/-! ### Accounts -/

def acctHwm (a : Acct) (inst : Nat) : Nat := if inst = 1 then a.hwm1 else a.hwm0
def acctRet (a : Acct) (inst : Nat) : Bool := if inst = 1 then a.ret1 else a.ret0
def acctSetHwm (a : Acct) (inst n : Nat) : Acct := if inst = 1 then { a with hwm1 := n } else { a with hwm0 := n }
def acctSetRet (a : Acct) (inst : Nat) : Acct := if inst = 1 then { a with ret1 := true } else { a with ret0 := true }

/-- This instance's number; an unpaired instance uses 0 (R267). -/
def State.inst (s : State) : Nat := if s.pair.ident.paired then s.pair.ident.inst else 0

/-- The first lease index that a LIMIT_LOG2 forbids (R278). -/
def leaseEnd (limitLog2 : Nat) : Nat := 2 ^ (limitLog2 - 20)

/-- The lease limit of an account: the greatest among the slots that it binds. -/
def State.acctEnd (s : State) (a : Acct) : Nat :=
  (s.hw.slots.map (fun p => if s.slotOfAcct p.2 a then leaseEnd p.2.attr.limitLog2 else 0)).foldl max 0

/-- FIXED ‖ COUNTER for an instance bit (R212, R267). -/
def nonceFor (inst : Nat) (a : KeyAttr) (counter : Nat) : Bytes :=
  beBytes 4 (2 ^ 31 * inst + 2 ^ 16 * (a.epoch % 2 ^ 15) + a.lgid % 2 ^ 16) ++ beBytes 8 counter

/-- The nonce of a counter taken by this instance. -/
def State.nonce (s : State) (a : KeyAttr) (counter : Nat) : Bytes := nonceFor s.inst a counter

/-- Merge a received account under R282. -/
def acctMerge (a b : Acct) : Acct :=
  { a with hwm0 := max a.hwm0 b.hwm0, hwm1 := max a.hwm1 b.hwm1, ret0 := a.ret0 || b.ret0, ret1 := a.ret1 || b.ret1 }

/-- The number of the account with an identity. -/
def State.acctFind (s : State) (fp : Bytes) (epoch lgid : Nat) : Option Nat :=
  (s.ledger.accts.find? (fun a => a.2.fp == fp && a.2.epoch == epoch && a.2.lgid == lgid)).map (·.1)

/-- The lowest number that no account has. -/
def State.acctFree (s : State) : Nat :=
  ((List.range 8193).find? (fun k => (Store.find s.ledger.accts k).isNone)).getD 8192

/-- Put an account into the ledger under a number. -/
def State.putAcct (s : State) (n : Nat) (a : Acct) : State :=
  ({ s with ledger := { s.ledger with accts := Store.put s.ledger.accts n a } } : State).acctDirty n

/-- Set EXHAUST, ACCT_FULL or LEASE_TMO, whose rise R546 latches. -/
def State.setExhaust (s : State) : State :=
  if s.ledger.exhaust then s else ({ s with ledger := { s.ledger with exhaust := true } } : State).ledgerRise
def State.setAcctFull (s : State) : State :=
  if s.ledger.acctFull then s else ({ s with ledger := { s.ledger with acctFull := true } } : State).ledgerRise
def State.setLeaseTmo (s : State) : State :=
  if s.ledger.leaseTmo then s else ({ s with ledger := { s.ledger with leaseTmo := true } } : State).ledgerRise

/-! ### Retirement (R278) -/

/-- Retire an account for this instance bit: flag, slots, EXHAUST, graft, and the waiting requests. -/
def State.retire (s : State) (n : Nat) : State :=
  match Store.find s.ledger.accts n with
  | none => s
  | some a =>
    let gs := (s.hw.slots.filter (fun p => s.slotOfAcct p.2 a)).map (·.1)
    let t := s.putAcct n (acctSetRet a s.inst)
    let t := gs.foldl (fun x g => ({ x with hw := { x.hw with slots := Store.upd x.hw.slots g (fun y => { y with st := .retired }) } }
      : State).slotDirty g []) t
    let t := ({ t with ledger := { t.ledger with leases := t.ledger.leases.filter (fun l => l.acct != n) } } : State).setExhaust
    let t := t.graft (.retire n)
    ((t.reqs.filter (fun r => r.2.phase == .waitLease && r.2.acct == some n)).map (·.1)).foldl
      (fun x rid => x.reject rid St.nonceExhausted 0x00) t

/-- The account is left with no counter that this instance may still take (R278): no lease remains and none may be requested. -/
def State.spent (s : State) (n : Nat) (a : Acct) : Bool :=
  s.acctBound a && decide (s.acctEnd a ≤ acctHwm a s.inst) && !(s.ledger.leases.any (fun l => l.acct == n))

/-- A lease ends; an account that is left without a counter is retired (R274, R278, R280). -/
def State.endLease (s : State) (l : Lease) : State :=
  let t := { s with ledger := { s.ledger with leases := s.ledger.leases.filter (fun x => !(x.acct == l.acct && x.idx == l.idx)) } }
  match Store.find t.ledger.accts l.acct with
  | some a => if t.spent l.acct a then t.retire l.acct else t
  | none => t

/-- A counter taken from a lease still waits to be drawn (R274). -/
def State.leaseHeld (s : State) (l : Lease) : Bool :=
  s.reqs.any (fun r => r.2.acct == some l.acct && !r.2.drawn && r.2.counter.elim false (fun c => c / 2 ^ 20 == l.idx))

/-- The live lease of a partition that has been idle longest and may be abandoned (R274). -/
def State.abandonable (s : State) (part : Nat) : Option Lease :=
  (s.ledger.leases.filter (fun l => l.part == part && l.live && !(s.leaseHeld l))).foldl
    (fun b l => match b with
      | some x => if l.used < x.used then some l else b
      | none => some l) none

/-- Leases charged to a partition (R274). -/
def State.leasesOf (s : State) (part : Nat) : Nat := (s.ledger.leases.filter (fun l => l.part == part)).length

/-! ### New leases (R271 to R276) -/

/-- The pair link carries no lease acknowledgement: it is down, or the peer cannot persist (R282, R445). -/
def State.soloNow (s : State) : Bool := s.pair.ident.paired && (s.pair.link != .synced || s.pair.peerPdown)

/-- LEDGER_CFG.STRICT_PAIR. -/
def State.strictPair (s : State) : Bool := bitAt (s.aon 0x800) 10

/-- Why a new lease cannot be had now, as DETAIL of LEASE_UNAVAILABLE (R276, R455). -/
def State.leaseBar (s : State) (part acct : Nat) : Option Nat :=
  if s.pair.acctWait && !(s.ledger.known.contains acct) then some 0x08
  else if ((s.part part).elim 0 (·.assign.leases)) = 0 then some 0x04
  else if s.ledger.persistDown then some 0x02
  else if s.pair.instConflict then some 0x06
  else if s.pair.ident.paired && s.strictPair && s.pair.link != .synced then some 0x05
  else if s.pair.ident.paired && s.strictPair && s.pair.peerPdown then some 0x07
  else none

/-- Request a lease for an account, at the lowest index never persisted; a partition at its limit abandons its lease that
has been idle longest, and requests nothing when none may be abandoned (R273, R274). -/
def State.openLease (s : State) (part acct : Nat) : State :=
  let full := decide ((s.part part).elim 0 (·.assign.leases) ≤ s.leasesOf part)
  let t := if full then (s.abandonable part).elim s s.endLease else s
  match Store.find t.ledger.accts acct with
  | none => t
  | some a =>
    if acctRet a t.inst || decide (t.acctEnd a ≤ acctHwm a t.inst) || decide ((t.part part).elim 0 (·.assign.leases) ≤ t.leasesOf part)
    then t
    else
      let l : Lease := { acct := acct, idx := acctHwm a t.inst, part := part, live := false, taken := 0, image := none, acked := false
                         graft := none, grafted := false, used := t.nextId }
      (({ t with ledger := { t.ledger with leases := t.ledger.leases ++ [l], solo := t.ledger.solo || t.soloNow }
                 persist := { t.persist with lease := true } } : State).acctDirty acct).bump

/-- A lease of the account is being persisted. -/
def State.leasePending (s : State) (acct : Nat) : Bool := s.ledger.leases.any (fun l => l.acct == acct && !l.live)

/-- The live lease that the next counter of an account comes from. -/
def State.liveLease (s : State) (acct : Nat) : Option Lease :=
  (s.ledger.leases.filter (fun l => l.acct == acct && l.live && decide (l.taken < 2 ^ 20))).foldl
    (fun b l => match b with
      | some x => if l.idx < x.idx then some l else b
      | none => some l) none

/-- A request takes the next counter of a lease and may be placed; at 3 × 2^18 taken counters the next lease is requested, and the
last counter ends the lease (R270, R274, R275, R278). -/
def State.takeCounter (s : State) (rid part : Nat) (l : Lease) : State :=
  let m := { l with taken := l.taken + 1, used := s.nextId }
  let t := { s with ledger := { s.ledger with leases := s.ledger.leases.map (fun (x : Lease) =>
    if x.acct = l.acct ∧ x.idx = l.idx then m else x) } }
  let t := (t.updReq rid (fun r =>
    { r with counter := some (l.idx * 2 ^ 20 + l.taken), inst := s.inst, phase := .waitPlace })).bump
  let e := (Store.find t.ledger.accts l.acct).elim 0 t.acctEnd
  let t := if 3 * 2 ^ 18 ≤ m.taken ∧ !(t.leasePending l.acct) ∧ !(t.ledger.leases.any (fun x => x.acct == l.acct && decide (l.idx < x.idx)))
      ∧ l.idx + 1 < e ∧ (t.leaseBar part l.acct == none ∨ t.leaseBar part l.acct == some 0x02)
    then t.openLease part l.acct else t
  if m.taken = 2 ^ 20 then t.endLease m else t

/-- Serve one request that waits for a counter of its account (R275, R276, R278): it takes one, or it completes, or a lease is requested
unless one of the account is being persisted. A request whose slot no longer holds its key goes on to the check of R25. -/
def State.serveLease (s : State) (rid : Nat) : State :=
  match s.req rid with
  | none => s
  | some r =>
    if !(s.keysSame r) then s.setPhase rid .waitPlace
    else
      match r.acct.bind (fun n => (Store.find s.ledger.accts n).map (fun a => (n, a))) with
      | none => s.reject rid St.leaseUnavailable 0x03
      | some (n, a) =>
        match s.liveLease n with
        | some l => s.takeCounter rid r.part l
        | none =>
          if acctRet a s.inst then s.reject rid St.nonceExhausted 0x00
          else if s.spent n a then s.retire n
          else
            match s.leaseBar r.part n with
            | some d => s.reject rid St.leaseUnavailable d
            | none => if s.leasePending n then s else s.openLease r.part n

/-- One waiting request is served before another. -/
def insertWait (x : Nat × Nat) : List (Nat × Nat) → List (Nat × Nat)
  | [] => [x]
  | y :: ys => if y.2 ≤ x.2 then y :: insertWait x ys else x :: y :: ys

/-- The requests that wait for a lease and satisfy a test, in their order of placement (R275). -/
def State.leaseWaits (s : State) (p : Req → Bool) : List Nat :=
  ((s.reqs.filter (fun r => r.2.phase == .waitLease && p r.2)).foldl (fun l r => insertWait (r.1, r.2.waitSeq) l) []).map (·.1)

/-- Those that wait for a lease of an account. -/
def State.leaseWaiters (s : State) (n : Nat) : List Nat := s.leaseWaits (fun r => r.acct == some n)

/-- Serve requests in their order while they wait. -/
def State.serveWaiting (s : State) (l : List Nat) : State :=
  l.foldl (fun t rid => if (t.req rid).elim false (fun r => r.phase == .waitLease) then t.serveLease rid else t) s

/-- Serve the waiting requests of an account while it has counters (R275). -/
def State.serveAcct (s : State) (n : Nat) : State := s.serveWaiting (s.leaseWaiters n)

/-- Waiting requests whose account has no lease on its way are served again: a lease that the partition's limit held back is requested
once one may be abandoned (R274). -/
def State.retryLeases (s : State) : State :=
  s.serveWaiting (s.leaseWaits (fun r => r.acct.elim true (fun n => !(s.leasePending n))))

/-- A picked request enters the wait of R275. -/
def State.waitLease (s : State) (rid : Nat) : State :=
  let t := ((s.updReq rid (fun r => { r with phase := .waitLease, waitSeq := s.nextId })).bump).serveLease rid
  t.countP ((t.req rid).elim 0 (·.part)) 40 (b2n ((t.req rid).elim false (fun r => r.phase == .waitLease)))

/-- A lease may become live: its image is acknowledged, and in a pair whose link is up its graft (R271, R445). -/
def State.leaseReady (s : State) (l : Lease) : Bool :=
  !l.live && l.acked && (!s.pair.ident.paired || l.grafted || (s.soloNow && !s.strictPair))

/-- Waiting requests that a change makes hopeless complete at once (R276, R455). -/
def State.barWaiters (s : State) (d : Nat) : State :=
  ((s.reqs.filter (fun r => r.2.phase == .waitLease)).map (·.1)).foldl (fun t rid => t.reject rid St.leaseUnavailable d) s

/-- The image of a lease went unacknowledged: PERSIST_DOWN and its consequences (R277). -/
def State.persistDown (s : State) : State :=
  let t := if s.ledger.persistDown then s
    else (({ s with ledger := { s.ledger with persistDown := true } } : State).ledgerRise).send 0x59 2 s.persist.lastSeq
  t.barWaiters 0x02

/-! ### Accounts for imported keys (R402 step 12, R403) -/

/-- The account check of R402 step 12: none when the account exists and is not retired or can be created. -/
def State.acctCheck (s : State) (a : KeyAttr) (mat : Bytes) : Option Nat :=
  match s.acctFind (s.fpOf mat) a.epoch a.lgid with
  | some n => if (Store.find s.ledger.accts n).elim false (fun x => acctRet x s.inst) then some 0x0D else none
  | none => if 8192 ≤ s.ledger.accts.length then some 0x06 else none

/-- Find or create the account of an imported key (R403). -/
def State.bindAcct (s : State) (a : KeyAttr) (mat : Bytes) : State :=
  let fp := s.fpOf mat
  match s.acctFind fp a.epoch a.lgid with
  | some _ => s
  | none =>
    let n := s.acctFree
    let t := s.putAcct n { fp := fp, epoch := a.epoch, lgid := a.lgid, hwm0 := 0, hwm1 := 0, ret0 := false, ret1 := false }
    { t with ledger := { t.ledger with known := addMem t.ledger.known n } }

end Sys2Proof.Machine
end

