-- ==== Sys2Proof/Machine/Flow.lean ====
section
/-! DEFINITION. A request on its unit: the checks at dispatch, the key load, the reads in their order — lists, state record, source —
with the draw of the nonce between, the commands of a list job, and the output that leaves a lane before its last cycle (spec/01 R25,
spec/06 R219 to R227, spec/07 R240, spec/09 R295, spec/11 R351 to R365, spec/12 R379 to R385). -/

namespace Sys2Proof.Machine

/-- Gathered pieces in order of their offset. -/
def gathered (l : List (Nat × Bytes)) : Bytes := (l.map (·.2)).flatten

/-- The source string: inline bytes, then what was read; zeros stand where nothing has arrived yet. -/
def Req.source (r : Req) : Bytes :=
  let b := slice r.entry 64 (cInline r.entry) ++ r.src.foldl (fun b p => b ++ zeros (p.1 - b.length) ++ p.2) []
  b ++ zeros (srcLen r.entry - b.length)

/-- Where the bytes that have arrived from offset `a` of the source string on end. -/
def Req.reach (r : Req) (a : Nat) : Nat :=
  let i := cInline r.entry
  r.src.foldl (fun c p => if i + p.1 ≤ c ∧ c < i + p.1 + p.2.length then i + p.1 + p.2.length else c) (max a i)

/-- The header bytes of a PAGE_SEAL verification (R526). -/
def Req.stored (r : Req) : Bytes := slice r.entry 64 64

/-- Whether a PAGE_SEAL covers its payload, and the payload's length (R526). -/
def Req.cover (r : Req) : Bool := if eFlag r.entry 0 then bitAt (fld r.stored 3 1) 0 else eFlag r.entry 1
def Req.payLen (r : Req) : Nat := if r.cover then (if eFlag r.entry 0 then fld r.stored 8 4 else fld r.entry 16 4) else 0

/-- A read of the request is outstanding. -/
def State.readsOut (s : State) (rid : Nat) : Bool :=
  s.fab.any (fun t => !t.isWrite && t.phase != .held && t.purpose.rid == some rid)

/-- The request's lists: source for opcodes 1 to 6, destination for 1 to 4. -/
def Req.srcSgl (r : Req) : Bool := decide (r.origOp ≤ 6) && cSrcSgl r.entry
def Req.dstSgl (r : Req) : Bool := decide (r.origOp ≤ 4) && cDstSgl r.entry

/-- The attributes that the request runs under: those it started with (R25), else the slot's. -/
def State.keyAttr (s : State) (r : Req) : KeyAttr := r.attr.getD ((r.keys.head?).elim KeyAttr.blank (fun k => (s.slot k.1).attr))

/-- The IV source of the request under its key (R211). -/
def State.ivFrom (s : State) (r : Req) : IvSource :=
  if r.origOp ≤ 4 ∧ !r.keys.isEmpty then ivSource r.entry (s.keyAttr r) else .none

/-- The length of the IV that Pleod builds for the request. -/
def State.builtLen (s : State) (r : Req) : Nat :=
  match s.ivFrom r with
  | .ledger | .drbg => ivLen r.entry
  | _ => 0

/-- The first failed list check, as status and DETAIL (R208, R220, R221). -/
def State.listCheck (s : State) (r : Req) : Option (Nat × Nat) :=
  let sl := gathered r.srcList
  let dl := gathered r.dstList
  if r.srcSgl ∧ !(elementsOk sl) ∨ r.dstSgl ∧ !(elementsOk dl) then some (St.malformed, 0x0A)
  else if r.srcSgl ∧ ((elements sl).map (·.2)).sum ≠ srcLen r.entry - cInline r.entry then some (St.lengthMismatch, 0x01)
  else if r.dstSgl ∧ ((elements dl).map (·.2)).sum < outLen r.entry (s.builtLen r) then some (St.lengthMismatch, 0x02)
  else none

/-- The request continues from a state record (R300). -/
def Req.wantsRecord (r : Req) : Bool := (r.origOp == Opc.digest || r.origOp == Opc.hmac) && !(dInit r.entry)

/-- The state record read, and the inner state unwrapped from a keyed one. -/
def Req.record (r : Req) : Bytes := gathered (r.recd.filter (fun p => decide (p.1 < 4096)))
def Req.inner (r : Req) : Option Bytes := (r.recd.find? (fun p => p.1 == 4096)).map (·.2)

/-- The ranges of the source string that are read apart: in a grove the additional data, each lane's segment and the tag (R240). -/
def Req.ranges (r : Req) : List (Nat × Nat) :=
  let e := r.entry
  if r.g0 < 2 then [(0, srcLen e)]
  else (0, cAadLen e) :: r.segs.map (fun g => (cAadLen e + g.off e, g.size e)) ++ [(cAadLen e + cLen e, cTagIn e)]

/-- Present the reads of a range of the source string, whose first bytes are inline; `elems` holds the others. -/
def State.readRange (s : State) (rid : Nat) (r : Req) (elems : List (Nat × Nat)) (g : Nat × Nat) : State :=
  let i := cInline r.entry
  let o := max g.1 i
  (spread elems (o - i) (g.1 + g.2 - o) (o - i)).foldl (fun t p => t.reads r.part 1 p.1 p.2.1 (fun k => .src rid (p.2.2 + k))) s

/-- Present the source reads of a request; none are needed when the answer leaves the state's fabric as it was. -/
def State.readSource (s : State) (rid : Nat) (r : Req) : State :=
  let e := r.entry
  let op := r.origOp
  let pf := fun o => Purpose.src rid o
  if r.owner = .kek then s.reads r.part 1 (fld e 0 8) 48 pf
  else if op ≤ 6 then
    r.ranges.foldl (fun t g => t.readRange rid r (if r.srcSgl then elements (gathered r.srcList) else [(cSrc e, 2 ^ 49)]) g) s
  else if op = Opc.keyUnwrap ∨ op = Opc.pkaOp then s.reads r.part 1 (cSrc e) (srcLen e - cInline e) pf
  else if op = Opc.pageSeal then s.reads r.part 1 (cSrc e) r.payLen pf
  else s

/-- The request's unit has all that it needs. -/
def State.readyUp (s : State) (rid : Nat) : State := s.updReq rid (fun r => { r with phase := .ready, ran := true })

/-! ### Clusters -/

/-- The cluster that a request holds. -/
def Req.cluster (r : Req) : Nat := r.units.head?.getD 0x30

/-- The commands of a WMAC_LIST, inline or read. -/
def Req.cmds (r : Req) : List Bytes :=
  (wmacCmds (if wList r.entry = 0 then slice r.entry 64 (16 * wCount r.entry) else gathered r.srcList)).take (wCount r.entry)

/-- Words of a job entered into its FIFO region. -/
def putWords (words : RegFile) (start : Nat) : List Nat → RegFile
  | [] => words
  | w :: ws => putWords (RegFile.set words 0 (start % 2048) (wordOf w)) (start + 1) ws

/-- What the LOAD of command i has read. -/
def Req.loaded (r : Req) (i : Nat) : Bytes := gathered (r.src.filter (fun p => decide (p.1 / 4096 = i)))

/-- A list job goes on to its next LOAD, whose reads are presented, or to its end: commands run strictly in list order, and a STORE's
writes are issued and not waited for (R379, R382, R385). Command i gathers at offset 4096 × i. -/
def State.wmacGo (s : State) (rid : Nat) (r : Req) : State :=
  let u := s.unit r.cluster
  let p := wmacRun r.loaded (r.cmds.drop r.cmd) r.cmd { tiles := u.tiles, acc := u.acc, stores := [], words := [] }
  let t := s.updUnit r.cluster (fun x => { x with tiles := p.2.tiles, acc := p.2.acc })
  let t := t.updPart r.part (fun x =>
    { x with rf := { x.rf with words := putWords x.rf.words (r.fifo.elim 0 (·.1) + r.words) p.2.words } })
  let t := t.updReq rid (fun x => { x with cmd := p.1, words := x.words + p.2.words.length, src := [] })
  let t := p.2.stores.foldl (fun x w => x.writes r.part 2 w.1 w.2 (.out rid)) t
  match r.cmds[p.1]? with
  | some c => t.reads r.part 1 (wAddr c) (64 * wB c 3) (fun o => .src rid (4096 * p.1 + o))
  | none => t.readyUp rid

/-- The source of a PKA_OP is in place: its public operands lie in tiles from 8 on, the hash helper takes in the message (R354,
R365). -/
def State.pkaSource (s : State) (r : Req) : State :=
  let e := r.entry
  s.updUnit r.cluster (fun u =>
    let m := layTiles (pkaBig (pAlgo e)) .pub pubTile (pkaOperands e (pModBits e / 8) r.source) (u.tiles, u.roles)
    { u with
      tiles := m.1, roles := m.2
      hash := if pkaHasM (pAlgo e) (pFunc e) then r.source.drop (pkaFixed e 0 - pCtxLen e) else [] })

/-! ### The stages of a request -/

/-- Draw the reserved counter, or obtain the built IV from the DRBG (R211 to R213). -/
def State.drawIv (s : State) (rid : Nat) (r : Req) : State :=
  if r.drawn then s
  else
    match s.ivFrom r with
    | .ledger => s.updReq rid (fun x => { x with drawn := true, iv := nonceFor x.inst (s.keyAttr r) (x.counter.getD 0) })
    | .drbg =>
      let n := ivLen r.entry
      let (bs, t) := s.drbg n
      let z := if cMode r.entry = mCtr then min 8 (cParam r.entry / 8) else 0
      t.updReq rid (fun x => { x with drawn := true, iv := bs.take (n - z) ++ zeros z })
    | _ => s.updReq rid (fun x => { x with drawn := true })

/-- The nonce cannot be had at dispatch: RAND_RDY is low (log entry 36), or the reserved counter was taken under another instance
bit (R267). -/
def State.noNonce (s : State) (r : Req) : Bool :=
  !r.drawn && ((s.ivFrom r == .drbg && !s.rng.ready) || (s.ivFrom r == .ledger && r.inst != s.inst))

/-- The request gives its units back and waits again for randomness, or for its placement with a new counter. -/
def State.waitAgain (s : State) (rid : Nat) (r : Req) : State :=
  ((s.chargeHeld r).freeUnits r.units).updReq rid (fun x =>
    { x with phase := if s.ivFrom r = .drbg then .waitRand else .waitPlace, counter := none, units := [], started := false
             attr := none, segs := [], g0 := 0, srcList := [], dstList := [] })

/-- The reads are in: the request is ready, but a secret-bearing job first makes its draw (R354). -/
def State.sourceIn (s : State) (rid : Nat) (r : Req) : State :=
  if r.origOp = Opc.pkaOp then
    let t := s.pkaSource r
    if pkaSecret (pFunc r.entry) then t.setPhase rid .waitRand else t.readyUp rid
  else s.readyUp rid

/-- Present the source reads, or go on when there are none. -/
def State.toSource (s : State) (rid : Nat) : State :=
  match s.req rid with
  | none => s
  | some r =>
    let t := if r.src.isEmpty && !(s.readsOut rid) then s.readSource rid r else s
    if t.readsOut rid then t else t.sourceIn rid r

/-- WMAC_LIST: the list, its checks, its commands (R381 to R384). -/
def State.advanceWmac (s : State) (rid : Nat) (r : Req) : State :=
  if wList r.entry ≠ 0 ∧ r.srcList.isEmpty then
    s.reads r.part 1 (wList r.entry) (16 * wCount r.entry) (fun o => .srcList rid o)
  else
    match wmacCheck (wFifo r.entry) r.cmds with
    | some (i, st, d) => s.complete rid st d i
    | none => s.wmacGo rid r

/-- The check of the state record's clear part, and the record's unwrapping (R303, R304). -/
def State.advanceRecord (s : State) (rid : Nat) (r : Req) : State :=
  let e := r.entry
  if !(digestRecOk e r.record) then s.endReq rid St.contextInvalid 0x05
  else if r.origOp = Opc.hmac ∧ r.inner = none then
    (((s.chargeHeld r).freeUnits r.units).updReq rid (fun x => { x with phase := .unwrapping, units := [], waitSeq := s.nextId })).bump
  else if !(digestCountOk e (digestCount r.record)) then s.endReq rid St.lengthMismatch 0x04
  else s.toSource rid

/-- A request in its reading phase with nothing outstanding takes its next stage (R219, R295). -/
def State.advance (s : State) (rid : Nat) : State :=
  match s.req rid with
  | none => s
  | some r =>
    if r.phase ≠ .reading ∨ s.readsOut rid then s
    else if r.origOp = Opc.wmacList then s.advanceWmac rid r
    else if r.srcSgl ∧ r.srcList.isEmpty ∨ r.dstSgl ∧ r.dstList.isEmpty then
      let t := if r.srcSgl then s.reads r.part 1 (cSrc r.entry) (16 * cSrcCnt r.entry) (fun o => .srcList rid o) else s
      if r.dstSgl then t.reads r.part 2 (cDst r.entry) (16 * cDstCnt r.entry) (fun o => .dstList rid o) else t
    else
      match s.listCheck r with
      | some (st, d) => s.endReq rid st d
      | none =>
        if r.wantsRecord then
          if r.record.isEmpty then s.reads r.part 1 (dState r.entry) (digestRecLen r.entry) (fun o => .recd rid o)
          else s.advanceRecord rid r
        else if s.noNonce r then s.waitAgain rid r
        else (s.drawIv rid r).toSource rid

/-- Load the key register of every lane that does not hold the request's slot (R25, R210, R298). A private key goes into SECRET operand
tiles of its cluster instead (R351, R365). -/
def State.loadKeys (s : State) (r : Req) : State :=
  if r.kind = some .cluster then
    if r.origOp = Opc.pkaOp then
      s.updUnit r.cluster (fun u =>
        let m := layTiles (pkaBig (pAlgo r.entry)) .secret secretTile ((r.keys.take 1).map (fun k => s.matOf k.1)) (u.tiles, decoyRoles)
        { u with tiles := m.1, roles := m.2 })
    else s
  else
    match r.keys.head? with
    | none => s
    | some k =>
      r.units.foldl (fun t u =>
        let hot := (t.unit u).key.elim false (fun x => x.slot == k.1 && !x.stale && x.keyId == k.2)
        if hot then t
        else t.updUnit u (fun x => { x with key := some { slot := k.1, keyId := k.2, mat := s.matOf k.1, stale := false } })) s

/-- The attributes and material that KEY_EXPORT wraps, taken at dispatch (R407). -/
def State.exportPlain (s : State) (r : Req) : List (Nat × Bytes) :=
  match r.keys[1]? with
  | some k => [(0, blobPlain (s.slot k.1).attr (s.slot k.1).mat)]
  | none => []

/-- A scrub has found the slot's or KEK's tile failing (R507). -/
def State.keyBad (s : State) (g : Nat) : Bool := if 4608 ≤ g then s.hw.badKeks.contains (g - 4608) else (s.slot g).bad

/-- Every unit of the request is awake: it is dispatched (R25, R239, R262 check 7). -/
def State.dispatch (s : State) (rid : Nat) : State :=
  match s.req rid with
  | none => s
  | some r =>
    if r.owner ≠ .kek ∧ !(s.keysSame r) then
      if r.started then s.endReq rid St.contextInvalid 0x04 else s.endReq rid St.keySlotInvalid 0x06
    else if r.keys.any (fun k => s.keyBad k.1) then s.endReq rid St.tileCheck 0x04
    else
      let t := (s.loadKeys r).updReq rid (fun x => { x with
        started := true, ctxTiles := 0, waitSeq := s.nextId, phase := if 2 ≤ r.g0 then .forming else .reading
        attr := x.attr.or ((r.keys.head?).map (fun k => (s.slot k.1).attr)), clean := true, ran := false
        src := if r.origOp = Opc.keyExport then s.exportPlain r else x.src })
      let t := (t.dropSave rid).bump
      if 2 ≤ r.g0 then t else t.advance rid

/-- The units are granted to the request: gated ones are clock-enabled, the others carry it at once (R115, R116). -/
def State.assign (s : State) (rid : Nat) (us : List Nat) : State :=
  match s.req rid with
  | none => s
  | some r =>
    let t := us.foldl (fun x u => x.updUnit u (fun y =>
      { y with power := if y.power = .gated then .waking else y.power, work := .req rid
               charge := if r.owner = .kek then none else some r.part })) s
    let t := t.updReq rid (fun x => { x with units := us, phase := .waking })
    if us.all (fun u => (t.unit u).power == .awake) then t.dispatch rid else t

/-! ### What a lane makes of a request -/

/-- The working copy of the key that the request started with (R25): the key register's, or that in the SECRET tiles (R365). -/
def State.keyOf (s : State) (r : Req) : Bytes :=
  if r.kind = some .cluster then
    tileForm (pkaBig (pAlgo r.entry)) (Mem.bytes (s.unit r.cluster).tiles (64 * secretTile) (r.attr.elim 0 (·.len)))
  else
    match r.units.head? with
    | some u => (s.unit u).key.elim [] (·.mat)
    | none => []

/-- The IV that the lane works with (R212). -/
def State.ivOf (s : State) (r : Req) : Bytes :=
  match s.ivFrom r with
  | .field => slice r.entry 48 (ivLen r.entry)
  | .none => []
  | _ => r.iv

/-- The lane work of a request (R215). -/
def State.laneWork (s : State) (r : Req) : LaneOut :=
  let built := if 0 < s.builtLen r then r.iv else []
  laneOut r.entry (s.keyOf r) (s.ivOf r) built r.source

/-! ### Output ahead of the last cycle (R227, R230, R240, R249) -/

/-- The request writes output as it is produced; a gated decryption and a MAC do not (R225). -/
def Req.early (r : Req) : Bool := decide (1 ≤ r.origOp ∧ r.origOp ≤ 3) && r.stagingNeed == 0

/-- Write the output string up to an offset. -/
def State.putTo (s : State) (rid : Nat) (r : Req) (n : Nat) : State :=
  let body := (s.laneWork r).body.take n
  if body.length ≤ r.wrote then s
  else (s.updReq rid (fun x => { x with wrote := body.length, clean := false })).writeOut r r.wrote (body.drop r.wrote) (.out rid)

/-- Write a segment's output up to an offset within it: each lane writes its own range (R240). -/
def State.putSeg (s : State) (rid : Nat) (r : Req) (g : Segment) (n : Nat) : State :=
  if n ≤ g.wrote then s
  else
    let o := s.builtLen r + g.off r.entry + g.wrote
    (s.updReq rid (fun x => { x with
        clean := false, segs := x.segs.map (fun (h : Segment) => if h.start = g.start then { h with wrote := n } else h) })).writeOut r o
      (slice (s.laneWork r).body o (n - g.wrote)) (.out rid)

/-- Payload bytes of a range of the payload that have arrived, from its start. -/
def Req.arrived (r : Req) (off size : Nat) : Nat := min size (r.reach (cAadLen r.entry + off) - (cAadLen r.entry + off))

/-- Whole blocks that have left the lanes are written while the source still arrives; how many is a free value (log entry 61). -/
def State.produce (s : State) (rid : Nat) : State :=
  match s.req rid with
  | none => s
  | some r =>
    if !r.early || !r.drawn || (r.phase != .reading && r.phase != .ready && r.phase != .capturing) then s
    else
      let k := Config.progress s.picks
      let t := { s with picks := s.picks + 1 }
      let b := s.builtLen r
      if r.g0 < 2 then t.putTo rid r (b + wholeBlocks r.entry (min k (r.arrived 0 (cLen r.entry))))
      else
        (r.segs.filter (fun g => g.lane.isSome && !g.done)).foldl (fun x g =>
          x.putSeg rid r g (wholeBlocks r.entry (min k (r.arrived (g.off r.entry) (g.size r.entry))))) (t.putTo rid r b)

end Sys2Proof.Machine
end

