-- ==== Sys2Proof/Machine/Finish.lean ====
section
/-! DEFINITION. What a unit's last cycle does for each kind of request: the result, the writes it issues, the installs and the
statuses (spec/06 R224 to R230, spec/09 R303 to R306, spec/11 R352 to R359, spec/12 R384 to R388, spec/13 R402 to R407,
R410, spec/18 R529, R530). -/

namespace Sys2Proof.Machine

/-! ### Writes -/

/-- The offset of the tag in the output string (R224). -/
def State.tagOff (s : State) (r : Req) : Nat := s.builtLen r + payloadOut r.entry

/-- Every write that the request has issued is answered: the tag write follows, or the request settles (R230). -/
def State.writesDone (s : State) (rid : Nat) : State :=
  match s.req rid with
  | none => s
  | some r =>
    if s.writesOut rid then s
    else if !r.failed ∧ !r.tagBytes.isEmpty then
      (s.updReq rid (fun x => { x with phase := .tagWriting, tagBytes := [] })).writeOut r (s.tagOff r) r.tagBytes (.tagOut rid)
    else s.settle rid

/-- Write bytes at a fixed address, as one contiguous output. -/
def State.emitAt (s : State) (rid : Nat) (r : Req) (addr : Nat) (bs : Bytes) (result : Nat) : State :=
  let t := s.updReq rid (fun x => { x with phase := .writing, status := St.success, detail := 0, result := result })
  (t.writes r.part 2 addr bs (.out rid)).writesDone rid

/-- A single-unit request leaves its unit; a grove keeps its lanes (R247). -/
def State.leaveUnits (s : State) (rid : Nat) (r : Req) : State :=
  if 2 ≤ r.g0 then s else (s.freeUnits r.units).updReq rid (fun x => { x with units := [] })

/-! ### Cipher lanes -/

/-- RESULT of an encryption or generation under a ledger-bound slot is the counter (R224). -/
def State.cipherResult (s : State) (r : Req) (padRes : Nat) : Nat :=
  if s.ivFrom r = .ledger ∧ (r.origOp = Opc.aead ∨ r.origOp = Opc.mac) then r.counter.getD 0 else padRes

/-- The output that is still to be written: from the last offset on, in a grove each lane's range (R240). -/
def State.putRest (s : State) (rid : Nat) (r : Req) : State :=
  if r.g0 < 2 then s.putTo rid r (outLen r.entry (s.builtLen r))
  else r.segs.foldl (fun t g => t.putSeg rid r g (g.size r.entry)) (s.putTo rid r (s.builtLen r))

/-- A cipher request's last cycle (R224 to R230). -/
def State.cipherDone (s : State) (rid : Nat) (r : Req) : State :=
  let o := s.laneWork r
  if !o.tagOk && !r.streaming then (s.leaveUnits rid r).reject rid St.authFail 0x00
  else
    let t := (s.putRest rid r).leaveUnits rid r
    (t.updReq rid (fun x =>
      if o.tagOk then
        { x with phase := .writing, status := St.success, detail := 0, result := s.cipherResult r o.result, tagBytes := o.tag }
      else { x with phase := .writing, failed := true, status := St.authFail, detail := 0x01, result := 0 })).writesDone rid

/-! ### Digest lanes -/

/-- The chaining state and COUNT that the entry starts from (R300). -/
def Req.digestFrom (r : Req) (mat : Bytes) : List Nat × Nat :=
  if dInit r.entry then (digestStart r.entry mat, 0)
  else (digestStateOf (dAlg r.entry) (r.inner.getD (slice r.record 32 200)), digestCount r.record)

/-- The key in `recd` under which a keyed state record stands while the engine wraps it. -/
def wrapKeyOff : Nat := 8192

/-- A keyed state record goes to the export engine, which serves it in its turn (R303). -/
def State.toWrap (s : State) (rid : Nat) (rec_ : Bytes) (count : Nat) : State :=
  (s.updReq rid (fun x => { x with
    phase := .wrapping, waitSeq := s.nextId, status := St.success, detail := 0, result := count
    recd := Store.put x.recd wrapKeyOff rec_ })).bump

/-- A DIGEST or HMAC request's last cycle (R299, R301, R303, R305, R306). -/
def State.digestDone (s : State) (rid : Nat) (r : Req) : State :=
  let e := r.entry
  let mat := s.keyOf r
  let st := r.digestFrom mat
  let m := r.source.take (cLen e)
  let t := s.leaveUnits rid r
  match digestRun e st.1 st.2 mat m with
  | .badTail => t.reject rid St.malformed 0x0A
  | .record count h =>
    let rec_ := s.digestRecord e r.part count h mat
    if r.origOp = Opc.hmac then t.toWrap rid rec_ count else t.emitAt rid r (dState e) rec_ count
  | .result bs =>
    if dVerify e then
      if slice r.source (cLen e) (dTagEff e) == bs then t.complete rid St.success 0 0 else t.reject rid St.authFail 0x00
    else t.emitAt rid r (cDst e) bs 0

/-- The first 32 bytes of the page header of a generation (R527). -/
def pageHead (e : Bytes) : Bytes :=
  [0x01, byteOf (fld e 10 1), byteOf (fld e 12 1), byteOf (b2n (eFlag e 1)), byteOf (fld e 11 1), 0, 0, 0]
  ++ slice e 16 4 ++ zeros 4 ++ slice e 40 8 ++ slice e 48 8

/-- A PAGE_SEAL request's last cycle (R528, R530). -/
def State.pageDone (s : State) (rid : Nat) (r : Req) : State :=
  let e := r.entry
  let mat := s.keyOf r
  let t := s.leaveUnits rid r
  let pay := if r.cover then (gathered r.src).take r.payLen else []
  if eFlag e 0 then
    let n := fld r.stored 4 1
    let mac := (hmac (fld r.stored 1 1) mat (r.stored.take 32 ++ pay)).take n
    if slice r.stored 32 n == mac then t.complete rid St.success 0 0 else t.reject rid St.authFail 0x00
  else
    let n := fld e 11 1
    let mac := (hmac (fld e 10 1) mat (pageHead e ++ pay)).take n
    t.emitAt rid r (fld e 32 8) (pageHead e ++ slice mac 0 32) 0

/-! ### Key operations -/

/-- Install a key into the request's target slot after steps 11 and 12 of R402 (R403). -/
def State.landInstall (s : State) (rid : Nat) (r : Req) (a : KeyAttr) (mat : Bytes) : State :=
  match r.dslot with
  | none => s
  | some g =>
    if !(s.tilesOk r.part g mat.length) then s.reject rid St.keyPolicy 0x0A
    else
      match (if a.ledger then s.acctCheck a mat else none) with
      | some d => (if d = 0x06 then s.setAcctFull else s).reject rid St.keyPolicy d
      | none =>
        let t := if a.ledger then s.bindAcct a mat else s
        ((t.install g r.part .valid a mat).cfgGraft (.slot g)).complete rid St.success 0 0

/-- KEY_UNWRAP's last cycle (R402 steps 7 to 12). -/
def State.unwrapDone (s : State) (rid : Nat) (r : Req) : State :=
  let key := s.keyOf r
  let t := s.leaveUnits rid r
  match kwUnwrap key r.source with
  | none => t.reject rid St.authFail 0x04
  | some u =>
    match openBlob u (kInLen r.entry) with
    | .error d => t.reject rid St.keyPolicy d
    | .ok (a, mat) => t.landInstall rid r a mat

/-- KEY_DERIVE's last cycle (R405, R406): step 8 of R402 on ATTR, then step 9 on the derived material. -/
def State.deriveDone (s : State) (rid : Nat) (r : Req) : State :=
  let a := attrOf (kAttr r.entry)
  let mat := derive r.entry (s.keyOf r)
  let t := s.leaveUnits rid r
  if !(attrValid (kAttr r.entry)) ∨ a.alg = 0 ∨ 9 < a.alg then t.reject rid St.keyPolicy 0x09
  else if (s.keyAttr r).exportP < a.exportP then t.reject rid St.keyPolicy 0x08
  else if xtsEqual a.alg mat then t.reject rid St.keyPolicy 0x0B
  else t.landInstall rid r a mat

/-- KEY_EXPORT's last cycle (R407). -/
def State.exportKeyDone (s : State) (rid : Nat) (r : Req) : State :=
  let blob := kwWrap (s.keyOf r) (gathered r.src)
  (s.leaveUnits rid r).emitAt rid r (cDst r.entry) blob 0

/-- The end of an HW_CMD operation without DONE (R412). -/
def State.hwReject (s : State) (reason : Nat) : State :=
  ({ s with hw := { s.hw with op := none, rej := true, reason := reason } } : State).tryLeave

/-- The LOAD_KEK unwrap ends (R410). -/
def State.kekDone (s : State) (rid : Nat) (r : Req) : State :=
  let t := s.leaveUnits rid r
  let t := { t with reqs := Store.del t.reqs rid }
  match kwUnwrap (s.devKey "DTK" []) (gathered r.src) with
  | none => t.hwReject 0x5
  | some u =>
    if !(kekHeaderOk r.part u) then t.hwReject 0x6
    else
      let t := ({ t with hw := { t.hw with keks := Store.put t.hw.keks r.part (u.drop 8), op := none, done := true } } : State)
      (((t.markStale (4608 + r.part)).dirty 0).cfgGraft (.kek r.part)).tryLeave

/-! ### Clusters -/

/-- The assertion code of a failed result check: a point, RSA, or a lattice key (R478). -/
def pkaCode (a : Nat) : Nat := if isRsa a then 2 else if isKem a || isDsa a then 3 else 1

/-- A result check of R359 has failed: the job writes nothing. -/
def State.pkaCheck (s : State) (rid : Nat) (r : Req) : State :=
  let t := (s.leaveUnits rid r).send r.cluster 7 (pkaCode (pAlgo r.entry))
  ({ t with bg := { t.bg with pkaCheckFail := true } } : State).reject rid St.tileCheck 0x02

/-- The telemetry sums of a request's work (R511). -/
def State.countWork (s : State) (r : Req) : State :=
  if r.owner = .kek then s
  else if r.origOp ≤ 4 then s.countP r.part 16 (cLen r.entry)
  else if r.origOp ≤ 6 then s.countP r.part 20 (srcLen r.entry)
  else if r.origOp = Opc.pkaOp ∨ r.origOp = Opc.wmacList then s.countP r.part 24 1
  else s

/-- A PKA_OP job ends (R352 to R359). An ECDSA job that found no signature draws a new k; with RAND_RDY low it waits for the draw. -/
def State.pkaDone (s : State) (rid : Nat) (r : Req) : State :=
  let e := r.entry
  match pkaJob e (s.keyOf r) (r.rand.take (pkaDraw e)) r.source with
  | .redraw =>
    if s.rng.ready then
      let (bs, t) := s.drbg (pkaDraw e)
      t.updReq rid (fun x => { x with rand := bs })
    else s.setPhase rid .waitRand
  | .checkFail => (s.countWork r).pkaCheck rid r
  | .fail st d => ((s.countWork r).leaveUnits rid r).reject rid st d
  | .done dst key =>
    let t := ((s.countWork r).leaveUnits rid r).updReq rid (fun x => { x with iv := key.getD [] })
    t.emitAt rid r (cDst e) dst 0

/-- A WMAC_LIST job ends in the cycle after its last command: the STOREs that it issued are awaited (R384, R385). -/
def State.wmacDone (s : State) (rid : Nat) (r : Req) (cycles : Nat) : State :=
  let start := r.fifo.elim 0 (·.1)
  ((s.leaveUnits rid r).updReq rid (fun x => { x with
    phase := .writing, status := St.success, detail := 0
    result := r.words + 2 ^ 16 * (start % 2048) + 2 ^ 32 * min cycles (2 ^ 32 - 1) })).writesDone rid

/-! ### Any unit -/

/-- Source and ADDR of the message of a failed tile (R478, R480, R311); the seal buffer reports from its tap. -/
def tileMsg (store : StoreId) (sub tile : Nat) : Nat × Nat :=
  match store with
  | .staging => (0x49, tile)
  | .sealBuf => (0x70 + sub, tile)
  | .context | .entryCache => (0x4A, tile)
  | .operand => (0x30 + sub, tile)
  | .saveArea => (0x20 + tile / 4, 0x100 + tile % 4)
  | .heartwood =>
    (0x48, if tile < 4096 then tile else if tile < 4608 then 0x10000 + (tile - 4096) else 0x20000 + (tile - 4608))

/-- The request can meet a failed tile of a store on its units: its staging, its cluster's operand tiles, and while nothing is
written the key that it has loaded and the context from which it was restored (R26). -/
def Req.meets (r : Req) (store : StoreId) (tile : Nat) : Bool :=
  r.owner == .queue && !r.units.isEmpty
    && (r.phase == .forming || r.phase == .reading || r.phase == .ready || r.phase == .capturing || r.phase == .waitRand)
    && (match store with
        | .staging => decide (0 < r.staging)
        | .operand => r.kind == some .cluster
        | .context => r.clean && r.kind != some .cluster
        | .saveArea => r.clean && r.units == [0x20 + tile / 4]
        | .heartwood => r.clean && !r.keys.isEmpty
        | .sealBuf | .entryCache => false)

/-- A gated release meets the failed tile: the bytes of the tiles before it are written, how many is a free value (R225, log
entry 61). -/
def State.releaseSome (s : State) (rid : Nat) (r : Req) : State :=
  if r.phase = .ready ∧ r.origOp = Opc.aead ∧ 0 < r.stagingNeed ∧ (s.laneWork r).tagOk then
    ({ s with picks := s.picks + 1 } : State).putTo rid r (64 * (Config.progress s.picks % cdiv (cLen r.entry) 64))
  else s

/-- A tile that the request uses has failed its check (R26, R568): the store's source reports it and the request ends. -/
def State.tileFail (s : State) (rid : Nat) (r : Req) (store : StoreId) (tile cycles : Nat) : State :=
  let m := tileMsg store (r.cluster - 0x30) tile
  let t := (s.send m.1 0 m.2).chargeV r (cycles * r.units.length)
  ((if store = .staging then t.releaseSome rid r else t).leaveUnits rid r).endAt rid St.tileCheck 0x01

/-- What a request's last cycle does. -/
def State.lastCycle (s : State) (rid cycles : Nat) (r : Req) : State :=
  if r.origOp = Opc.pkaOp then s.pkaDone rid r
  else
    let t := s.countWork r
    if r.owner = .kek then t.kekDone rid r
    else if r.origOp ≤ 4 then t.cipherDone rid r
    else if r.origOp ≤ 6 then t.digestDone rid r
    else if r.origOp = Opc.keyUnwrap then t.unwrapDone rid r
    else if r.origOp = Opc.keyDerive then t.deriveDone rid r
    else if r.origOp = Opc.keyExport then t.exportKeyDone rid r
    else if r.origOp = Opc.wmacList then t.wmacDone rid r cycles
    else t.pageDone rid r

/-- The request can reach its last cycle: it is ready, or it was when it was asked to stop (R265), and no segment of its grove is
left. -/
def Req.canEnd (r : Req) : Bool :=
  (r.phase == .ready || (r.phase == .capturing && r.ran)) && (decide (r.g0 < 2) || r.segs.all (·.done))

/-- The last cycle of a request on its unit, or a failed tile or result check that the unit reports (R26, R30, R359). A request whose last
cycle comes before its suspension point goes on with its own status (R265). -/
def State.unitDone (s : State) (rid cycles : Nat) (bad : Option UnitFault) : State :=
  match s.req rid with
  | none => s
  | some r =>
    match bad with
    | some (.tile store tile) => if r.meets store tile then s.tileFail rid r store tile cycles else s
    | some .check =>
      if r.origOp = Opc.pkaOp ∧ r.canEnd then ((s.chargeV r (cycles * r.units.length)).countWork r).pkaCheck rid r else s
    | none =>
      if !r.canEnd then s
      else
        let t := (s.chargeV r (cycles * r.units.length)).updReq rid (fun x =>
          { x with phase := .ready, victimOf := none, expIdx := 0, ctxTiles := 0, ending := none, shedding := [] })
        if r.failed then (t.leaveUnits rid r).reject rid r.status r.detail
        else t.lastCycle rid cycles r

end Sys2Proof.Machine
end

