-- ==== Sys2Proof/Machine/Seals.lean ====
section
/-! DEFINITION. Seal streams (spec/10 R314 to R338): frames and gaps, the chain and its records, the digest lanes that seal work
takes, checkpoints, binding and closing. -/

namespace Sys2Proof.Machine

/-! ### Streams -/

/-- A stream. -/
def State.stream (s : State) (k : Nat) : Option Stream := Store.find s.seals.streams k

/-- Change a stream. -/
def State.updStream (s : State) (k : Nat) (f : Stream → Stream) : State :=
  { s with seals := { s.seals with streams := Store.upd s.seals.streams k f } }

/-- What a tap's open frame belongs to: below 64 the stream whose last frame it is; 64 no stream; 65 nothing until the next header
beat; 128 + k a frame of stream k already unsealed; 192 + k one whose remaining beats are ignored. -/
def State.openOf (s : State) (tap : Nat) : Option Nat := Store.find s.seals.opened tap
def State.setOpen (s : State) (tap v : Nat) : State := { s with seals := { s.seals with opened := Store.put s.seals.opened tap v } }
def State.noOpen (s : State) (tap : Nat) : State := { s with seals := { s.seals with opened := Store.del s.seals.opened tap } }

/-- A reason of R333 by bit number. -/
def rOverload : Nat := 0
def rRingFull : Nat := 1
def rMarker : Nat := 2
def rPassive : Nat := 3
def rTile : Nat := 4
def rAbandoned : Nat := 5
def rLane : Nat := 6

/-- Ring size, occupancy and the reserve for the close (R329). -/
def Stream.ringSize (x : Stream) : Nat := 2 ^ x.ringLog2
def Stream.reserve (x : Stream) : Nat := if x.signs then 3 else 2

/-- Slots reserved for frames, an open gap and a checkpoint (R329). -/
def Stream.held (x : Stream) : Nat :=
  (x.frames.map (·.slots)).sum + b2n (x.gap.elim false (·.slot)) + b2n (x.ckptJob.elim false (fun j => !j.2.2))

/-- Ring slots that are free beyond the reserve and the reservations. -/
def Stream.freeSlots (x : Stream) : Nat := x.ringSize - occ x.ringSize x.tail x.head - x.held - x.reserve

/-- The gap so open carries OVERLOAD. -/
def Stream.overloaded (x : Stream) : Bool :=
  x.gap.elim false (fun g => bitAt g.flags rOverload) || x.frames.any (fun f => f.reason == some rOverload)

/-- Seal buffer tiles in use and the quota (R326). -/
def Stream.tilesUsed (x : Stream) : Nat := (x.frames.map (·.held)).sum
def Stream.quota (x : Stream) : Nat := 1024 * x.buf64k

/-- The stream is past its close point (R321). -/
def Stream.pastClose (x : Stream) : Bool := x.closing.elim false (·.fixed)

/-! ### Records (R331, R332) -/

/-- Bytes 0 to 31 of a record. -/
def sealHead (rtype phase k flags aux idf timef len rseq : Nat) : Bytes :=
  [byteOf rtype, byteOf phase, byteOf k, byteOf flags] ++ leBytes 4 aux ++ leBytes 8 idf ++ leBytes 8 timef ++ leBytes 4 len
  ++ leBytes 4 rseq

/-- D of R323: the frame's digest, or that of bytes 0 to 79 with byte 1 zero. -/
def sealD (rtype k flags aux idf timef len rseq : Nat) (body : Bytes) : Bytes :=
  if rtype = 2 then body else hash 2 (sealHead rtype 0 k flags aux idf timef len rseq ++ body)

/-- The chain step of R323. -/
def chainStep (key prev d : Bytes) (idf timef : Nat) : Bytes := hmac 2 key (prev ++ d ++ beBytes 8 idf ++ beBytes 8 timef)

/-- PHASE of the record at the tail (R160). -/
def Stream.phase (x : Stream) : Nat := if x.tail / x.ringSize % 2 = 0 then 1 else 0

/-- Write 128 bytes at the ring's tail and advance it; at the last sequence number the stream closes (R329, R332). -/
def State.sealPut (s : State) (k : Nat) (x : Stream) (bs : Bytes) : State :=
  let t := s.updStream k (fun y =>
    { y with tail := (y.tail + 1) % (2 * y.ringSize), rseq := y.rseq + 1
             closing := if 0xFFFFFFF0 ≤ y.rseq + 1 ∧ y.closing.isNone then some ⟨4, none, none, true⟩ else y.closing })
  t.writes x.part 6 (x.ringBase + 128 * (x.tail % x.ringSize)) bs (.sealRec k x.rseq)

/-- Write a chained record; a stream with a failed write writes none (R323, R334). -/
def State.sealRecord (s : State) (k rtype flags aux idf timef len : Nat) (body : Bytes) : State :=
  match s.stream k with
  | none => s
  | some x =>
    if x.wrErr.isSome then s
    else
      let c := chainStep x.sealMat x.chain (sealD rtype k flags aux idf timef len x.rseq body) idf timef
      let t := s.updStream k (fun y => { y with chain := c, newest := ⟨x.rseq, idf, c⟩ })
      t.sealPut k x (sealHead rtype x.phase k flags aux idf timef len x.rseq ++ body ++ c)

/-- The open gap ends with its record (R333). -/
def State.sealGap (s : State) (k : Nat) : State :=
  match (s.stream k).bind (·.gap) with
  | none => s
  | some g =>
    let t := s.updStream k (fun y =>
      { y with gap := none, gaps := if y.wrErr.isSome then y.gaps else y.gaps + 1
               gapFlags := if y.wrErr.isSome then y.gapFlags else y.gapFlags ||| g.flags })
    t.sealRecord k 3 g.flags (min g.count 0xFFFFFFFF) g.firstId g.start 0
      (leBytes 8 g.lastId ++ leBytes 8 s.time.ns ++ leBytes 8 (min g.observed (2 ^ 64 - 1)) ++ zeros 24)

/-! ### Gaps (R327, R333) -/

/-- An unsealed frame or passive interval joins the gap. -/
def joinGap (o : Option Gap) (f : Frame) : Gap :=
  let g := o.getD ⟨false, 0, 0, 0, 0, f.lostAt, 0⟩
  { slot := g.slot || decide (0 < f.slots)
    flags := g.flags ||| 2 ^ f.reason.getD rPassive
    count := if f.interval then g.count else g.count + 1
    firstId := if f.interval ∨ 0 < g.count then g.firstId else f.fid
    lastId := if f.interval then g.lastId else f.fid
    start := g.start
    observed := g.observed + f.observed }

/-- The unsealed frames at the head of a stream join its gap, in order; a gap opened with OVERLOAD or RING_FULL sends a fault
message (R327). -/
def State.foldGap (s : State) (k : Nat) : Nat → State
  | 0 => s
  | fuel + 1 =>
    match s.stream k with
    | none => s
    | some x =>
      match x.frames with
      | [] => s
      | f :: fs =>
        if f.reason.isNone then s
        else
          let t := s.updStream k (fun y =>
            { y with frames := fs, gap := some (joinGap y.gap f), unsealed := y.unsealed + b2n (!f.interval) })
          let t := if f.interval then t else t.countG 40 1
          let t := if x.gap.isNone ∧ (f.reason = some rOverload ∨ f.reason = some rRingFull) then t.send (0x70 + x.tap) 8 0 else t
          State.foldGap t k fuel

/-- Fold as far as the stream's frames allow. -/
def State.foldAll (s : State) (k : Nat) : State := s.foldGap k (((s.stream k).elim 0 (·.frames.length)) + 1)

/-- A frame of a stream becomes unsealed: its tiles and its lane are freed (R327). -/
def State.unseal (s : State) (k seq reason : Nat) : State :=
  match s.stream k with
  | none => s
  | some x =>
    let lanes := x.frames.filterMap (fun f => if f.seq = seq ∧ f.reason.isNone then f.lane else none)
    let t := s.updStream k (fun y => { y with frames := y.frames.map (fun (f : Frame) =>
      if f.seq = seq ∧ f.reason.isNone then
        { f with reason := some reason, held := 0, lane := none, lostAt := s.time.ns, observed := f.data.length } else f) })
    (t.freeUnits lanes).foldAll k

/-- Lanes consume the buffered beats of their frames, which frees the tiles (R326); how many is a free value (log entry 61). -/
def State.consume (s : State) (k : Nat) : State :=
  match s.stream k with
  | none => s
  | some x =>
    ({ s with picks := s.picks + x.frames.length } : State).updStream k (fun y => { y with frames := (y.frames.zipIdx).map (fun p =>
      if p.1.lane.isSome then { p.1 with held := p.1.held - Config.progress (s.picks + p.2) } else p.1) })

/-- The frame that holds tile n of those that its stream uses, counted from the oldest frame on (log entry 29). -/
def tileOwner : List Frame → Nat → Option Frame
  | [], _ => none
  | f :: fs, n => if n < f.held then some f else tileOwner fs (n - f.held)

/-- The last frame of a stream. -/
def State.lastFrame (s : State) (k : Nat) : Option Frame := (s.stream k).bind (·.frames.getLast?)

/-- The open frame of a tap becomes unsealed. -/
def State.unsealOpen (s : State) (k reason : Nat) : State :=
  match s.lastFrame k with
  | some f => s.unseal k f.seq reason
  | none => s

/-- Bytes observed of a frame already unsealed count in its gap (R332). -/
def State.observe (s : State) (k n : Nat) : State :=
  s.updStream k (fun x =>
    match x.frames.getLast? with
    | some f =>
      if f.reason.isSome then { x with frames := x.frames.dropLast ++ [{ f with observed := f.observed + n }] } else x
    | none => { x with gap := x.gap.map (fun (g : Gap) => { g with observed := g.observed + n }) })

/-- A tap goes passive for a stream: the frame in progress counts with PASSIVE, and a PASSIVE gap runs (R333, R338). `all` names
every frame that is not recorded, as entry to DORMANT does. -/
def State.goPassive (s : State) (k : Nat) (all : Bool) : State :=
  match s.stream k with
  | none => s
  | some x =>
    let t := (x.frames.filter (fun f => f.reason.isNone && (all || !f.ended))).foldl (fun t f => t.unseal k f.seq rPassive) s
    let pause : Frame :=
      { seq := s.nextId, interval := true, slots := 0, lostAt := s.time.ns, fid := 0, time := 0, declLen := 0, data := [], held := 0
        ended := true, reason := some rPassive, lane := none, observed := 0 }
    let t := if x.pastClose then t else (t.updStream k (fun y => { y with frames := y.frames ++ [pause] })).bump
    (if t.openOf x.tap = some k ∨ t.openOf x.tap = some (128 + k) ∨ t.openOf x.tap = some (192 + k) then t.noOpen x.tap else t).foldAll k

/-! ### Digest lanes for frames (R325) -/

/-- Frames of a stream that carry a lane. -/
def Stream.carried (x : Stream) : Nat := (x.frames.filter (fun f => f.lane.isSome)).length

/-- Lanes that a stream holds, waking ones included. -/
def State.lanesOf (s : State) (k : Nat) : Nat := (s.units.filter (fun u => u.2.work == .frame k)).length

/-- The frames that wait for a lane, by stream: of each its oldest, as many as LANES leaves room for (R325). -/
def State.frameWaits (s : State) : List (Nat × Frame) :=
  s.boundStreams.flatMap (fun p =>
    ((p.2.frames.filter (fun f => f.reason.isNone && f.lane.isNone && !f.data.isEmpty)).take (p.2.lanes - p.2.carried)).map
      (fun f => (p.1, f)))

/-- Those whose stream may take one more lane at once. -/
def State.frameTakers (s : State) : List (Nat × Frame) :=
  s.frameWaits.filter (fun p => decide (s.lanesOf p.1 < (s.stream p.1).elim 0 (·.lanes)))

/-- The oldest header beat among waiting frames. -/
def oldestFrame : List (Nat × Frame) → Option (Nat × Frame)
  | [] => none
  | p :: ps =>
    match oldestFrame ps with
    | some q => some (if q.2.seq < p.2.seq then q else p)
    | none => some p

/-- A frame takes a lane, which consumes its buffered beats as they come (R325, R326). -/
def State.laneToFrame (s : State) (u k seq : Nat) : State :=
  (s.updUnit u (fun x => { x with work := .frame k })).updStream k (fun x => { x with frames := x.frames.map (fun (f : Frame) =>
    if f.seq = seq then { f with lane := some u } else f) })

/-- Waiting frames take awake idle digest lanes, oldest header beat first. -/
def State.frameLanes (s : State) : Nat → State
  | 0 => s
  | fuel + 1 =>
    match oldestFrame s.frameTakers,
      (unitsOf .digest).find? (fun u => (s.unit u).power == .awake && (s.unit u).free) with
    | some (k, f), some u => State.frameLanes (s.laneToFrame u k f.seq) fuel
    | _, _ => s

/-- A queued request that runs on a digest lane and may be suspended there for seal demand (R310). -/
def State.laneVictim (s : State) (u : Nat) : Option Nat :=
  match (s.unit u).work with
  | .req rid =>
    (s.req rid).bind (fun r =>
      if (r.origOp == Opc.digest || r.origOp == Opc.hmac || r.origOp == Opc.pageSeal) &&
        (r.phase == .reading || r.phase == .ready) then some rid else none)
  | _ => none

/-- The stream for which a lane wakes. -/
def UnitSt.wakesFor (u : UnitSt) : Option Nat :=
  match u.work with
  | .frame k => if u.power = .waking then some k else none
  | _ => none

/-- The stream for which a grant wakes a lane. -/
def Grant.frameOf (g : Grant) : Option Nat :=
  match g.what with
  | .frameLane k => some k
  | _ => none

/-- Lanes that will come to seal work: suspensions for seal demand and lanes that wake for it (R325). -/
def State.lanesBound (s : State) : Nat :=
  (s.reqs.filter (fun r => r.2.phase == .capturing && r.2.kind == some .digest && r.2.victimOf.isNone && r.2.ending.isNone)).length
  + (s.units.filter (fun u => u.2.wakesFor.isSome)).length

/-- Those and the lanes whose grants wait. -/
def State.lanesComing (s : State) : Nat := s.lanesBound + (s.gov.grants.filter (fun g => g.frameOf.isSome)).length

/-- The idle lanes that seal streams demand now (R27). -/
def State.laneDemand (s : State) : Nat := s.frameWaits.length - s.lanesBound

/-- Waiting frames whose stream has asked for fewer gated lanes than frames of it wait. -/
def State.frameAskers (s : State) : List (Nat × Frame) :=
  s.frameWaits.filter (fun p =>
    decide ((s.units.filter (fun u => u.2.wakesFor == some p.1)).length + (s.gov.grants.filter (fun g => g.frameOf == some p.1)).length
      < (s.frameWaits.filter (fun q => q.1 == p.1)).length))

/-- Grants for lanes of a stream none of whose frames waits any longer are withdrawn. -/
def State.trimFrames (s : State) : State :=
  { s with gov := { s.gov with grants := s.gov.grants.filter (fun g => g.frameOf.elim true (fun k => s.frameWaits.any (fun p => p.1 == k))) } }

/-- A grant begins to wait. -/
def State.addGrant (s : State) (what : GrantFor) (us : List Nat) (part : Option Nat) (charge cls : Nat) : State :=
  ({ s with gov := { s.gov with grants := s.gov.grants ++
      [{ gid := s.nextId, what := what, units := us, part := part, charge := charge, cls := cls, seq := s.nextId }] } } : State).bump

/-- Waiting frames beyond the lanes on their way suspend queued work, else ask for gated lanes (R325). -/
def State.frameDemand (s : State) : Nat → State
  | 0 => s
  | fuel + 1 =>
    if s.frameWaits.length ≤ s.lanesComing then s
    else
      match (unitsOf .digest).findSome? s.laneVictim with
      | some rid =>
        State.frameDemand (s.updReq rid (fun r => { r with phase := .capturing, victimOf := none })) fuel
      | none =>
        match oldestFrame s.frameAskers,
          (unitsOf .digest).find? (fun u => (s.unit u).power == .gated && (s.unit u).free
            && s.gov.grants.all (fun g => g.frameOf.isNone || !(g.units.contains u))) with
        | some (k, _), some u =>
          let p := (s.stream k).map (·.part)
          State.frameDemand (s.addGrant (.frameLane k) [u] p (s.unitResv u) 0) fuel
        | _, _ => s

/-- Seal work takes what lanes it can (R325). -/
def State.serveFrames (s : State) : State := ((s.frameLanes 17).trimFrames).frameDemand 17

/-! ### Checkpoints (R336, R337) -/

/-- A checkpoint that is due starts its job when none runs and a slot is free beyond the reserve; the final one draws on the
reserve. -/
def State.startCkpt (s : State) (k : Nat) : State :=
  match s.stream k with
  | none => s
  | some x =>
    if x.ckptDue && x.ckptJob.isNone && x.wrErr.isNone && (x.finalCkpt || decide (0 < x.freeSlots)) then
      let t := s.updStream k (fun y =>
        { y with ckptDue := false, sinceCkpt := 0, ckptJob := some (y.newest, s.time.ns, y.finalCkpt) })
      t.addGrant (.ckpt k) [] (some x.part) (resv s.mode.active .cluster) 0
    else s

/-- The message that a checkpoint signs (R337). -/
def ckptMessage (takeId : Nat) (c : Covered) : Bytes := beBytes 8 takeId ++ beBytes 4 c.rseq ++ c.chain

/-- A checkpoint's signature; none when the drawn number yields none (R337). -/
def ckptSign (ed : Bool) (mat rnd m : Bytes) : Option Bytes :=
  if ed then some (edSign mat m ++ zeros 32)
  else
    let c := pCurveOf 2
    (c.sign (beNat mat) (beNat rnd % (c.n - 1) + 1) (c.zOf (hash 2 m))).map (fun g => beBytes 48 g.1 ++ beBytes 48 g.2)

/-! ### Closing (R321, R322) -/

/-- A record write of the stream is outstanding. -/
def State.sealOut (s : State) (k : Nat) : Bool :=
  s.fab.any (fun t => t.phase != .held && (match t.purpose with | .sealRec j _ => j == k | _ => false))

/-- A stream is released: grant, buffer quota and number. -/
def State.dropStream (s : State) (k : Nat) : State :=
  let us := (s.units.filter (fun u => u.2.work == .frame k || u.2.work == .ckpt k)).map (·.1)
  let t := s.freeUnits us
  { t with
    seals := { t.seals with
      streams := Store.del t.seals.streams k
      opened := Store.mapAll t.seals.opened (fun _ v => if v = k ∨ v = 128 + k ∨ v = 192 + k then 64 else v) }
    gov := { t.gov with grants := t.gov.grants.filter (fun g => g.what != .frameLane k && g.what != .ckpt k) } }

/-- A BIND_TAP that ends while its OPEN record is unanswered leaves nothing bound. -/
def State.dropBind (s : State) (rid : Nat) : State :=
  match s.seals.streams.find? (fun p => p.2.bindRid == some rid) with
  | some p => s.dropStream p.1
  | none => s

/-- The close is complete: the stream is released and the entry completes (R322). -/
def State.finishClose (s : State) (k : Nat) (x : Stream) (c : Closing) : State :=
  let t := s.dropStream k
  match c.rid with
  | none => t
  | some rid =>
    match x.wrErr with
    | some n => t.complete rid St.accessFault 0x02 n
    | none =>
      let res := x.newest.rseq + 2 ^ 32 * min x.unsealed 0xFFFFFFFF
      if x.gaps = 0 then t.complete rid St.success 0 res else t.complete rid St.sealGap x.gapFlags res

/-- A close goes on as far as it can: the GAP, CLOSE and final checkpoint records, then the release. -/
def State.advanceClose (s : State) (k : Nat) : State :=
  match s.stream k with
  | none => s
  | some x =>
    match x.closing with
    | none => s
    | some c =>
      if !c.fixed || !x.frames.isEmpty || x.bindRid.isSome then s
      else if !x.closeSent then
        let t := (s.sealGap k).sealRecord k 5 c.cause (min x.sealed 0xFFFFFFFF) x.lastFid s.time.ns 0
          (leBytes 8 x.unsealed ++ leBytes 4 (min (x.gaps + b2n x.gap.isSome) 0xFFFFFFFF) ++ zeros 36)
        let t := t.updStream k (fun y => { y with closeSent := true, finalCkpt := y.signs, ckptDue := y.signs })
        let t := t.startCkpt k
        match t.stream k with
        | some y => if !(t.sealOut k) && y.ckptJob.isNone && (!y.ckptDue || y.wrErr.isSome) then t.finishClose k y c else t
        | none => t
      else if s.sealOut k || x.ckptJob.isSome || (x.ckptDue && x.wrErr.isNone) then s
      else s.finishClose k x c

/-- Begin a close with its cause (R321). -/
def State.beginClose (s : State) (k cause : Nat) (rid atFrame : Option Nat) : State :=
  (s.updStream k (fun x => { x with closing := some ⟨cause, rid, atFrame, atFrame.isNone⟩ })).advanceClose k

/-- A response to a record's write (R320 check 8, R334, R335). -/
def State.sealWritten (s : State) (k rseq rtype : Nat) (ok : Bool) : State :=
  match s.stream k with
  | none => s
  | some x =>
    if ok then
      let t :=
        match x.bindRid with
        | some rid => if rtype = 1 then (s.updStream k (fun y => { y with bindRid := none })).complete rid St.success 0 k else s
        | none => s
      let t := if rtype = 3 ∨ rtype = 4 ∨ rtype = 5 ∨ (rtype = 2 ∧ x.frameIrq) then t.countEvent x.part x.vector else t
      t.advanceClose k
    else
      match (if rtype = 1 then x.bindRid else none) with
      | some rid => (s.dropStream k).reject rid St.accessFault 0x02
      | none =>
        let t := s.updStream k (fun y => { y with wrErr := some (y.wrErr.getD rseq) })
        (t.errEvent x.part).advanceClose k

/-- Every frame that a change has resolved joins its gap, a close goes on, and the freed lanes serve other frames. -/
def State.afterSeal (s : State) (k : Nat) : State := (((s.foldAll k).startCkpt k).advanceClose k).serveFrames

/-! ### Binding (R319, R320) -/

/-- The fields of a BIND_TAP entry (R319). -/
def bTap (e : Bytes) : Nat := fld e 8 1 % 16
def bChan (e : Bytes) : Nat := fld e 8 1 / 16
def bSeal (e : Bytes) : Nat := fld e 10 2
def bSign (e : Bytes) : Nat := fld e 12 2
def bLog2 (e : Bytes) : Nat := fld e 14 1
def bFrames (e : Bytes) : Nat := fld e 16 2
def bMs (e : Bytes) : Nat := fld e 18 2
def bBuf (e : Bytes) : Nat := fld e 21 1
def bBase (e : Bytes) : Nat := fld e 24 8

/-- Check 3 of R320. -/
def State.bindRanges (s : State) (part : Nat) (e : Bytes) : Bool :=
  let u := s.unit (tapUnit (bTap e))
  decide (6 ≤ bLog2 e ∧ bLog2 e ≤ 16) && decide (fld e 15 1 % 32 < (s.part part).elim 0 (·.assign.vectors))
    && decide (1 ≤ fld e 20 1 ∧ fld e 20 1 ≤ 16) && decide (1 ≤ bBuf e ∧ bBuf e ≤ 64)
    && bBase e % min 4096 (128 * 2 ^ bLog2 e) == 0
    && (bSign e != 0xFFFF || (bFrames e == 0 && bMs e == 0)) && !u.fltFence && !u.testFence

/-- Check 5 of R320. -/
def State.bindSign (s : State) (part : Nat) (e : Bytes) : Failure :=
  let a := (s.slot (s.gOf part (bSign e))).attr
  if bSign e = 0xFFFF then none
  else firstFail [s.slotHolds part (bSign e), must (a.alg == 0x12 || a.alg == 0x14) St.keyPolicy 0x02,
    must (KeyAttr.can a useSign) St.keyPolicy 0x01]

/-- Checks 1 to 6 of R320: status, DETAIL and RESULT of the first failure. -/
def State.bindChecks (s : State) (part : Nat) (e : Bytes) : Option (Nat × Nat × Nat) :=
  let own := s.aon (0xA40 + 4 * bTap e)
  let bad := fun (n : Nat) => some (St.malformed, 0x0A, n)
  if !(bitAt own 7 && own % 64 == part) then bad 1
  else if s.seals.streams.any (fun p => p.2.tap == bTap e && p.2.chan == bChan e) then bad 2
  else if !(s.bindRanges part e) then bad 3
  else
    match firstFail [s.hmacSlot part (bSeal e), s.bindSign part e] with
    | some (st, d) => some (st, d, 0)
    | none => if 64 ≤ s.seals.streams.length ∨ s.bufFree < bBuf e then bad 6 else none

/-- The stream that a BIND_TAP binds. -/
def State.newStream (s : State) (rid part : Nat) (e : Bytes) : Stream :=
  let g := s.gOf part (bSeal e)
  let sg := s.slot (s.gOf part (bSign e))
  { part := part, tap := bTap e, chan := bChan e, timeSrc := bitAt (fld e 9 1) 0, frameIrq := bitAt (fld e 9 1) 1
    sealSlot := g, sealKey := (s.slot g).keyId, sealMat := (s.slot g).mat
    signs := bSign e != 0xFFFF, signEd := bSign e != 0xFFFF && sg.attr.alg == 0x14, signMat := if bSign e = 0xFFFF then [] else sg.mat
    ringLog2 := bLog2 e, vector := fld e 15 1 % 32, ckptFrames := bFrames e, ckptMs := bMs e, lanes := fld e 20 1, buf64k := bBuf e
    ringBase := bBase e, takeId := fld e 32 8, bound := true, chain := zeros 48, rseq := 0, tail := 0, head := 0
    newest := ⟨0, 0, zeros 48⟩, gap := none, frames := [], sealed := 0, unsealed := 0, gaps := 0, gapFlags := 0, lastFid := 0
    wrErr := none, dbErr := false, closing := none, closeSent := false, sinceCkpt := 0, ckptDue := false, ckptJob := none
    ckptUnit := none, finalCkpt := false, bindRid := some rid }

end Sys2Proof.Machine
end

