-- ==== Sys2Proof/Machine/Sched.lean ====
section
/-! DEFINITION. Placement and grants: which waiting request a unit takes, which units, when a grant is issued, and the urgent
path (spec/03 R115 to R121, spec/05 R198 to R203, spec/06 R210, spec/07 R236 to R238, R249 to R257, spec/09 R307). -/

namespace Sys2Proof.Machine

/-! ### Units for a request -/

/-- The unit may take the request: free, of its kind, permitted to it, and with no other context in its save area (R311, R380). A context
in a save area resumes on its own lane, though a fence of it is pending (R42). -/
def State.mayTake (s : State) (rid : Nat) (r : Req) (u : Nat) : Bool :=
  let x := s.unit u
  let own := x.save == some rid
  (x.free || (own && ({ x with fencePend := false } : UnitSt).free)) && (own || x.save.isNone)
    && (!(r.origOp == Opc.wmacList) || bitAt r.mask (u - 0x30))
    && (own || !(s.units.any (fun p => p.2.save == some rid)))

/-- The key register holds the key of the request's first slot (R210). -/
def State.hot (s : State) (r : Req) (u : Nat) : Bool :=
  match (s.unit u).key, r.keys.head? with
  | some k, some g => k.slot == g.1 && k.keyId == g.2 && !k.stale
  | _, _ => false

/-- Free units of a kind: gated ones count, fenced ones do not (R200). -/
def State.freeOf (s : State) (k : UnitKind) : Nat := ((unitsOf k).filter (fun u => (s.unit u).free)).length

/-- Queued work leaves the unit alone: it is a lane that seal streams may take, and they demand all that are free (R27, R307). -/
def State.leftToSeals (s : State) (k : UnitKind) (u : Nat) : Bool :=
  k == .digest && (s.unit u).free && decide (0 < s.laneDemand ∧ s.freeOf .digest ≤ s.laneDemand)

/-- The units that may take the request in the order of R210, R238 and R307. -/
def State.unitOrder (s : State) (rid : Nat) (r : Req) : List Nat :=
  match r.kind with
  | none => []
  | some k =>
    let us := (unitsOf k).filter (fun u => s.mayTake rid r u && !(s.leftToSeals k u))
    let awake := fun u => (s.unit u).power == .awake
    us.filter (fun u => awake u && s.hot r u) ++ us.filter (fun u => awake u && !(s.hot r u))
      ++ us.filter (fun u => !(awake u) && s.hot r u) ++ us.filter (fun u => !(awake u) && !(s.hot r u))

/-- The lanes that a grove would like (R236, R251); 1 for a request that forms none. -/
def State.laneWish (s : State) (r : Req) : Nat :=
  let cfg := s.aon 0x300
  if r.owner = .kek ∨ 3 < r.origOp then 1
  else if 2 ≤ r.g0 then min (min 8 (cfg % 16)) (r.segs.filter (fun g => !g.done)).length
  else if r.started then 1
  else groveWant r.entry (cfg % 16) (bitsAt cfg 8 8)

/-! ### Issuing a grant -/

/-- The grant is for a seal stream's binding, which holds a lane's reservation without a lane. -/
def Grant.isBind (g : Grant) : Bool :=
  match g.what with
  | .bind _ => true
  | _ => false

/-- What a grant adds to GOV_USED (R115). -/
def State.grantAdd (s : State) (g : Grant) : Nat :=
  if g.isBind then g.charge else s.addMw g.units

/-- The grant is for an urgent request that takes a victim's unit. -/
def State.urgentGrant (s : State) (g : Grant) : Bool :=
  match g.what with
  | .req rid => (s.req rid).elim false (·.urgent)
  | _ => false

/-- The share condition of R117; an urgent request never borrows (R203). -/
def State.grantShare (s : State) (budget : Nat) (g : Grant) : Bool :=
  g.part.elim true (fun p => if s.urgentGrant g then s.withinShare p g.charge else s.shareOk budget p g.charge)

/-- The tests of an ATTEST stage run together when the budget admits them all, and one at a time when it is smaller (R112). -/
def State.stageRoom (s : State) : Bool :=
  let v := s.mode.active
  decide (baseResv v + 3 * resv v .cipher + 2 * resv v .digest + resv v .cluster ≤ s.budgetMw)
    || s.units.all (fun u => u.2.work != .stageTest)

/-- The conditions of R117 under a budget, and that of R112. -/
def State.grantOk (s : State) (budget : Nat) (g : Grant) : Bool :=
  s.powerOk budget (s.grantAdd g) && s.grantShare budget g && (g.what != .stageTest || s.stageRoom)

/-- The group of R119: 0 unit-stage tests, 1 the first lane of a warm wake, 2 LOAD_KEK, 3 within the share, 4 borrowing, 5 unit
tests on fenced units. -/
def State.group (s : State) (g : Grant) : Nat :=
  match g.what with
  | .stageTest => 0
  | .firstLane => 1
  | .loadKek _ => 2
  | .unitTest => 5
  | _ => if g.part.elim true (fun p => s.withinShare p g.charge) then 3 else 4

/-- A grant with the units it takes if issued now: those chosen, else others that are free; none when no unit is. -/
def State.refit (s : State) (g : Grant) : Option Grant :=
  let stay := g.units.all (fun u => (s.unit u).work == .idle)
  match g.what with
  | .req rid | .loadKek rid =>
    match s.req rid with
    | none => none
    | some r =>
      if !g.units.isEmpty && g.units.all (fun u => (s.unitOrder rid r).contains u) then some g
      else (s.unitOrder rid r).head?.map (fun u =>
        { g with units := [u], charge := if r.owner = .kek then 0 else s.chargeFor [u] })
  | .ckpt _ =>
    let us := (unitsOf .cluster).filter (fun u => (s.unit u).free)
    ((us.filter (fun u => (s.unit u).power == .awake)) ++ us).head?.map (fun u => { g with units := [u], charge := s.chargeFor [u] })
  | .firstLane =>
    ((unitsOf .cipher).find? (fun u => (s.unit u).free)).map (fun u => { g with units := [u] })
  | .frameLane _ =>
    ((g.units ++ unitsOf .digest).find? (fun u => (s.unit u).free && (s.unit u).power == .gated)).map (fun u =>
      { g with units := [u], charge := s.chargeFor [u] })
  | .bind _ => some g
  | .stageTest | .unitTest => if stay then some g else none

/-- Units granted to work other than a request: gated ones are clock-enabled (R116). -/
def State.enable (s : State) (us : List Nat) (w : Work) (part : Option Nat) : State :=
  us.foldl (fun t u => t.updUnit u (fun x =>
    { x with power := if x.power = .gated then .waking else x.power, work := w, charge := part })) s

/-- The segments of a grove request on the lanes granted to it (R241, R251). -/
def Req.onLanes (r : Req) (us : List Nat) : List Segment :=
  if r.segs.isEmpty then groveSegs r.entry us
  else
    let todo := r.segs.filter (fun g => !g.done)
    let placed := (todo.zipIdx).map (fun p => { p.1 with lane := us[p.2]? })
    r.segs.filter (fun g => g.done) ++ placed

/-- The grant of a BIND_TAP is issued: its checks still hold (log entry 46), and the seal stream's binding takes effect under the lowest
free number as its OPEN record is written (R320, R332). -/
def State.bindGranted (s : State) (rid : Nat) : State :=
  match s.req rid with
  | none => s
  | some r =>
    match s.bindChecks r.part r.entry with
    | some (st, d, n) => s.complete rid st d n
    | none =>
      let k := ((List.range 64).find? (fun n => (s.stream n).isNone)).getD 64
      let x := s.newStream rid r.part r.entry
      let t := { s with seals := { s.seals with streams := Store.put s.seals.streams k x } }
      t.sealRecord k 1 0 (x.tap + 0x10 * x.chan + 0x100 * b2n x.timeSrc) x.takeId s.time.ns 0
        (leBytes 4 0x00030100 ++ leBytes 2 x.ckptFrames ++ leBytes 2 x.ckptMs ++ zeros 40)

/-- Issue a grant whose units are settled. -/
def State.issue (s : State) (g : Grant) : State :=
  let t := { s with gov := { s.gov with grants := s.gov.grants.filter (fun x => x.gid != g.gid) } }
  match g.what with
  | .req rid =>
    let t := t.updReq rid (fun r =>
      if 2 ≤ g.units.length ∨ 2 ≤ r.g0 then
        { r with g0 := if r.g0 = 0 then g.units.length else r.g0, segs := r.onLanes g.units }
      else r)
    t.assign rid g.units
  | .loadKek rid => t.assign rid g.units
  | .bind rid => t.bindGranted rid
  | .ckpt k => (t.enable g.units (.ckpt k) g.part).updStream k (fun x => { x with ckptUnit := g.units.head? })
  | .frameLane k => if t.frameWaits.any (fun p => p.1 == k) then (t.enable g.units (.frame k) g.part).serveFrames else t
  | .stageTest => t.enable g.units .stageTest none
  | .unitTest => t.enable g.units .unitTest none
  | .firstLane => t.enable g.units .idle none

/-! ### Which grant is served (R119) -/

/-- One waiting grant is served before another. -/
def State.grantBefore (s : State) (a b : Grant) : Bool :=
  let ga := s.group a
  let gb := s.group b
  decide (ga < gb) || (ga == gb && (decide (a.cls < b.cls) || (a.cls == b.cls && decide (a.seq < b.seq))))

/-- No earlier grant of its group and class waits; a unit test waits for every partition grant. -/
def State.grantHead (s : State) (g : Grant) : Bool :=
  s.gov.grants.all (fun o => (decide (g.seq ≤ o.seq) || o.cls != g.cls || s.group o != s.group g)
    && (g.what != .unitTest || o.part.isNone))

/-- Waiting grants in the order of R119. -/
def State.grantOrder (s : State) : List Grant := s.gov.grants.foldr (fun g l =>
  l.takeWhile (fun o => s.grantBefore o g) ++ g :: l.dropWhile (fun o => s.grantBefore o g)) []

/-- Idle units are gated, longest idle first, until the grant meets the power condition or none is left (R118). -/
def State.gateOn (s : State) (g : Grant) : State :=
  if s.powerOk s.effBudget (s.grantAdd g) then s
  else if g.isBind then s.gateFor (s.effBudget - g.charge) [] 48
  else s.gateFor s.effBudget g.units 48

/-- Try a grant: its units settled, idle units gated when that lets it meet the power condition. -/
def State.tryGrant (s : State) (gate : Bool) (g : Grant) : Option State :=
  if !(s.grantHead g) then none
  else
    match s.refit g with
    | none => none
    | some h =>
      if !(s.grantShare s.effBudget h) then none
      else
        let t := if gate then s.gateOn h else s
        if t.grantOk t.effBudget h then some (t.issue h) else none

/-- A grant that waits is served ahead of another, for it could be issued now (R119). -/
def State.ahead (s : State) (g : Grant) : Bool :=
  s.gov.grants.any (fun o => o.gid != g.gid && s.grantBefore o g && (s.tryGrant true o).isSome)

/-- A grant that is requested now is issued at once, without gating. -/
def State.atOnce (s : State) (g : Grant) : Option State := if s.ahead g then none else s.tryGrant false g

/-- PWR_REQ rises when a waiting grant would meet R117 under HIGH_MW but not under the budget (R121). -/
def State.negotiate (s : State) : State :=
  if s.pins.pwrReq || s.pins.pwrGnt || s.gov.granted || s.highMw == 0 then s
  else if s.gov.grants.any (fun g => (s.refit g).elim false (fun h => s.grantOk s.highMw h && !(s.grantOk s.budgetMw h)))
  then { s with pins := { s.pins with pwrReq := true } }
  else s

/-- Grants requested since an identifier are issued at once where they can be; the others wait and are counted (R115, R511). -/
def State.issueNew (s : State) (since : Nat) : State :=
  let new := s.gov.grants.filter (fun g => decide (since ≤ g.gid))
  let t := new.foldl (fun t g =>
    match t.gov.grants.find? (fun x => x.gid == g.gid) with
    | some h => (t.atOnce h).getD (t.countG 32 1)
    | none => t) s
  t.negotiate

/-- Serve the first waiting grant that can be issued (R117 to R119). -/
def State.serveGrant (s : State) : State :=
  match s.grantOrder.findSome? (s.tryGrant true) with
  | some t => t.negotiate
  | none => ((s.grantOrder.filterMap s.refit).foldl State.gateOn s).negotiate

/-! ### Picking a request (R198, R199) -/

/-- The member with the least virtual time, the lower number first. -/
def vtPick : List (Nat × (Nat × Nat)) → Option Nat
  | [] => none
  | p :: ps =>
    match ps.foldl (fun b x => if vtLt x.2 b.2 then x else b) p with
    | b => some b.1

/-- The request of a list that the scheduler picks for a kind. -/
def State.pickOf (s : State) (k : UnitKind) (l : List (Nat × Req)) : Option (Nat × Req) :=
  let c := (l.map (fun r => r.2.cls)).foldl min 3
  let l := l.filter (fun r => r.2.cls == c)
  let ps := (s.parts.filter (fun p => l.any (fun r => r.2.part == p.1))).map (fun p => (p.1, vtOf p.2.vt k))
  match vtPick ps with
  | none => none
  | some p =>
    let l := l.filter (fun r => r.2.part == p)
    let qs := ((s.part p).elim [] (·.queues)).filter (fun q => l.any (fun r => r.2.qid == q.1))
    match vtPick (qs.map (fun q => (q.1, vtOf q.2.vt k))) with
    | none => none
    | some q =>
      let l := l.filter (fun r => r.2.qid == q)
      l.find? (fun r => l.all (fun o => decide (r.2.seq ≤ o.2.seq)))

/-- Requests of a kind that wait to be placed. -/
def State.placeWaits (s : State) (k : UnitKind) : List (Nat × Req) :=
  s.reqs.filter (fun r => r.2.phase == .waitPlace && r.2.kind == some k && r.2.owner == .queue)

/-- Picked requests of a kind whose grants wait. -/
def State.grantWaits (s : State) (k : UnitKind) : Nat :=
  (s.reqs.filter (fun r => r.2.phase == .waitGrant && r.2.kind == some k)).length

/-- The grant that a request asks for now on given units. -/
def State.asked (s : State) (rid : Nat) (r : Req) (us : List Nat) : Grant :=
  { gid := s.nextId, what := .req rid, units := us, part := some r.part, charge := s.chargeFor us, cls := r.cls, seq := s.nextId }

/-- The largest grove for which a grant can be issued at once (R238); its lanes in ascending order. -/
def State.groveOf (s : State) (rid : Nat) (r : Req) (order : List Nat) : Nat → Option (List Nat)
  | 0 => none
  | g + 1 =>
    let us := (List.range 24).filter (fun u => (order.take (g + 1)).contains u)
    if g + 1 < 2 then none
    else if us.length = g + 1 ∧ (s.atOnce (s.asked rid r us)).isSome then some us
    else s.groveOf rid r order g

/-- A grant for the request is requested, and issued at once if it can be. -/
def State.placeGrant (s : State) (rid : Nat) (r : Req) (us : List Nat) : State :=
  ((s.setPhase rid .waitGrant).addGrant (.req rid) us (some r.part) (s.chargeFor us) r.cls).issueNew s.nextId

/-- The picked request is placed as an ordinary one, on a grove sized to what can be granted at once (R238). RANDREP and RANDREP_ALL
govern a job as they stand now (R375). -/
def State.placeOn (s : State) (rid : Nat) (r : Req) : State :=
  let t := s.updReq rid (fun x => { x with urgent := false, randrep := eFlag r.entry 0 || bitAt (s.aon 0xB10) 0 })
  let order := t.unitOrder rid r
  t.placeGrant rid r ((t.groveOf rid r order (t.laneWish r)).getD (order.take 1))

/-! ### The urgent path (R202, R203, R252 to R257) -/

/-- Context tiles of a suspended request (R250, R310). -/
def Req.tilesT (r : Req) : Nat :=
  if 2 ≤ r.g0 then 2 + r.g0
  else if r.origOp = Opc.digest ∨ r.origOp = Opc.hmac then (if 0x11 ≤ dAlg r.entry then 4 else 2)
  else 2

/-- T context tiles can hold a context of the partition (R250). -/
def State.tilesFit (s : State) (part t : Nat) : Bool :=
  decide (s.ctxTilesOf part + t ≤ (s.part part).elim 0 (·.assign.ctx)) && decide (t ≤ s.ctxFree)

/-- COUNT of CTX_EXP_CFG (R255). -/
def Partition.expCount (p : Partition) : Nat := min 64 (p.reg 0x608 % 128)

/-- The record positions of a partition that are neither live nor reserved (R257). -/
def State.expFree (s : State) (part : Nat) : Option Nat :=
  match s.part part with
  | none => none
  | some p =>
    (List.range p.expCount).find? (fun i =>
      !(p.live.any (fun l => l.idx == i))
        && !(s.reqs.any (fun r => r.2.part == part && r.2.expIdx == i + 1
              && (r.2.phase == .capturing || r.2.phase == .exporting))))

/-- The victim sheds a lane instead of being suspended: one that it has not been asked for yet (R253). -/
def Req.sheds (r : Req) : Bool := decide (2 ≤ r.units.length - r.shedding.length)

/-- The lane that a victim gives up next: of a grove the highest-numbered one that it has not been asked for yet. -/
def Req.nextShed (r : Req) : Nat := ((r.units.filter (fun u => r.shedding.all (fun p => p.1 != u))).getLast?).getD 0

/-- A request that runs on units of a kind and may be a victim for a class (R202, R530). A grove asked for every lane but its trunk is
none until it has shed them. -/
def Req.victim (k : UnitKind) (cls : Nat) (r : Req) : Bool :=
  r.owner == .queue && r.kind == some k && (decide (r.origOp ≤ 6) || r.origOp == Opc.pageSeal) && decide (cls < r.cls)
    && (r.phase == .reading || r.phase == .ready) && !r.units.isEmpty && (r.shedding.isEmpty || r.sheds)

/-- How far a partition is above its share. -/
def State.above (s : State) (part : Nat) : Int := (s.chargeMw part : Int) - (s.shareOf part : Int)

/-- One victim is preferred to another: less urgent, further above its share, more recently dispatched. -/
def State.victimBefore (s : State) (a b : Req) : Bool :=
  decide (b.cls < a.cls) || (a.cls == b.cls && (decide (s.above b.part < s.above a.part)
    || (s.above a.part == s.above b.part && decide (b.waitSeq < a.waitSeq))))

/-- Candidate victims in their order. -/
def State.victims (s : State) (k : UnitKind) (cls : Nat) : List (Nat × Req) :=
  (s.reqs.filter (fun r => r.2.victim k cls)).foldr (fun v l =>
    l.takeWhile (fun o => s.victimBefore o.2 v.2) ++ v :: l.dropWhile (fun o => s.victimBefore o.2 v.2)) []

/-- The victim's context can be held: a lane to shed, tiles, or a record position (R257). -/
def State.canHold (s : State) (r : Req) : Bool := r.sheds || s.tilesFit r.part r.tilesT || (s.expFree r.part).isSome

/-- Candidates that cannot be held are passed over and set EXP_FULL; the first that can is the victim (R257). -/
def State.chooseVictim (s : State) : List (Nat × Req) → State × Option (Nat × Req)
  | [] => (s, none)
  | v :: vs =>
    if s.canHold v.2 then (s, some v)
    else State.chooseVictim (s.updPart v.2.part (fun p => { p with expFull := true })) vs

/-- The charge of a partition once a victim's unit passes to it (R202). -/
def State.chargeAfter (s : State) (part : Nat) (v : Req) (u : Nat) : Nat :=
  if v.part = part then s.chargeMw part else s.chargeMw part + s.unitResv u

/-- A running request is to give up a unit to an urgent one at its next suspension point: a grove one lane, any other request its unit,
for which the room of its context is reserved (R202, R249, R253, R257). -/
def State.preempt (s : State) (rid vid : Nat) (v : Req) : State :=
  let t := s.setPhase rid .waitVictim
  if v.sheds then t.updReq vid (fun x => { x with shedding := x.shedding ++ [(v.nextShed, rid)] })
  else
    let pos := if t.tilesFit v.part v.tilesT then 0 else (t.expFree v.part).elim 0 (· + 1)
    t.updReq vid (fun x => { x with
      phase := .capturing, victimOf := some rid, expIdx := pos, ctxTiles := if pos = 0 then v.tilesT else 0 })

/-- An urgent request is denied and becomes an ordinary one (R203). -/
def State.deny (s : State) (rid : Nat) (r : Req) : State :=
  (s.updPart r.part (fun p => { p with urgDeny := true, denied := satAdd 0xFFFF p.denied 1 })).updReq rid (fun x =>
    { x with urgent := false, phase := .waitPlace })

/-- URG_STAT.LEFT less the preemptions of the partition that are under way: each uses one as it takes its unit. -/
def State.urgentLeft (s : State) (p : Nat) : Nat :=
  (s.part p).elim 0 (·.urgLeft) - (s.reqs.filter (fun r => r.2.phase == .waitVictim && r.2.part == p)).length

/-- An urgent request for which no unit is idle or grantable preempts the victim of R202, or is denied. -/
def State.urgentPath (s : State) (k : UnitKind) (rid : Nat) (r : Req) : State :=
  if s.urgentLeft r.part = 0 then s.deny rid r
  else
    match s.chooseVictim (s.victims k r.cls) with
    | (t, some v) =>
      if t.chargeAfter r.part v.2 v.2.nextShed ≤ t.shareOf r.part then t.preempt rid v.1 v.2 else t.deny rid r
    | (t, none) => t.deny rid r

/-- The urgent request that waited for a unit is dispatched on it under a grant of its own, which never borrows (R117, R202, R203). -/
def State.urgentTakes (s : State) (v : Option Nat) (u : Nat) : State :=
  match v with
  | none => s
  | some rid =>
    match s.req rid with
    | none => s
    | some r =>
      if r.phase ≠ .waitVictim then s
      else if !(s.withinShare r.part (s.unitResv u)) then s.deny rid r
      else ((s.updPart r.part (fun p => { p with urgLeft := p.urgLeft - 1 })).countP r.part 44 1).placeGrant rid r [u]

/-- A unit of the kind is idle for the request, or one can be granted at once (the first condition of R202 fails). -/
def State.unitAtHand (s : State) (rid : Nat) (r : Req) : Bool :=
  (s.unitOrder rid r).any (fun u => (s.unit u).power == .awake || (s.atOnce (s.asked rid r [u])).isSome)

/-- Urgent requests whose victim has ended some other way wait to be placed again. -/
def State.rejoin (s : State) (k : UnitKind) : State :=
  (s.reqs.filter (fun r => r.2.phase == .waitVictim && r.2.kind == some k
      && !(s.reqs.any (fun v => (v.2.phase == .capturing && v.2.victimOf == some r.1) || v.2.shedding.any (fun p => p.2 == r.1))))).foldl
    (fun t r => t.setPhase r.1 .waitPlace) s

/-- The request still needs a counter of its account (R275): it has none, or one taken under another instance bit (R267). -/
def State.needsCounter (s : State) (r : Req) : Bool :=
  s.ivFrom r == .ledger && s.keysSame r && !r.drawn && (r.counter.isNone || r.inst != s.inst)

/-- The picked request goes on to its placement, once it has the counter it needs. -/
def State.pick (s : State) (rid : Nat) (r : Req) (f : State → Req → State) : State :=
  if !(s.needsCounter r) then f s r
  else
    let t := s.waitLease rid
    match t.req rid with
    | some x => if x.phase = .waitPlace then f t x else t
    | none => t

/-- One placement for a unit kind (R200 to R203). -/
def State.place (s : State) (k : UnitKind) : State :=
  let s := (if k = .cipher then s.retryLeases else s).rejoin k
  let waits := s.placeWaits k
  let room := decide (s.grantWaits k < s.freeOf k)
  let l := if room then waits.filter (fun r => !(s.unitOrder r.1 r.2).isEmpty) else []
  match s.pickOf k (waits.filter (fun r => r.2.urgent && !(s.unitAtHand r.1 r.2))), s.pickOf k l with
  | none, none => s
  | some u, none => s.pick u.1 u.2 (fun t r => t.urgentPath k u.1 r)
  | none, some p => s.pick p.1 p.2 (fun t r => t.placeOn p.1 r)
  | some u, some p =>
    if u.2.cls ≤ p.2.cls then s.pick u.1 u.2 (fun t r => t.urgentPath k u.1 r) else s.pick p.1 p.2 (fun t r => t.placeOn p.1 r)

end Sys2Proof.Machine
end

