-- ==== Sys2Proof/Machine/Groves.lean ====
section
/-! DEFINITION. Groves, suspension and context export (spec/07 R239 to R266, spec/09 R310 to R312): the meanings of GROVE_FORMED,
SEGMENT_DONE, SUSPEND_CAPTURE, EXPORT_DONE, CONTEXT_RESUME, CONTEXT_DISCARD and CONTEXT_UNWRAP_DONE. -/

namespace Sys2Proof.Machine

/-! ### Groves -/

/-- GROVE_FORMED (R239): every lane holds its key schedule; the trunk reads the lists and draws the counter, and the segments
start. -/
def execGroveFormed (rid : Nat) (s : State) : Result :=
  .next (match s.req rid with
    | none => s
    | some r =>
      if r.phase = .forming ∧ r.units.all (fun u => (s.unit u).power == .awake) then (s.setPhase rid .reading).advance rid else s)

/-- Lanes of the grove that work on no segment and have not been asked to stop. -/
def Req.idleLanes (r : Req) : List Nat :=
  r.units.filter (fun u => !(r.segs.any (fun g => g.lane == some u && !g.done)) && r.shedding.all (fun p => p.1 != u))

/-- Idle lanes pick up the segments that wait, the lowest lane the lowest segment (R254). -/
def handOut : List Nat → List Segment → List Segment
  | _, [] => []
  | [], gs => gs
  | u :: us, g :: gs => if g.done || g.lane.isSome then g :: handOut (u :: us) gs else { g with lane := some u } :: handOut us gs

/-- The waiting segments of a running grove go to its idle lanes. -/
def State.pickUp (s : State) (rid : Nat) : State := s.updReq rid (fun r => { r with segs := handOut r.idleLanes r.segs })

/-- A lane's segment is done. -/
def finishSeg (segs : List Segment) (lane : Nat) : List Segment :=
  segs.map (fun (g : Segment) => if g.lane = some lane ∧ !g.done then { g with done := true } else g)

/-- The lanes of the request work on its payload. -/
def Req.atWork (r : Req) : Bool := r.drawn && (r.phase == .reading || r.phase == .ready || r.phase == .capturing)

/-- SEGMENT_DONE (R240, R254): a grove lane finishes its segment, all of which has arrived, and writes what is left of it; it picks up a
waiting one, unless the grove is to stop, or waits for the merge. -/
def execSegmentDone (rid lane : Nat) (s : State) : Result :=
  .next (match s.req rid with
    | none => s
    | some r =>
      match r.segs.find? (fun g => g.lane == some lane && !g.done) with
      | none => s
      | some g =>
        let n := g.size r.entry
        if r.atWork ∧ r.arrived (g.off r.entry) n = n then
          let t := (if r.early then s.putSeg rid r g n else s).updReq rid (fun x => { x with segs := finishSeg x.segs lane })
          if r.phase = .capturing then t else t.pickUp rid
        else s)

/-! ### Suspension -/

/-- The trunk's segment, if it is not done. -/
def Req.trunkSeg (r : Req) : Option Segment := r.segs.find? (fun g => g.lane == r.units.head? && !g.done)

/-- A lane may stop `blocks` blocks into a range of the payload that it covers: at a suspension point of R235, and no further than the
source has arrived. -/
def Req.rangeStop (r : Req) (off size blocks : Nat) : Bool :=
  canStop r.entry size blocks && decide (blockBytes r.entry blocks ≤ r.arrived off size) && (blocks == 0 || r.drawn)

/-- A lane may stop there within its segment, not behind where the segment was restored. -/
def Req.segStop (r : Req) (g : Segment) (blocks : Nat) : Bool :=
  r.rangeStop (g.off r.entry) (g.size r.entry) blocks && decide (g.pos ≤ blockBytes r.entry blocks)

/-- The request may stop `blocks` blocks into its payload, a grove into the trunk's segment (R235), or into its message before the outer
block and the final write (R310). -/
def Req.stopOk (r : Req) (blocks : Nat) : Bool :=
  let e := r.entry
  if r.owner = .kek then true
  else if r.origOp ≤ 4 then
    if r.g0 < 2 then r.rangeStop 0 (cLen e) blocks else r.trunkSeg.elim true (fun g => r.segStop g blocks)
  else if r.origOp ≤ 6 then decide (blocks * hashB (dAlg e) ≤ min (digestAdds e) (r.reach 0))
  else if r.origOp = Opc.pageSeal then
    decide (blocks * hashB (if eFlag e 0 then fld r.stored 1 1 else fld e 10 1) ≤ 32 + min r.payLen (r.reach 0))
  else true

/-- A lane stops n bytes into its segment: its output so far is written, and the trunk's record takes what the segment needs to go on
(R249, R253). -/
def State.stopSeg (s : State) (rid : Nat) (r : Req) (g : Segment) (n : Nat) : State :=
  let e := r.entry
  let ct := if cDec e then slice r.source (cAadLen e + g.off e) n else slice (s.laneWork r).body (s.builtLen r + g.off e) n
  let t := if r.early then s.putSeg rid r g n else s
  t.updReq rid (fun x => { x with
    segs := x.segs.map (fun (h : Segment) => if h.start = g.start then h.stop e (s.keyOf r) (s.ivOf r) n ct else h) })

/-- Every lane of a grove stops: the trunk as given, the others where they are, which is a free value (log entry 61). -/
def State.stopGrove (s : State) (rid : Nat) (r : Req) (blocks : Nat) : State :=
  (r.segs.filter (fun g => g.lane.isSome && !g.done)).foldl (fun t g =>
    let n := wholeBlocks r.entry (min (Config.progress t.picks) (r.arrived (g.off r.entry) (g.size r.entry - 1)))
    ({ t with picks := t.picks + 1 } : State).stopSeg rid r g
      (if g.lane = r.units.head? then blockBytes r.entry blocks else if r.drawn then max g.pos n else g.pos)) s

/-- Output of the blocks that left the lanes before the stop is written as usual (R249). -/
def State.writeStopped (s : State) (rid : Nat) (r : Req) (blocks : Nat) : State :=
  if 2 ≤ r.g0 then s.stopGrove rid r blocks
  else if r.early && decide (0 < blocks) then s.putTo rid r (s.builtLen r + blockBytes r.entry blocks)
  else s

/-- Where a captured context goes: the tiles reserved at selection or found for seal demand, the lane's save area, or the export
engine (R250, R257, R311). -/
def State.keepContext (s : State) (rid u : Nat) (r : Req) : State :=
  if r.victimOf.isSome then
    if r.expIdx = 0 then s.toPlace rid
    else (s.updReq rid (fun x => { x with phase := .exporting, waitSeq := s.nextId })).bump
  else if s.tilesFit r.part r.tilesT then (s.updReq rid (fun x => { x with ctxTiles := r.tilesT })).toPlace rid
  else (s.updUnit u (fun x => { x with save := some rid })).toPlace rid

/-- The whole request stops: it ends where an ending has been fixed (R265), else its context is captured and its units are free. -/
def State.stopWhole (s : State) (rid : Nat) (r : Req) : State :=
  let u := r.units.headD 0
  match r.ending with
  | some (st, d) =>
    let t := (s.leaveUnits rid r).endAt rid st d
    (if 2 ≤ r.g0 then t else t.urgentTakes r.victimOf u).serveFrames
  | none =>
    let t := (s.freeUnits r.units).updReq rid (fun x => { x with
      units := [], victimOf := none, ran := false
      segs := x.segs.map (fun (g : Segment) => if g.done then g else { g with lane := none }) })
    ((t.keepContext rid u r).urgentTakes r.victimOf u).serveFrames

/-- A lane of the grove stops and goes to the urgent request that waits for it; its segment goes to a lane that has finished its own
(R253, R254). -/
def State.shedLane (s : State) (rid u urgent cycles : Nat) (r : Req) : State :=
  let t := (s.chargeV r cycles).updReq rid (fun x =>
    { x with units := x.units.filter (· != u), shedding := x.shedding.filter (fun p => p.1 != u) })
  let t := ({ t with sheds := satAdd 0xFFFF t.sheds 1 } : State).freeUnit u
  (t.pickUp rid).urgentTakes (some urgent) u

/-- SUSPEND_CAPTURE (R249, R253, R265, R310, R311): the request has stopped at a suspension point, `blocks` blocks into its payload and
`cycles` cycles after it took its units; or the lane that its grove is to shed has, `blocks` blocks into its segment. -/
def execSuspendCapture (rid blocks cycles : Nat) (s : State) : Result :=
  .next (match s.req rid with
    | none => s
    | some r =>
      if r.phase = .capturing then
        if !(r.stopOk blocks) then s
        else (((s.writeStopped rid r blocks).chargeV r (cycles * r.units.length)).stopWhole rid r)
      else
        match r.shedding with
        | [] => s
        | (u, urgent) :: _ =>
          match r.segs.find? (fun g => g.lane == some u && !g.done) with
          | none => s.shedLane rid u urgent cycles r
          | some g =>
            if !(r.segStop g blocks) then s
            else (s.stopSeg rid r g (blockBytes r.entry blocks)).shedLane rid u urgent cycles r)

/-! ### Export (R255 to R260) -/

/-- The request that the export engine works on: the first by order of request (R256). -/
def State.engineHead (s : State) : Option Nat :=
  ((s.reqs.filter (fun r => r.2.phase == .exporting || r.2.phase == .unwrapping || r.2.phase == .wrapping)).foldl
    (fun b r => match b with
      | some x => if r.2.waitSeq < x.2.waitSeq then some r else b
      | none => some r) none).map (·.1)

/-- The key that wraps context records (R260). -/
def State.ctxKey (s : State) (part : Nat) : Bytes :=
  s.devKey "CTX" ([byteOf part] ++ beBytes 4 ((s.part part).elim 0 (·.ctxEpoch)))

/-- Bytes 0 to 31 of a record (R259). -/
def Req.recordHead (r : Req) (epoch seq : Nat) : Bytes :=
  [0x01, byteOf r.tilesT, byteOf r.part, byteOf r.origOp] ++ leBytes 2 r.qid ++ leBytes 2 r.origTag ++ leBytes 4 seq
  ++ leBytes 4 epoch ++ [byteOf (cMode r.entry), byteOf (r.expIdx - 1)] ++ leBytes 2 (40 + 64 * r.tilesT) ++ zeros 12

/-- The address of a record position (R255). -/
def Partition.expAddr (p : Partition) (i : Nat) : Nat := p.reg 0x600 + 2 ^ 32 * p.reg 0x604 + 1024 * i

/-- EXPORT_DONE (R256, R259, R303): the engine has wrapped a context, or the state of an HMAC, and writes the record. -/
def execExportDone (rid : Nat) (s : State) : Result :=
  .next (match s.req rid with
    | none => s
    | some r =>
      match s.part r.part with
      | none => s
      | some p =>
        if s.engineHead ≠ some rid then s
        else if r.phase = .wrapping then s.emitAt rid r (dState r.entry) ((Store.find r.recd wrapKeyOff).getD []) r.result
        else if r.phase ≠ .exporting ∨ s.writesOut rid then s
        else
          let head := r.recordHead p.ctxEpoch p.expSeq
          let ctx := (List.range (64 * r.tilesT)).map (Config.ctxByte p.expSeq r.part)
          let t := s.updPart r.part (fun x => { x with expSeq := if x.expSeq = 0xFFFFFFFF then 1 else x.expSeq + 1 })
          let t := (t.updReq rid (fun x => { x with expSeq := p.expSeq })).countP r.part 48 1
          t.writes r.part 2 (p.expAddr (r.expIdx - 1)) (head ++ kwWrap (s.ctxKey r.part) (head ++ ctx)) (.exp rid))

/-- The request becomes a live export of its queue, and its entry completes with PREEMPT_EXPORTED (R256). -/
def State.exported (s : State) (rid : Nat) (r : Req) : State :=
  let idx := r.expIdx - 1
  let t := s.updPart r.part (fun p => { p with live := p.live ++ [⟨idx, r.qid, r.expSeq, rid⟩] })
  let n := t.nextId
  let ghost : Req := { r with
    keys := [], units := [], staging := 0, ctxTiles := 0, fifo := none, origOp := 0, phase := .waitCredit, credit := true
    status := St.preemptExported, detail := 0, result := r.expSeq + 2 ^ 32 * idx }
  let t := t.updReq rid (fun x => { x with phase := .exported, credit := false, chained := false })
  let t := ({ t with reqs := Store.put t.reqs n ghost } : State).bump
  let t := t.updQueue r.part r.qid (fun q => { q with chain := q.chain.map (fun c =>
    if c.current = some rid then { c with current := some n } else c) })
  t.complete n St.preemptExported 0 ghost.result

/-- The answer to a record's write: the export is live; or the write failed and the request ends as an abort (R258); or an ending that
waited for the answer is carried out (R265). -/
def State.exportWritten (s : State) (rid : Nat) (ok : Bool) : State :=
  match s.req rid with
  | none => s
  | some r =>
    if r.phase ≠ .exporting ∨ s.writesOut rid then s
    else if !ok then
      ((s.updPart r.part (fun p => { p with expFail := true })).updReq rid (fun x => { x with expIdx := 0 })).endAt rid St.accessFault 0x04
    else
      match r.ending with
      | some (st, d) => (s.updReq rid (fun x => { x with expIdx := 0 })).endAt rid st d
      | none => s.exported rid r

/-! ### Resumption (R261 to R263) -/

def rIndex (e : Bytes) : Nat := fld e 8 1
def rSeq (e : Bytes) : Nat := fld e 12 4
def rDiscard (e : Bytes) : Bool := eFlag e 0

/-- The live export that a CONTEXT_RESUME entry names. -/
def State.liveOf (s : State) (r : Req) : Option LiveExp :=
  (s.part r.part).bind (fun p =>
    p.live.find? (fun l => l.qid == r.qid && l.idx == rIndex r.entry && l.seq == rSeq r.entry))

/-- Checks 1 and 2 of R262. -/
def State.resumeCheck (s : State) (r : Req) : Except (Nat × Nat) LiveExp :=
  if (s.part r.part).elim true (fun p => decide (p.expCount ≤ rIndex r.entry)) then .error (St.malformed, 0x0A)
  else
    match s.liveOf r with
    | none => .error (St.contextInvalid, 0x01)
    | some l => .ok l

/-- The live export goes on under the resuming entry: its tag, opcode, credit and place in a chain pass to it (R263). -/
def State.absorb (s : State) (rid orig : Nat) : State :=
  match s.req rid, s.req orig with
  | some r, some o =>
    let t := (s.dropLive o orig).updReq orig (fun x =>
      { x with tag := r.tag, opcode := r.opcode, credit := r.credit, irq := r.irq, chained := r.chained, pushed := r.pushed
               expIdx := 0 })
    let t := { t with reqs := Store.del t.reqs rid }
    t.updQueue r.part r.qid (fun q => { q with chain := q.chain.map (fun c =>
      if c.current = some rid then { c with current := some orig } else c) })
  | _, _ => s

/-- CONTEXT_RESUME (R262 checks 1 to 4): the record is read. -/
def execContextResume (rid : Nat) (s : State) : Result :=
  .next (match s.req rid with
    | none => s
    | some r =>
      if r.phase ≠ .admitted ∨ r.opcode ≠ Opc.contextResume ∨ rDiscard r.entry then s
      else
        match s.resumeCheck r with
        | .error (st, d) => s.reject rid st d
        | .ok l =>
          let t := (s.req l.rid).elim 2 (·.tilesT)
          match s.part r.part with
          | none => s
          | some p => (s.setPhase rid .resuming).reads r.part 1 (p.expAddr l.idx) (72 + 64 * t) (fun o => .recd rid o))

/-- CONTEXT_RESUME with DISCARD (R262 check 3): the live export ends with ABORTED_BY_HOST. -/
def execContextDiscard (rid : Nat) (s : State) : Result :=
  .next (match s.req rid with
    | none => s
    | some r =>
      if r.phase ≠ .admitted ∨ r.opcode ≠ Opc.contextResume ∨ !(rDiscard r.entry) then s
      else
        match s.resumeCheck r with
        | .error (st, d) => s.reject rid st d
        | .ok l => (s.absorb rid l.rid).endReq l.rid St.abortedByHost 0x01)

/-- The record has been read: the engine unwraps it in its turn; a failed read leaves the export live (R262 check 4). -/
def State.recordRead (s : State) (rid : Nat) (ok : Bool) : State :=
  if !ok then s.endReq rid St.accessFault 0x01
  else if s.readsOut rid then s
  else (s.updReq rid (fun x => { x with phase := .unwrapping, waitSeq := s.nextId })).bump

/-- Checks 5 to 7 of R262 on the record read, and the request's new placement. -/
def State.resumeUnwrapped (s : State) (rid : Nat) (r : Req) : State :=
  match s.liveOf r with
  | none => s.reject rid St.contextInvalid 0x01
  | some l =>
    match s.req l.rid with
    | none => s.reject rid St.contextInvalid 0x01
    | some o =>
      let rec_ := gathered r.recd
      match kwUnwrap (s.ctxKey r.part) (rec_.drop 32) with
      | none => s.reject rid St.contextInvalid 0x02
      | some u =>
        if u.take 32 != rec_.take 32 || u.take 32 != o.recordHead ((s.part r.part).elim 0 (·.ctxEpoch)) l.seq
        then s.reject rid St.contextInvalid 0x03
        else
          let t := s.absorb rid l.rid
          if t.keysSame o then t.toPlace l.rid else t.endReq l.rid St.contextInvalid 0x04

/-- The inner state of a keyed state record, unwrapped (R304). -/
def State.hmacUnwrapped (s : State) (rid : Nat) (r : Req) : State :=
  match s.hmacRestore r.entry r.record r.part (s.matOf ((r.keys.head?).elim 0 (·.1))) with
  | .error (st, d) => s.endReq rid st d
  | .ok h => (s.updReq rid (fun x => { x with recd := Store.put x.recd 4096 (digestStateBytes (dAlg r.entry) h) })).toPlace rid

/-- CONTEXT_UNWRAP_DONE (R263, R303): the export engine has unwrapped a context or HMAC state record. -/
def execContextUnwrapDone (rid : Nat) (s : State) : Result :=
  .next (match s.req rid with
    | none => s
    | some r =>
      if r.phase ≠ .unwrapping ∨ s.engineHead ≠ some rid then s
      else if r.opcode = Opc.contextResume ∧ r.origOp = Opc.contextResume then s.resumeUnwrapped rid r
      else s.hmacUnwrapped rid r)

end Sys2Proof.Machine
end

