-- ==== Sys2Proof/Machine/Cipher.lean ====
section
/-! DEFINITION. The meanings of CIPHER, AEAD, XTS, MAC, DIGEST, HMAC, PAGE_SEAL and PAGE_SEAL_VERIFY as their entries are admitted:
the ordered checks, and the waits they lead to (spec/06 R219, spec/09 R295, spec/18 R529). -/

namespace Sys2Proof.Machine

/-- The request, when it has just been admitted under one of the opcodes of a command. -/
def State.fresh (s : State) (rid : Nat) (p : Req → Bool) : Option Req :=
  (s.req rid).bind (fun r => if r.phase == .admitted && p r then some r else none)

/-! ### Ciphers -/

/-- The slot checks of R209. -/
def State.cipherSlot (s : State) (part : Nat) (e : Bytes) : Failure :=
  let a := (s.slot (s.gOf part (cSlot e))).attr
  let m := cMode e
  firstFail [s.slotHolds part (cSlot e),
    must (algServes m a.alg) St.keyPolicy 0x02,
    must (KeyAttr.can a (useFor e)) St.keyPolicy 0x01,
    must (m != mEcb || a.ecbOk) St.keyPolicy 0x04,
    must (!a.ledger || m == mGcm || m == mGmac || m == mChacha || (m == mCcm && cParam e == 12)) St.keyPolicy 0x05,
    must (!(!(cDec e) && cExtIv e && (m == mCbc || m == mCtr || ledgerMode m)
      && (a.xivForbid || (a.ledger && ledgerMode m)))) St.keyPolicy 0x03]

/-- Steps 2 to 5 of R219. -/
def State.cipherChecks (s : State) (part : Nat) (e : Bytes) : Failure :=
  firstFail [must (cipherBodyOk e) St.malformed 0x0A, must (!(cipherUnsupported e)) St.unsupported 0x00, s.cipherSlot part e,
    (cipherLimit e).map (fun d => (St.lengthMismatch, d))]

/-- Wait for MODE_STAT.RAND_RDY, if it is low (R371). -/
def State.needRandom (s : State) (rid : Nat) : State :=
  if s.rng.ready then s.enqueue rid else s.setPhase rid .waitRand

/-- A cipher entry's checks and its first wait (R219). A ledger-bound request names its account here; it waits for a counter when it is
picked for placement (R275). -/
def State.cipherStart (s : State) (rid op : Nat) : State :=
  match s.fresh rid (fun r => r.opcode == op) with
  | none => s
  | some r =>
    match s.cipherChecks r.part r.entry with
    | some (st, d) => s.reject rid st d
    | none =>
      let g := s.gOf r.part (cSlot r.entry)
      let t := s.useKeys rid [g]
      match ivSource r.entry (s.slot g).attr with
      | .ledger =>
        (t.updReq rid (fun x => { x with acct := if (s.slot g).st = .noHistory then none else s.acctOf (s.slot g) })).enqueue rid
      | .drbg => t.needRandom rid
      | _ => t.enqueue rid

/-- CIPHER (R204). -/
def execCipher (rid : Nat) (s : State) : Result := .next (s.cipherStart rid Opc.cipher)

/-- AEAD (R204). -/
def execAead (rid : Nat) (s : State) : Result := .next (s.cipherStart rid Opc.aead)

/-- XTS (R204). -/
def execXts (rid : Nat) (s : State) : Result := .next (s.cipherStart rid Opc.xts)

/-- MAC (R204). -/
def execMac (rid : Nat) (s : State) : Result := .next (s.cipherStart rid Opc.mac)

/-! ### Digests -/

/-- A bit of a pair of registers that names partitions (R393, R521). -/
def State.permits (s : State) (lo part : Nat) : Bool := bitAt (s.aon (lo + 4 * (part / 32))) (part % 32)

/-- Steps 2 to 5 of R295. -/
def State.digestChecks (s : State) (part : Nat) (e : Bytes) : Failure :=
  firstFail [must (digestBodyOk e) St.malformed 0x0A,
    must (hashKnown (dAlg e)) St.unsupported 0x00,
    must (!(dHostPad e) || s.permits 0x2030 part) St.unsupported 0x03,
    if eOpcode e = Opc.hmac then s.hmacSlot part (cSlot e) else none,
    (digestLimit e).map (fun d => (St.lengthMismatch, d)),
    must (!(dInit e) || digestCountOk e 0) St.lengthMismatch 0x04]

/-- A DIGEST or HMAC entry's checks. -/
def State.digestStart (s : State) (rid op : Nat) : State :=
  match s.fresh rid (fun r => r.opcode == op) with
  | none => s
  | some r =>
    match s.digestChecks r.part r.entry with
    | some (st, d) => s.reject rid st d
    | none => (s.useKeys rid (if op = Opc.hmac then [s.gOf r.part (cSlot r.entry)] else [])).enqueue rid

/-- DIGEST (R289). -/
def execDigest (rid : Nat) (s : State) : Result := .next (s.digestStart rid Opc.digest)

/-- HMAC (R298). -/
def execHmac (rid : Nat) (s : State) : Result := .next (s.digestStart rid Opc.hmac)

/-! ### Page seals -/

/-- The body checks of R526. -/
def pageBodyOk (e : Bytes) : Bool :=
  if eFlag e 0 then
    !(eFlag e 1) && zeroAt e 10 3 && zeroAt e 16 4 && zeroAt e 32 24
  else
    (fld e 11 1 == 16 || fld e 11 1 == 32)
      && (if eFlag e 1 then decide (1 ≤ fld e 16 4 ∧ fld e 16 4 ≤ 1048576) && fld e 24 8 != 0
          else fld e 16 4 == 0 && fld e 24 8 == 0)
      && fld e 32 8 % 64 == 0

/-- The stored header's check (R529 step 5). -/
def storedOk (e : Bytes) : Bool :=
  let h := slice e 64 64
  let n := fld h 4 1
  let cover := bitAt (fld h 3 1) 0
  fld h 0 1 == 1 && (fld h 1 1 == 1 || fld h 1 1 == 2) && (n == 16 || n == 32)
    && decide (fld h 3 1 < 2) && zeroAt h 5 3 && zeroAt h 12 4 && zeroAt h (32 + n) (32 - n)
    && (if cover then decide (1 ≤ fld h 8 4 ∧ fld h 8 4 ≤ 1048576) else fld h 8 4 == 0)
    && (fld e 24 8 != 0) == cover

/-- Steps 2 to 5 of R529. -/
def State.pageChecks (s : State) (part : Nat) (e : Bytes) : Failure :=
  firstFail [must (pageBodyOk e) St.malformed 0x0A,
    must (eFlag e 0 || fld e 10 1 == 1 || fld e 10 1 == 2) St.unsupported 0x00,
    s.hmacSlot part (cSlot e),
    must (!(eFlag e 0) || storedOk e) St.authFail 0x05]

/-- A PAGE_SEAL entry's checks. -/
def State.pageStart (s : State) (rid : Nat) (verify : Bool) : State :=
  match s.fresh rid (fun r => r.opcode == Opc.pageSeal && eFlag r.entry 0 == verify) with
  | none => s
  | some r =>
    match s.pageChecks r.part r.entry with
    | some (st, d) => s.reject rid st d
    | none => (s.useKeys rid [s.gOf r.part (cSlot r.entry)]).enqueue rid

/-- PAGE_SEAL generation (R530). -/
def execPageSeal (rid : Nat) (s : State) : Result := .next (s.pageStart rid false)

/-- PAGE_SEAL with VERIFY (R529). -/
def execPageSealVerify (rid : Nat) (s : State) : Result := .next (s.pageStart rid true)

end Sys2Proof.Machine
end

