-- ==== Sys2Proof/Machine/KeyOps.lean ====
section
/-! DEFINITION. The meanings of KEY_UNWRAP, KEY_UNWRAP_ERASE, KEY_DERIVE, KEY_EXPORT, SLOT_INFO, the six PKA_OP functions,
DRBG_DRAW_DONE and RANDOM as their entries are admitted (spec/11 R350, R354, R371, R372, spec/13 R401 to R408). -/

namespace Sys2Proof.Machine

/-! ### Key administration by entries -/

/-- DSLOT may be the target of an install (R402 step 2). -/
def State.targetOk (s : State) (part loc : Nat) (replace : Bool) : Failure :=
  let g := s.gOf part loc
  firstFail [must (s.slotIn part loc) St.keySlotInvalid 0x01,
    must (!(s.isReserved g) && ((s.slot g).st == .empty || replace)) St.keySlotInvalid 0x03]

/-- KSLOT 0xFFFF: the partition's KEK is loaded, and its tile check holds (R402 step 3, R507). -/
def State.kekOk (s : State) (part : Nat) : Failure :=
  firstFail [must (Store.find s.hw.keks part).isSome St.keySlotInvalid 0x05, must (!(s.hw.badKeks.contains part)) St.tileCheck 0x04]

/-- A local slot is below SLOTS and VALID. -/
def State.slotValid (s : State) (part loc : Nat) : Failure :=
  let x := s.slot (s.gOf part loc)
  firstFail [must (s.slotIn part loc) St.keySlotInvalid 0x01, must (x.st == .valid) St.keySlotInvalid 0x02,
    must (!x.bad) St.tileCheck 0x04]

/-- A wrapping key (R402 step 3). -/
def State.wrapKeyOk (s : State) (part loc : Nat) : Failure :=
  let a := (s.slot (s.gOf part loc)).attr
  if loc = 0xFFFF then s.kekOk part
  else firstFail [s.slotValid part loc, must (a.alg == 9) St.keyPolicy 0x02, must (KeyAttr.can a useWrap) St.keyPolicy 0x01]

/-- The global number of a wrapping key: 4608 + p for the KEK of partition p. -/
def State.wrapKey (s : State) (part loc : Nat) : Nat := if loc = 0xFFFF then 4608 + part else s.gOf part loc

/-- KEY_UNWRAP (R402 steps 1 to 4). -/
def State.unwrapStart (s : State) (rid : Nat) : State :=
  match s.fresh rid (fun r => r.opcode == Opc.keyUnwrap && !(kErase r.entry)) with
  | none => s
  | some r =>
    let e := r.entry
    let n := kInLen e
    match firstFail [must (unwrapBodyOk e) St.malformed 0x0A, s.targetOk r.part (kDslot e) (kReplace e),
        s.wrapKeyOk r.part (kKslot e), must (n % 8 == 0 && decide (32 ≤ n ∧ n ≤ 3616)) St.lengthMismatch 0x03] with
    | some (st, d) => s.reject rid st d
    | none =>
      let t := s.updReq rid (fun x => { x with dslot := some (s.gOf r.part (kDslot e)) })
      (t.useKeys rid [s.wrapKey r.part (kKslot e)]).enqueue rid

/-- KEY_UNWRAP (R403). -/
def execKeyUnwrap (rid : Nat) (s : State) : Result := .next (s.unwrapStart rid)

/-- A request that waits for an image and a graft completes once neither is owed (R404, R447). -/
def State.ackDone (s : State) (rid : Nat) : State :=
  match s.req rid with
  | none => s
  | some r => if r.phase = .waitAck ∧ r.waitSeqAck = none ∧ r.waitGraft = none then s.complete rid St.success 0 0 else s

/-- KEY_UNWRAP_ERASE (R404). -/
def State.eraseStart (s : State) (rid : Nat) : State :=
  match s.fresh rid (fun r => r.opcode == Opc.keyUnwrap && kErase r.entry) with
  | none => s
  | some r =>
    let e := r.entry
    let g := s.gOf r.part (kDslot e)
    match firstFail [must (unwrapBodyOk e) St.malformed 0x0A, must (s.slotIn r.part (kDslot e)) St.keySlotInvalid 0x01,
        must (!(s.isReserved g)) St.keySlotInvalid 0x03] with
    | some (st, d) => s.reject rid st d
    | none =>
      if (s.slot g).st = .empty then s.complete rid St.success 0 0
      else
        let t := (s.eraseG g).cfgGraft (.erase (.slots [g]))
        t.updReq rid (fun x => { x with phase := .waitAck, waitSeqAck := some s.nextSeq, waitGraft := t.lastGraft })

/-- KEY_UNWRAP with ERASE (R404). -/
def execKeyUnwrapErase (rid : Nat) (s : State) : Result := .next (s.eraseStart rid)

/-- KEY_DERIVE (R405, R406): the checks up to the grant; steps 8 and 9 follow on the unit. -/
def State.deriveStart (s : State) (rid : Nat) : State :=
  match s.fresh rid (fun r => r.opcode == Opc.keyDerive) with
  | none => s
  | some r =>
    let e := r.entry
    let k := s.gOf r.part (kKslot e)
    let a := (s.slot k).attr
    match firstFail [must (deriveBodyOk e) St.malformed 0x0A, must (kPrf e == 1 || kPrf e == 2) St.unsupported 0x00,
        s.targetOk r.part (kDslot e) (kReplace e), s.slotValid r.part (kKslot e),
        must (a.alg == 8 || (a.alg == 0x0A && kPrf e == 2)) St.keyPolicy 0x02,
        must (KeyAttr.can a useDerive) St.keyPolicy 0x01] with
    | some (st, d) => s.reject rid st d
    | none =>
      let t := s.updReq rid (fun x => { x with dslot := some (s.gOf r.part (kDslot e)) })
      (t.useKeys rid [k]).enqueue rid

/-- KEY_DERIVE (R405). -/
def execKeyDerive (rid : Nat) (s : State) : Result := .next (s.deriveStart rid)

/-- KEY_EXPORT (R407). -/
def State.exportStart (s : State) (rid : Nat) : State :=
  match s.fresh rid (fun r => r.opcode == Opc.keyExport) with
  | none => s
  | some r =>
    let e := r.entry
    let slot := kDslot e
    let g := s.gOf r.part slot
    let a := (s.slot g).attr
    match firstFail [s.slotValid r.part slot, must (!a.ledger) St.keyPolicy 0x05, must (a.exportP != 0) St.keyPolicy 0x08,
        must (kKslot e == 0xFFFF || (a.exportP == 2 && kKslot e != slot)) St.keyPolicy 0x08, s.wrapKeyOk r.part (kKslot e),
        must (decide (blobLen a.len ≤ kDstLen e)) St.lengthMismatch 0x02] with
    | some (st, d) => s.reject rid st d
    | none => (s.useKeys rid [s.wrapKey r.part (kKslot e), g]).enqueue rid

/-- KEY_EXPORT (R407). -/
def execKeyExport (rid : Nat) (s : State) : Result := .next (s.exportStart rid)

/-- What SLOT_INFO returns of a slot (R408). -/
def State.slotInfo (s : State) (g page : Nat) : Nat :=
  let a := (s.slot g).attr
  let code := s.slotCode g
  if code = 0 then 0
  else if (s.slot g).st = .empty then if page = 0 then 2 ^ 8 * code else 0
  else if page = 0 then
    a.alg + 2 ^ 8 * code + 2 ^ 16 * a.len + 2 ^ 32 * a.use + 2 ^ 38 * b2n a.ecbOk + 2 ^ 39 * b2n a.xivForbid
    + 2 ^ 40 * b2n a.ledger + 2 ^ 41 * a.exportP + 2 ^ 43 * b2n (!(s.slot g).tiles.isEmpty)
  else a.epoch + 2 ^ 16 * a.lgid + 2 ^ 32 * a.limitLog2

/-- SLOT_INFO (R408). -/
def execSlotInfo (rid : Nat) (s : State) : Result :=
  .next (match s.fresh rid (fun r => r.opcode == Opc.slotInfo) with
    | none => s
    | some r =>
      let e := r.entry
      let page := fld e 10 1
      if 1 < page then s.reject rid St.malformed 0x0A
      else if !(s.slotIn r.part (cSlot e)) then s.reject rid St.keySlotInvalid 0x01
      else s.complete rid St.success 0 (s.slotInfo (s.gOf r.part (cSlot e)) page))

/-! ### PKA_OP (R350) -/

/-- The SLOT checks of R350 step 4. -/
def State.pkaSlotOk (s : State) (part : Nat) (e : Bytes) : Failure :=
  let a := (s.slot (s.gOf part (cSlot e))).attr
  if !(pkaSlot (pFunc e)) then none
  else firstFail [s.slotHolds part (cSlot e), must (a.alg == pkaKeyAlg (pAlgo e)) St.keyPolicy 0x02,
    must ((pkaUses (pAlgo e) (pFunc e)).any (fun u => KeyAttr.can a u)) St.keyPolicy 0x01]

/-- Secret tiles that a job's result needs (R350 step 5). -/
def pkaTiles (e : Bytes) : Nat := if pAlgo e = 3 ∧ pFunc e = fAgree then 2 else 0

/-- The DSLOT checks of R350 step 5. -/
def State.pkaTargetOk (s : State) (part : Nat) (e : Bytes) : Failure :=
  let n := pkaTiles e
  if !(pkaDslot (pAlgo e) (pFunc e)) then none
  else firstFail [s.targetOk part (pDslot e) false,
    must (n == 0 || (decide (n ≤ s.stilesFree) && decide (s.stilesOf part + n ≤ min 512 (s.aon 0xC10 % 0x400)))) St.keyPolicy 0x0A]

/-- The modulus length that the lengths of R349 use. -/
def State.pkaModulus (s : State) (part : Nat) (e : Bytes) : Nat :=
  if pkaModded (pAlgo e) (pFunc e) then pModBits e / 8 else (rsaOf (s.slot (s.gOf part (cSlot e))).mat).k

/-- Steps 2 to 6 of R350. -/
def State.pkaChecks (s : State) (part : Nat) (e : Bytes) : Failure :=
  firstFail [must (pkaBodyOk e) St.malformed 0x0A, must (pkaKnown (pAlgo e) (pFunc e)) St.unsupported 0x00, s.pkaSlotOk part e,
    s.pkaTargetOk part e, (pkaLimit e (s.pkaModulus part e)).map (fun d => (St.lengthMismatch, d))]

/-- A PKA_OP entry's checks and its first wait; an entry whose FUNC no row names is taken by PKA_SIGN. -/
def State.pkaStart (s : State) (rid f : Nat) : State :=
  match s.fresh rid (fun r => r.opcode == Opc.pkaOp
      && (pFunc r.entry == f || (f == fSign && !(decide (1 ≤ pFunc r.entry ∧ pFunc r.entry ≤ 6))))) with
  | none => s
  | some r =>
    let e := r.entry
    match s.pkaChecks r.part e with
    | some (st, d) => s.reject rid st d
    | none =>
      let t := s.updReq rid (fun x => { x with
        dslot := if pkaDslot (pAlgo e) (pFunc e) then some (s.gOf r.part (pDslot e)) else none, tiles := pkaTiles e })
      let t := t.useKeys rid (if pkaSlot (pFunc e) then [s.gOf r.part (cSlot e)] else [])
      if pkaSecret (pFunc e) then t.needRandom rid else t.enqueue rid

/-- PKA_OP SIGN (R345). -/
def execPkaSign (rid : Nat) (s : State) : Result := .next (s.pkaStart rid fSign)

/-- PKA_OP VERIFY (R358). -/
def execPkaVerify (rid : Nat) (s : State) : Result := .next (s.pkaStart rid fVerify)

/-- PKA_OP AGREE (R345). -/
def execPkaAgree (rid : Nat) (s : State) : Result := .next (s.pkaStart rid fAgree)

/-- PKA_OP PUBKEY (R345). -/
def execPkaPubkey (rid : Nat) (s : State) : Result := .next (s.pkaStart rid fPubkey)

/-- PKA_OP ENCRYPT (R345). -/
def execPkaEncrypt (rid : Nat) (s : State) : Result := .next (s.pkaStart rid fEncrypt)

/-- PKA_OP DECRYPT (R345). -/
def execPkaDecrypt (rid : Nat) (s : State) : Result := .next (s.pkaStart rid fDecrypt)

/-- DRBG_DRAW_DONE (R354, R361, R363): the single draw of a job is complete, the decoy tiles are filled and the job starts. -/
def execDrbgDrawDone (rid : Nat) (s : State) : Result :=
  .next (match s.req rid with
    | none => s
    | some r =>
      if r.phase ≠ .waitRand ∨ r.units.isEmpty ∨ !s.rng.ready then s
      else
        let n := pkaDraw r.entry + pkaBlind r.entry (rsaOf (s.keyOf r)).k r.randrep
        let (bs, t) := s.drbg (n + 32)
        (t.updUnit r.cluster (fun u => { u with seqr := bs, tiles := decoyTiles u.tiles (bs.drop n) })).updReq rid (fun x =>
          { x with rand := bs, phase := .ready, ran := true }))

/-! ### RANDOM (R372) -/

/-- The next chunk of a RANDOM request is drawn and written, or the request waits for RAND_RDY (R370, R371). -/
def State.randomNext (s : State) (rid : Nat) : State :=
  match s.req rid with
  | none => s
  | some r =>
    if !s.rng.ready then s.setPhase rid .waitRand
    else
      let n := min 4096 (rndLen r.entry - r.wrote)
      let (bs, t) := s.drbg n
      let t := t.updReq rid (fun x => { x with phase := .writing, wrote := r.wrote + n, status := St.success, detail := 0, result := 0 })
      t.writes r.part 2 (rndDst r.entry + r.wrote) bs (.out rid)

/-- RANDOM (R372). -/
def execRandom (rid : Nat) (s : State) : Result :=
  .next (match s.fresh rid (fun r => r.opcode == Opc.random) with
    | none => s
    | some r =>
      let n := rndLen r.entry
      match firstFail [must (rndDst r.entry != 0) St.malformed 0x0A, must (n != 0) St.lengthMismatch 0x03,
          must (decide (n ≤ 65536)) St.lengthMismatch 0x04] with
      | some (st, d) => s.reject rid st d
      | none => s.randomNext rid)

/-- Requests that wait for RAND_RDY without a unit go on (R371). -/
def State.serveRandom (s : State) : State :=
  (s.reqs.filter (fun r => r.2.phase == .waitRand && r.2.units.isEmpty)).foldl (fun t r =>
    if r.2.origOp = Opc.random then t.randomNext r.1 else t.enqueue r.1) s

/-- ENTROPY_WAIT_TIMEOUT (R371). A request whose cluster already holds it waits for its draw without this limit. -/
def execEntropyWaitTimeout (rid : Nat) (s : State) : Result :=
  .next (match s.req rid with
    | none => s
    | some r =>
      if r.phase = .waitRand ∧ r.units.isEmpty ∧ !s.rng.ready then s.reject rid St.entropyNotReady 0x01 else s)

end Sys2Proof.Machine
end

