-- ==== Sys2Proof/Machine/Raw.lean ====
section
/-! DEFINITION. Raw mode: the admission of WMAC_LIST with its result FIFO region, and the meanings of WMAC_LIST, RF_DATA_READ,
RF_REWIND, RF_RELEASE and RF_MARK (spec/12 R380 to R392). -/

namespace Sys2Proof.Machine

/-- Steps 2 and 3 of R381. -/
def State.rawChecks (s : State) (part : Nat) (e : Bytes) : Failure :=
  firstFail [must (wmacBodyOk e) St.malformed 0x0A, must (s.permits 0xB24 part) St.unsupported 0x01,
    must (s.aon 0xB20 % 256 != 0) St.unsupported 0x02]

/-- The entry must wait for FIFO words before it is admitted (R387). -/
def State.fifoWait (s : State) (part : Nat) (e : Bytes) : Bool :=
  eOpcode e == Opc.wmacList && (s.rawChecks part e).isNone
    && (s.part part).elim false (fun p => decide (p.rf.free < wFifo e))

/-- Reserve a region for the request; it holds 0 in every word (R387). -/
def ResultFifo.reserve (f : ResultFifo) (rid len : Nat) : ResultFifo :=
  { f with words := zeroWords f.words f.tail len, tail := f.tail + len, regions := f.regions ++ [⟨f.tail, len, some rid⟩] }

/-- What admission fixes for a WMAC_LIST: a failed check, or its region and the clusters it may run on; later writes of the registers
change none of it (R380, R387). -/
def State.rawAdmit (s : State) (rid : Nat) (r : Req) : State :=
  if r.opcode ≠ Opc.wmacList then s
  else
    match s.rawChecks r.part r.entry, s.part r.part with
    | some f, _ => s.updReq rid (fun x => { x with ending := some f })
    | none, none => s
    | none, some p =>
      let n := wFifo r.entry
      let t := s.updReq rid (fun x => { x with mask := s.aon 0xB20 % 256 })
      if n = 0 then t
      else (t.updReq rid (fun x => { x with fifo := some (p.rf.tail, n) })).updPart r.part (fun y => { y with rf := y.rf.reserve rid n })

/-- WMAC_LIST (R380, R381): the checks were made as the entry was admitted. -/
def execWmacList (rid : Nat) (s : State) : Result :=
  .next (match s.fresh rid (fun r => r.opcode == Opc.wmacList) with
    | none => s
    | some r =>
      match r.ending with
      | some (st, d) => s.reject rid st d
      | none => s.enqueue rid)

/-! ### The result FIFO's registers -/

/-- The partition's page offset within the aperture. -/
def pageAt (part off : Nat) : Nat := 0x10000 + 0x4000 * part + off

/-- RF_DATA_READ (R389): the word at the read position; `badTile` is the number of its tile when the tile check fails. -/
def execRfDataRead (part : Nat) (badTile : Option Nat) (s : State) : Result :=
  .next (
    if !s.pins.fabClk then s
    else if s.portErr false true (pageAt part 0xC00) then s.readOut 0 true
    else
      match s.part part with
      | none => s
      | some p =>
        if p.rf.avail = 0 then (s.updPart part (fun x => { x with rf := { x.rf with underrun := true } })).readOut 0 false
        else
          match badTile with
          | some t =>
            ((s.updPart part (fun x => { x with rf := { x.rf with tileErr := true, rd := x.rf.rd + 1 } })).send 0x49 0 t).readOut 0 false
          | none =>
            (s.updPart part (fun x => { x with rf := { x.rf with rd := x.rf.rd + 1 } })).readOut
              (RegFile.get p.rf.words 0 (p.rf.rd % 2048)).toNat false)

/-- The effect of an RF_CTL write: REWIND, then RELEASE, then MARK (R390). -/
def ResultFifo.ctl (f : ResultFifo) (data : Word) : ResultFifo :=
  let f := if data.getLsbD 0 then { f with rd := f.mark } else f
  let f := if data.getLsbD 1 then
      { f with release := f.rd, mark := max f.mark f.rd
               regions := f.regions.filter (fun x => x.owner.isSome || decide (f.rd < x.start + x.len)) }
    else f
  if data.getLsbD 2 then { f with mark := f.rd } else f

/-- A write of RF_CTL. -/
def State.rfCtl (s : State) (part : Nat) (ben : BitVec 4) (data : Word) : State :=
  s.portWrite false (pageAt part 0xC04) ben true (fun t => t.updPart part (fun x => { x with rf := x.rf.ctl data }))

/-- RF_REWIND (R390). -/
def execRfRewind (part : Nat) (ben : BitVec 4) (data : Word) (s : State) : Result := .next (s.rfCtl part ben (data ||| 1))

/-- RF_RELEASE (R390). -/
def execRfRelease (part : Nat) (ben : BitVec 4) (data : Word) (s : State) : Result := .next (s.rfCtl part ben (data ||| 2))

/-- RF_MARK (R390). -/
def execRfMark (part : Nat) (ben : BitVec 4) (data : Word) (s : State) : Result := .next (s.rfCtl part ben (data ||| 4))

/-- The FIFO emptied and wiped (R391). -/
def ResultFifo.empty : ResultFifo := ⟨[], 0, 0, 0, 0, [], false, false⟩

/-- The FIFO after an event of R391: contents and positions are gone, the status flags stay. -/
def ResultFifo.wiped (f : ResultFifo) : ResultFifo := { ResultFifo.empty with underrun := f.underrun, tileErr := f.tileErr }

end Sys2Proof.Machine
end

