-- ==== Sys2Proof/Machine/Rings.lean ====
section
/-! DEFINITION. Rings and doorbells (spec/04): the meanings of SQ_DB, CQ_DB, INVAL, PUSH_WORD_WRITE, PUSH_TAKE, Q_CTL_WRITE,
ENTRY_FETCH_DONE, ADMIT_ENTRY and FENCE. -/

namespace Sys2Proof.Machine

/-! ### Indices (R130) -/

/-- A linear index advanced. -/
def Queue.adv (q : Queue) (v n : Nat) : Nat := (v + n) % (2 * q.sqN)

/-- How far a linear index lies beyond the head. -/
def Queue.dist (q : Queue) (v : Nat) : Nat := occ q.sqN v q.head

/-- The linear index that a doorbell word names; none when its position or reserved bits are wrong (R140, R163). -/
def dbIndex (n : Nat) (data : Word) : Option Nat :=
  let w := data.toNat
  if w / 2 ^ 17 = 0 ∧ w % 2 ^ 16 < n then some (n * (w / 2 ^ 16 % 2) + w % 2 ^ 16) else none

/-- A refetch brought another SLOTS_M1 than the one first parsed (R151). -/
def CacheEntry.changed (c : CacheEntry) : Bool := eSlots c.bytes != c.first

/-- The entry is a PAD, which takes no place in the cache (R135). One whose length a refetch changed is MALFORMED by R151 (log entry
27). -/
def CacheEntry.isPad (c : CacheEntry) : Bool := eOpcode c.bytes == Opc.pad && !c.changed

/-- Entries in the cache. -/
def Queue.load (q : Queue) : Nat := (q.cache.filter (fun c => !c.isPad)).length

/-- Pushed entries taken and not yet admitted. -/
def Queue.pushes (q : Queue) : Nat := (q.cache.filter (fun c => c.pushed && !c.isPad)).length

/-- Insert an entry in ring order. -/
def Queue.insert (q : Queue) (c : CacheEntry) : Queue :=
  { q with cache := q.cache.takeWhile (fun x => decide (q.dist x.v < q.dist c.v)) ++ c
      :: q.cache.dropWhile (fun x => decide (q.dist x.v < q.dist c.v)) }

/-- The cached entries that are parsed, in ring order. -/
def Queue.ready (q : Queue) : List CacheEntry := q.cache.filter (fun c => decide (q.dist c.v < q.dist q.parse) && !c.isPad)

/-- The links of a chain under way that are not yet admitted (R156). -/
def Queue.linksLeft (q : Queue) : List CacheEntry := q.chain.elim [] (fun k => q.ready.take k.left)

/-- The head moves to the first entry that is not yet consumed, or to the parse point (R148). -/
def Queue.fixHead (q : Queue) : Queue :=
  match q.cache.head? with
  | some c => { q with head := if q.dist c.v < q.dist q.parse then c.v else q.parse }
  | none => { q with head := q.parse }

/-! ### Fetching (R142) -/

/-- Past the pushed entries that lie at an index. -/
def Queue.skipPushed (q : Queue) (v : Nat) : Nat → Nat
  | 0 => v
  | fuel + 1 =>
    match q.cache.find? (fun c => c.pushed && c.v == v) with
    | some c => q.skipPushed (q.adv v c.slots) fuel
    | none => v

/-- Slots that one read from an index may cover: 512 bytes, the end of the ring, a 4 KiB boundary (R142). -/
def Queue.readRun (q : Queue) (v : Nat) : Nat :=
  let pos := v % q.sqN
  min (min 16 (q.sqN - pos)) ((4096 - (q.cfg.sqBase + 32 * pos) % 4096) / 32)

/-- The next read of posted slots. -/
def Queue.nextRead (q : Queue) : Option (Nat × Nat) :=
  let v := q.skipPushed q.fetch 17
  let left := q.dist q.tail - q.dist v
  let pushed := q.cache.filter (fun c => c.pushed && decide (q.dist v < q.dist c.v))
  let room := pushed.foldl (fun n c => min n (q.dist c.v - q.dist v)) left
  if room = 0 ∨ q.dist q.tail ≤ q.dist v then none else some (v, min room (q.readRun v))

/-- Fetch reads of a queue that are outstanding: first index and slots. -/
def State.fetchReads (s : State) (p q : Nat) : List (Nat × Nat) :=
  s.fab.filterMap (fun t => match t.purpose with
    | .fetch a b v n => if a = p ∧ b = q ∧ t.phase ≠ .held then some (v, n) else none
    | _ => none)

/-- A slot is on its way or has returned. -/
def Queue.slotSeen (q : Queue) (reads : List (Nat × Nat)) (v : Nat) : Bool :=
  q.slots.any (fun x => x.1 == v) || reads.any (fun r => decide (occ q.sqN v r.1 < r.2))

/-- The dropped entries that are read again now (R149): all while the queue is served and enabled; in DRAIN and with EN 0, where
nothing else is fetched (R98, R166), the remaining links of a chain begun, which runs to its end (R156; log entry 26). -/
def State.wanted (s : State) (x : Queue) : List CacheEntry :=
  (if s.serving && x.en then x.cache else if s.sealing then x.linksLeft else []).filter (fun c => c.dropped)

/-- The first read that dropped entries still need (R149). -/
def Queue.refetch (q : Queue) (reads : List (Nat × Nat)) (cs : List CacheEntry) : Option (Nat × Nat) :=
  cs.findSome? (fun c =>
    ((List.range c.slots).find? (fun i => !(q.slotSeen reads (q.adv c.v i)))).map (fun i =>
      let v := q.adv c.v i
      (v, min (c.slots - i) (q.readRun v))))

/-- Present a fetch read. -/
def State.fetchRead (s : State) (p q : Nat) (x : Queue) (v n : Nat) : State :=
  s.reads p 0 (x.cfg.sqBase + 32 * (v % x.sqN)) (32 * n) (fun _ => .fetch p q v n)

/-- Present what fetch reads R142 and R149 allow. -/
def State.fetchMore (s : State) (p q : Nat) : Nat → State
  | 0 => s
  | fuel + 1 =>
    match s.queue p q with
    | none => s
    | some x =>
      let reads := s.fetchReads p q
      if x.dying || (s.part p).elim true (fun y => y.reset.isSome) || decide (4 ≤ reads.length) then s
      else
        match x.refetch reads (s.wanted x) with
        | some (v, n) => State.fetchMore (s.fetchRead p q x v n) p q fuel
        | none =>
          if !s.serving || !x.en || decide (16 ≤ x.load) then s
          else
            match x.nextRead with
            | some (v, n) => State.fetchMore ((s.updQueue p q (fun y => { y with fetch := x.adv v n })).fetchRead p q x v n) p q fuel
            | none => s

/-- Slots that a fetch read returned; those that a refetch no longer wants are not among them. -/
def Queue.gotSlots (q : Queue) (v n : Nat) (bs : Bytes) : Queue :=
  { q with slots := q.slots ++ (List.range n).map (fun i => (q.adv v i, slice bs (32 * i) 32)) }

/-! ### Parsing -/

/-- The bytes of consecutive slots, when all of them are there. -/
def Queue.slotBytes (q : Queue) (v : Nat) : Nat → Option Bytes
  | 0 => some []
  | n + 1 =>
    match q.slots.find? (fun x => x.1 == v), q.slotBytes (q.adv v 1) n with
    | some x, some r => some (x.2 ++ r)
    | _, _ => none

/-- Remove consecutive slots. -/
def Queue.dropSlots (q : Queue) (v n : Nat) : Queue := { q with slots := q.slots.filter (fun x => !(decide (occ q.sqN x.1 v < n))) }

/-- A link of a chain under way is consumed as a PAD: the chain has one link fewer, whose credit is free again (R135, R154). -/
def Queue.skipLink (q : Queue) : Queue :=
  { q with reserved := q.reserved - 1
           chain := q.chain.bind (fun (k : ChainRun) => if k.left ≤ 1 ∧ k.current.isNone then none else some { k with left := k.left - 1 }) }

/-- A dropped entry whose slots are all read again takes its new bytes; one rewritten as a PAD is consumed (R135, R149). -/
def Queue.remade (q : Queue) (c : CacheEntry) : Queue :=
  match q.slotBytes c.v c.slots with
  | none => q
  | some bs =>
    let d : CacheEntry := { c with bytes := bs, dropped := false }
    let t := q.dropSlots c.v c.slots
    if d.isPad then
      let u : Queue := { t with cache := t.cache.filter (fun x => x.v != c.v) }
      if q.linksLeft.any (fun x => x.v == c.v) then u.skipLink else u
    else { t with cache := t.cache.map (fun (x : CacheEntry) => if x.v = c.v then d else x) }

/-- Dropped entries take what has been read again for them. -/
def Queue.remake (q : Queue) (cs : List CacheEntry) : Queue := (cs.foldl Queue.remade q).fixHead

/-- One entry is parsed at the parse point: a pushed one, or with `fetched` one whose slots have returned (R135, R136, R142). -/
def Queue.parseOne (q : Queue) (fetched : Bool) : Option Queue :=
  let v := q.parse
  match q.cache.find? (fun c => c.pushed && c.v == v) with
  | some c =>
    some { q with parse := q.adv v c.slots, fetch := if q.fetch = v then q.adv v c.slots else q.fetch
                  cache := if c.isPad then q.cache.filter (fun x => x.v != v) else q.cache }
  | none =>
    match (if fetched then q.slots else []).find? (fun x => x.1 == v) with
    | none => none
    | some h =>
      let n := min (eSlots h.2) (q.sqN - v % q.sqN)
      match q.slotBytes v n with
      | none => none
      | some bs =>
        let t := { q.dropSlots v n with parse := q.adv v n }
        if eOpcode h.2 = Opc.pad then some t
        else if 16 ≤ q.load then none
        else some (t.insert { v := v, slots := n, bytes := bs, first := eSlots h.2, pushed := false, dropped := false, drained := false })

/-- Parse as far as slots and cache allow, and move the head past consumed PADs. -/
def Queue.parseAll (q : Queue) (fetched : Bool) : Nat → Queue
  | 0 => q.fixHead
  | fuel + 1 =>
    match q.parseOne fetched with
    | some t => Queue.parseAll t fetched fuel
    | none => q.fixHead

/-- Take what has been read again, parse returned slots while the queue is served and enabled, and fetch on. Slots that return in DRAIN
are not parsed, so no entry is held that was not held when DRAIN began (R98). -/
def State.refill (s : State) (p q : Nat) : State :=
  match s.queue p q with
  | none => s
  | some x =>
    let serve := s.serving && x.en
    (s.updQueue p q (fun y => let z := y.remake (s.wanted x); if serve then z.parseAll true 80 else z)).fetchMore p q 5

/-- ENTRY_FETCH_DONE (R142). -/
def execEntryFetchDone (part q : Nat) (s : State) : Result := .next (s.refill part q)

/-! ### Doorbells -/

/-- A write to a register of a queue's blocks: ignored for a queue that does not exist (R168). -/
def State.queueWrite (s : State) (part q off : Nat) (ben : BitVec 4) (needAll : Bool) (f : State → Queue → State) : State :=
  match s.queue part q with
  | some x => s.portWrite false (pageAt part off) ben needAll (fun t => f t x)
  | none => s.portWrite false (pageAt part off) ben false (fun t => t)

/-- A queue's error bit is set and the partition's error vector raised (R140, R163, R196). -/
def State.queueErr (s : State) (p q : Nat) (f : Queue → Queue) : State := (s.updQueue p q f).errEvent p

/-- SQ_DB (R140). -/
def execSqDb (part q : Nat) (ben : BitVec 4) (data : Word) (s : State) : Result :=
  .next (s.queueWrite part q (0x800 + 16 * q) ben true (fun t x =>
    match dbIndex x.sqN data with
    | some v =>
      if occ x.sqN v x.tail ≤ x.sqN - occ x.sqN x.tail x.head
      then (t.updQueue part q (fun y => { y with tail := v })).fetchMore part q 5
      else t.queueErr part q (fun y => { y with dbErr := true })
    | none => t.queueErr part q (fun y => { y with dbErr := true })))

/-- CQ_DB (R163): completions that wait for a credit follow. -/
def execCqDb (part q : Nat) (ben : BitVec 4) (data : Word) (s : State) : Result :=
  .next (s.queueWrite part q (0x804 + 16 * q) ben true (fun t x =>
    match dbIndex x.cqN data with
    | some v =>
      if occ x.cqN x.cqTail v ≤ occ x.cqN x.cqTail x.cqHead
      then (t.updQueue part q (fun y => { y with cqHead := v })).postWaiting part q
      else t.queueErr part q (fun y => { y with dbErr := true })
    | none => t.queueErr part q (fun y => { y with dbErr := true })))

/-! ### INVAL (R149, R150) -/

/-- A slot position lies in the range of an INVAL write. -/
def inRange (n first count v : Nat) : Bool := count == 0 || decide (n ≤ count) || decide ((v % n + n - first) % n < count)

/-- The first unparsed slot, returned or on its way, that lies in the range. -/
def Queue.staleFrom (q : Queue) (reads : List (Nat × Nat)) (first count : Nat) : Option Nat :=
  let vs := q.slots.map (·.1) ++ reads.flatMap (fun r => (List.range r.2).map (q.adv r.1))
  (vs.filter (fun v => inRange q.sqN first count v && decide (q.dist q.parse ≤ q.dist v) && decide (q.dist v < 2 * q.sqN))).foldl
    (fun b v => match b with
      | some w => if q.dist v < q.dist w then some v else b
      | none => some v) none

/-- Reads on their way lose the slots at and beyond an index: their data is discarded and read again. -/
def State.cutReads (s : State) (p q : Nat) (x : Queue) (v0 : Nat) : State :=
  { s with fab := s.fab.map (fun (t : Txn) => match t.purpose with
      | .fetch a b v n =>
        if a = p ∧ b = q then
          { t with purpose := .fetch a b v (if x.dist v0 ≤ x.dist v then 0 else min n (x.dist v0 - x.dist v)) }
        else t
      | _ => t) }

/-- An accepted INVAL write. -/
def State.invalidate (s : State) (p q : Nat) (x : Queue) (first count : Nat) : State :=
  let hit := fun (c : CacheEntry) => !c.pushed && (List.range c.slots).any (fun i => inRange x.sqN first count (x.adv c.v i))
  let t := s.updQueue p q (fun y =>
    { y with inv := y.head, cache := y.cache.map (fun (c : CacheEntry) => if hit c then { c with dropped := true } else c)
             slots := y.slots.filter (fun z => !(y.cache.any (fun c => hit c && decide (occ y.sqN z.1 c.v < c.slots)))) })
  let t := { t with fab := t.fab.map (fun (z : Txn) => match z.purpose with
      | .fetch a b v _ =>
        if a = p ∧ b = q ∧ (x.cache.any (fun c => c.dropped && decide (occ x.sqN v c.v < c.slots))) then { z with purpose := .fetch a b v 0 }
        else z
      | _ => z) }
  match x.staleFrom (s.fetchReads p q) first count with
  | none => t
  | some v0 =>
    (t.updQueue p q (fun y => { y with fetch := v0, slots := y.slots.filter (fun z => decide (y.dist z.1 < y.dist v0)) })).cutReads p q x v0

/-- INVAL (R149). -/
def execInval (part q : Nat) (ben : BitVec 4) (data : Word) (s : State) : Result :=
  .next (s.queueWrite part q (0x808 + 16 * q) ben true (fun t x =>
    let first := data.toNat % 2 ^ 16
    let count := data.toNat / 2 ^ 16
    if x.sqN ≤ first then t.queueErr part q (fun y => { y with invalErr := true })
    else (t.invalidate part q x first count).fetchMore part q 5))

/-! ### Push windows (R144 to R147) -/

/-- The queue that a window is bound to. -/
def Partition.windowQueue (p : Partition) (w : Nat) : Option (Nat × Queue) := p.queues.find? (fun q => q.2.cfg.window == some w)

/-- The entry that a header word completes: slot j lies at window position (tail + j) mod 16. -/
def Partition.pushed (p : Partition) (w : Nat) (q : Queue) (data : Word) : Bytes :=
  let i := q.tail % q.sqN
  let n := data.toNat / 256 % 16 + 1
  let body := (List.range n).flatMap (fun j => Mem.bytes p.windows (512 * w + 32 * ((i + j) % 16)) 32)
  leBytes 4 data.toNat ++ body.drop 4

/-- The window positions of a taken entry are zeroed. -/
def Partition.zeroWindow (p : Partition) (w i n : Nat) : Partition :=
  { p with windows := (List.range n).foldl (fun m j => Mem.setBytes m (512 * w + 32 * ((i + j) % 16)) (zeros 32)) p.windows }

/-- Why a take is refused; the answer says whether PUSH_REJ sets (R146). -/
def State.pushRefused (s : State) (p : Partition) (q : Queue) (steps : Nat) : Option Bool :=
  if s.mode.mode = .follower then some false
  else if !q.en || p.reset.isSome || decide (4 ≤ q.pushes) || decide (16 ≤ q.load)
      || decide (q.sqN < occ q.sqN q.tail q.head + steps)
  then some true
  else none

/-- A header word write to a bound window (R145). -/
def State.take (s : State) (part w qn : Nat) (p : Partition) (q : Queue) (data : Word) : State :=
  let e := p.pushed w q data
  let i := q.tail % q.sqN
  let n := eSlots e
  let steps := min n (q.sqN - i)
  let pad := decide (eOpcode e = Opc.pad)
  match s.pushRefused p q steps with
  | some rej => (if rej then s.updQueue part qn (fun y => { y with pushRej := true }) else s).wrote true
  | none =>
    let c : CacheEntry := { v := q.tail, slots := steps, bytes := e, first := n, pushed := true, dropped := false
                            drained := s.mode.mode == .drain && !pad }
    let t := s.updPart part (fun x => x.zeroWindow w i n)
    let t := t.updQueue part qn (fun y => { y with tail := y.adv y.tail steps, fetch := if y.fetch = y.tail then y.adv y.tail steps else y.fetch })
    let t := t.updQueue part qn (fun y => y.insert c)
    (t.updQueue part qn (fun y => y.parseAll s.serving 20)).wrote false

/-- A write to a push window (R75, R144 to R146). -/
def State.pushWrite (s : State) (part w word : Nat) (ben : BitVec 4) (data : Word) : State :=
  if !s.pins.fabClk then s
  else if s.portErr false false (pageAt part (0x2000 + 512 * w + 4 * word)) then s.wrote true
  else
    match s.part part with
    | none => s
    | some p =>
      let head := word % 8 == 0 && fullBen ben
      match p.windowQueue w with
      | none => s.wrote head
      | some (qn, q) =>
        if head && word / 8 == q.tail % q.sqN % 16 then s.take part w qn p q data
        else
          let a := 512 * w + 4 * word
          let old := wordOf (leNat (Mem.bytes p.windows a 4))
          (s.updPart part (fun x => { x with windows := Mem.setBytes x.windows a (leBytes 4 (mergeWord old 0xFFFFFFFF ben data).toNat) })).wrote false

/-- PUSH_WORD_WRITE (R144). -/
def execPushWordWrite (part win word : Nat) (ben : BitVec 4) (data : Word) (s : State) : Result := .next (s.pushWrite part win word ben data)

/-- PUSH_TAKE (R145): a full write of the first word of window position `pos`. -/
def execPushTake (part win pos : Nat) (data : Word) (s : State) : Result := .next (s.pushWrite part win (8 * pos) 0xF#4 data)

/-! ### Admission (R152 to R158) -/

/-- A request made from a queue's entry. -/
def Req.ofEntry (part q : Nat) (cfg : QueueCfg) (c : CacheEntry) (chained credit : Bool) (seq : Nat) : Req :=
  { owner := .queue, part := part, qid := q, tag := eTag c.bytes, opcode := eOpcode c.bytes, entry := c.bytes, irq := eIrq c.bytes
    chained := chained, pushed := c.pushed, urgent := eUrgent c.bytes &&
      cfg.urgEn, cls := cfg.cls, weight := max 1 cfg.qweight, seq := seq, phase := .admitted
    credit := credit, keys := [], attr := none, dslot := none, srcList := [], dstList := [], src := [], recd := [], units := [], segs := [], g0 := 0
    counter := none, inst := 0, drawn := false, iv := [], rand := [], staging := 0, waitSeq := 0, ctxTiles := 0, started := false
    ran := false, clean := false, wrote := 0, tagBytes := [], failed := false, ending := none, quiet := false, status := 0, detail := 0,
      result := 0, expIdx := 0, expSeq := 0, origOp := eOpcode c.bytes
    origTag := eTag c.bytes, fifo := none, tiles := 0, mask := 0, cmd := 0, words := 0, randrep := false, victimOf := none
    shedding := [], acct := none, waitSeqAck := none, waitGraft := none }

/-- The head passes an entry: it leaves the cache. -/
def State.popEntry (s : State) (p q v : Nat) : State :=
  s.updQueue p q (fun y => ({ y with cache := y.cache.filter (fun c => c.v != v) } : Queue).fixHead)

/-- An entry completes without running; it takes a credit when one is free and none is reserved for it (R157, R158, R166). -/
def State.postNow (s : State) (p q : Nat) (c : CacheEntry) (chained reserved : Bool) (st detail : Nat) : State :=
  match s.queue p q with
  | none => s
  | some x =>
    let credit := reserved || decide (0 < x.credits)
    let t := s.popEntry p q c.v
    let t := if credit && !reserved then t.updQueue p q (fun y => { y with reserved := y.reserved + 1 }) else t
    let n := t.nextId
    let t := ({ t with reqs := Store.put t.reqs n (Req.ofEntry p q x.cfg c chained credit n) } : State).bump
    t.reject n st detail

/-- An entry is admitted: its request exists, with a credit reserved (R152, R158). -/
def State.letIn (s : State) (p q : Nat) (x : Queue) (c : CacheEntry) (chained reserved : Bool) : State :=
  let t := s.popEntry p q c.v
  let t := if reserved then t else t.updQueue p q (fun y => { y with reserved := y.reserved + 1 })
  let n := t.nextId
  let r := Req.ofEntry p q x.cfg c chained true n
  let t := ({ t with reqs := Store.put t.reqs n r } : State).bump
  let t := if x.chain.isSome || chained then
      t.updQueue p q (fun y => { y with chain := y.chain.map (fun k => { k with current := some n }) }) else t
  t.rawAdmit n r

/-- The structural check of a cached entry (R157). -/
def entryFault (q : Nat) (x : Queue) (c : CacheEntry) : Option Nat :=
  structural c.bytes (q == 0) (decide (x.sqN < c.v % x.sqN + eSlots c.bytes) && !c.changed) c.changed

/-- The links of a chain that starts at the head of the cache: all of them with true, or the first sixteen with false; none
while links are missing (R154, R155). -/
def chainLinks : Nat → List CacheEntry → Option (List CacheEntry × Bool)
  | 0, _ => some ([], false)
  | _, [] => none
  | fuel + 1, c :: cs =>
    if c.dropped || c.drained then none
    else if !(eChain c.bytes) then some ([c], true)
    else (chainLinks fuel cs).map (fun p => (c :: p.1, p.2))

/-- The DETAIL with which each link of a failed chain completes MALFORMED, at its first failing link; the others complete
CHAIN_ABORTED (R155). -/
def chainFault (q : Nat) (x : Queue) (links : List CacheEntry) (closed : Bool) : Option (Nat × Nat) :=
  let faults := links.map (entryFault q x)
  let own := if closed then faults else faults.take 15
  match own.findIdx? (fun f => f.isSome) with
  | some i => some (i, ((faults.getD i none).getD 0))
  | none => if closed then none else some (15, 0x06)

/-- A tile of the entry fails its check as the entry is read for its admission: the entry cache's source reports it (R26). -/
def State.badEntry (s : State) (bad : Option Nat) : State :=
  bad.elim s (fun n => s.send (tileMsg .entryCache 0 n).1 0 (tileMsg .entryCache 0 n).2)

/-- Why an entry ends as it is admitted: TILE_CHECK, or MALFORMED with its DETAIL. -/
def entryEnd (q : Nat) (x : Queue) (c : CacheEntry) (bad : Option Nat) : Option (Nat × Nat) :=
  if bad.isSome then some (St.tileCheck, 0x01) else (entryFault q x c).map (fun d => (St.malformed, d))

/-- The link at which a chain ends as it is admitted, with that link's status and DETAIL. -/
def chainEnd (q : Nat) (x : Queue) (links : List CacheEntry) (closed : Bool) (bad : Option Nat) : Option (Nat × Nat × Nat) :=
  if bad.isSome then some (0, St.tileCheck, 0x01) else (chainFault q x links closed).map (fun f => (f.1, St.malformed, f.2))

/-- A chain at the head of the queue: its links fail together, or are reserved credits and the first is admitted. The 16th link of an
over-long run, itself with CHAIN set, is posted with CHAINED set (log entry 27). -/
def State.admitChain (s : State) (p q : Nat) (x : Queue) (bad : Option Nat) : State :=
  match chainLinks 16 x.ready with
  | none => s
  | some (links, closed) =>
    if x.credits < links.length then s
    else
      match chainEnd q x links closed bad with
      | some (i, st, d) =>
        (links.zipIdx).foldl (fun t c =>
          t.postNow p q c.1 (decide (c.2 + 1 < links.length) || eChain c.1.bytes) false
            (if c.2 = i then st else St.chainAborted) (if c.2 = i then d else 0)) (s.badEntry bad)
      | none =>
        match links with
        | [] => s
        | c :: _ =>
          if s.fifoWait p c.bytes then s
          else
            let t := s.updQueue p q (fun y => { y with reserved := y.reserved + links.length, chain := some ⟨links.length - 1, none, false⟩ })
            t.letIn p q x c true true

/-- A remaining link ends without running, and the chain has failed (R156). -/
def State.failLink (s : State) (p q : Nat) (k : ChainRun) (c : CacheEntry) (st detail : Nat) : State :=
  (s.updQueue p q (fun y => { y with chain := if k.left ≤ 1 then none else some { k with left := k.left - 1, failed := true } })).postNow
    p q c (eChain c.bytes) true st detail

/-- The next link of a chain under way (R156). One that INVAL had refetched is checked again (R151, R157). -/
def State.admitLink (s : State) (p q : Nat) (x : Queue) (k : ChainRun) (c : CacheEntry) (bad : Option Nat) : State :=
  if k.failed then s.failLink p q k c St.chainAborted 0
  else
    match entryEnd q x c bad with
    | some (st, d) => (s.badEntry bad).failLink p q k c st d
    | none =>
      if s.fifoWait p c.bytes then s
      else (s.updQueue p q (fun y => { y with chain := some { k with left := k.left - 1 } })).letIn p q x c (eChain c.bytes) true

/-- A FENCE of the queue has been admitted and has not completed (R153). -/
def State.fenced (s : State) (p q : Nat) : Bool :=
  (s.queueReqs p q).any (fun r => r.2.opcode == Opc.fence && r.2.phase == .admitted)

/-- The queue's entries may be admitted now: it is served, or it drains what it held until the drain limit (R98, R102, R166, R169). -/
def State.admitting (s : State) (x : Queue) (c : CacheEntry) : Bool :=
  (s.serving && x.en) || (s.mode.mode == .drain && x.en && !c.drained && !s.mode.drainForced) || (s.sealing && x.chain.isSome)

/-- A push of DRAIN, discarded, is completed once the queue is served, wherever it stands; it is no link of a chain around it (R100; log
entry 28). -/
def Queue.drainedPush (q : Queue) (served : Bool) : Option CacheEntry :=
  if served then q.ready.find? (fun c => c.drained) else none

/-- One admission. -/
def State.admitNext (s : State) (p q : Nat) (bad : Option Nat) : State :=
  match s.queue p q with
  | none => s
  | some x =>
    if x.dying || (s.part p).elim true (fun y => y.reset.isSome) then s
    else
      match x.drainedPush (s.serving && x.en), x.ready with
      | some c, _ => s.postNow p q c false false St.queueDrained 0
      | none, [] => s
      | none, c :: _ =>
        if c.dropped || s.fenced p q || (q == 0 && !(s.queueReqs p 0).isEmpty) || !(s.admitting x c) then s
        else
          match x.chain with
          | some k => if k.current.isSome then s else s.admitLink p q x k c bad
          | none =>
            if eChain c.bytes then s.admitChain p q x bad
            else
              match entryEnd q x c bad with
              | some (st, d) => if 0 < x.credits then (s.badEntry bad).postNow p q c false false st d else s
              | none => if 0 < x.credits ∧ !(s.fifoWait p c.bytes) then s.letIn p q x c false false else s

/-- ADMIT_ENTRY (R152), with a tile of the entry whose check fails as it is read, if one does (R26). -/
def execAdmitEntry (part : Nat) (q : HeadRead) (s : State) : Result :=
  .next ((s.admitNext part q.queue q.badTile).refill part q.queue)

/-- FENCE (R153): it completes once every earlier entry of its queue has completed. -/
def execFence (rid : Nat) (s : State) : Result :=
  .next (match s.fresh rid (fun r => r.opcode == Opc.fence) with
    | none => s
    | some r =>
      if (s.queueReqs r.part r.qid).any (fun o => decide (o.2.seq < r.seq) && o.2.phase != .exported) then s
      else s.complete rid St.success 0 0)

/-! ### Q_CTL (R164, R166) -/

/-- EN goes from 1 to 0: cached entries ahead of the first slot not fetched complete with QUEUE_DRAINED, the links of a chain
already begun apart; later slots stay posted (R166). A remaining link that INVAL dropped stays with its chain and is read again (R156). -/
def State.disable (s : State) (p q : Nat) : State :=
  match s.queue p q with
  | none => s
  | some x =>
    let rest := x.ready.drop x.linksLeft.length
    let stop := (rest.find? (fun c => c.dropped)).elim x.parse (·.v)
    let gone := rest.filter (fun c => decide (x.dist c.v < x.dist stop))
    let t := s.updQueue p q (fun y =>
      { y with en := false, fetch := stop, parse := stop, slots := y.slots.filter (fun z => decide (y.dist z.1 < y.dist stop))
               cache := y.cache.filter (fun c => c.pushed || decide (y.dist c.v < y.dist stop)) })
    let t := t.cutReads p q x stop
    gone.foldl (fun t c => t.postNow p q c (eChain c.bytes) false St.queueDrained 0) t

/-- A write of Q_CTL's EN and CIE. -/
def State.setQctl (s : State) (p q : Nat) (en cie : Bool) : State :=
  match s.queue p q with
  | none => s
  | some x =>
    let t := s.updQueue p q (fun y => { y with cie := cie })
    if en && !x.en then
      if x.fetchErr || x.cmplErr then t else (t.updQueue p q (fun y => { y with en := true })).refill p q
    else if !en && x.en then t.disable p q
    else t

/-- The admin ring registers (R184) as queue 0's configuration; a size outside 6 to 16 keeps the former one. -/
def Partition.adminCfg (p : Partition) (c : QueueCfg) : QueueCfg :=
  let sq := p.reg 0x30 % 32
  let cq := p.reg 0x30 / 256 % 32
  { c with sqLog2 := if 6 ≤ sq ∧ sq ≤ 16 then sq else c.sqLog2, cqLog2 := if 6 ≤ cq ∧ cq ≤ 16 then cq else c.cqLog2
           sqBase := p.reg 0x20 + 2 ^ 32 * p.reg 0x24, cqBase := p.reg 0x28 + 2 ^ 32 * p.reg 0x2C }

/-- Sizes and base alignments of R129. -/
def ringsOk (sq cq sqBase cqBase : Nat) : Bool :=
  decide (6 ≤ sq ∧ sq ≤ 16) && decide (6 ≤ cq ∧ cq ≤ 16) && sqBase % min 4096 (32 * 2 ^ sq) == 0
    && cqBase % min 4096 (16 * 2 ^ cq) == 0

/-- The admin rings may be enabled (R185). -/
def Partition.adminOk (p : Partition) : Bool :=
  ringsOk (p.reg 0x30 % 32) (p.reg 0x30 / 256 % 32) (p.reg 0x20 + 2 ^ 32 * p.reg 0x24) (p.reg 0x28 + 2 ^ 32 * p.reg 0x2C)

/-- A write of Q_CTL with its EN and CIE; on queue 0 an EN that R185 refuses is ignored. -/
def State.qctl (s : State) (part q : Nat) (en cie : Bool) : State :=
  match s.queue part q, s.part part with
  | some x, some p =>
    if q = 0 ∧ en ∧ !x.en ∧ !p.adminOk then
      (s.updPart part (fun y => { y with admCfgErr := true })).setQctl part q false cie
    else s.setQctl part q (if q ≠ 0 ∧ en ∧ p.reset.isSome then x.en else en) cie
  | _, _ => s

/-- Q_CTL_WRITE (R164, R185). -/
def execQCtlWrite (part q : Nat) (ben : BitVec 4) (data : Word) (s : State) : Result :=
  .next (s.queueWrite part q (0x100 + 8 * q) ben false (fun t _ =>
    if ben.getLsbD 0 then t.qctl part q (data.getLsbD 0) (data.getLsbD 1) else t))

end Sys2Proof.Machine
end

