-- ==== Sys2Proof/Machine/Governor.lean ====
section
/-! DEFINITION. The scheduler's and the power governor's commands: PLACE_REQUEST, URGENT_WINDOW_EXPIRY, STAGING_RESERVED,
REQUEST_UNIT_DONE, GRANT_ISSUE, GRANT_TIMEOUT_EXPIRY, IDLE_GATE_EXPIRY, UNIT_WAKE_READY, GOV_BUDGET_WRITE, PWR_GNT_RISE,
PWR_GNT_FALL, PWR_NEG_TIMEOUT and PWR_HOLD_EXPIRY (spec/01 R30, spec/02 R84, spec/03 R115 to R122, spec/05 R200 to R202,
spec/06 R226). -/

namespace Sys2Proof.Machine

/-! ### The scheduler -/

/-- PLACE_REQUEST (R200). -/
def execPlaceRequest (kind : UnitKind) (s : State) : Result := .next (s.place kind)

/-- URGENT_WINDOW_EXPIRY (R202): the window's quota is back. -/
def execUrgentWindowExpiry (part : Nat) (s : State) : Result :=
  .next (s.updPart part (fun p => { p with urgLeft := p.assign.urgQuota }))

/-- STAGING_RESERVED (R226): the first request that fits takes its tiles and goes on to its grant. -/
def execStagingReserved (s : State) : Result :=
  .next (match s.stagingPick with
    | some (rid, r) => (s.updReq rid (fun x => { x with staging := r.stagingNeed })).toPlace rid
    | none => s)

/-- REQUEST_UNIT_DONE (R30): `cycles` are those for which the request held its units since they took it; `bad` is what they report
besides the end, a tile whose check failed (R26) or a failed result check (R359). -/
def execRequestUnitDone (rid cycles : Nat) (bad : Option UnitFault) (s : State) : Result :=
  .next ((s.unitDone rid cycles bad).serveFrames)

/-! ### Grants -/

/-- GRANT_ISSUE (R117 to R119). -/
def execGrantIssue (s : State) : Result := .next (if s.mode.safe then s else s.serveGrant)

/-- A grant that does not time out (R120). -/
def Grant.endless (g : Grant) : Bool :=
  match g.what with
  | .req _ | .bind _ => false
  | _ => true

/-- GOV_STAT.TIMEOUT sets. -/
def State.grantTmo (s : State) : State := { s with gov := { s.gov with timeout := true } }

/-- GRANT_TIMEOUT_EXPIRY (R120). -/
def execGrantTimeoutExpiry (gid : Nat) (s : State) : Result :=
  .next (match s.gov.grants.find? (fun g => g.gid == gid) with
    | none => s
    | some g =>
      if s.aon 0x204 % 0x400 = 0 ∨ g.endless then s
      else
        match g.what with
        | .req rid => s.grantTmo.endReq rid St.grantTimeout 0
        | .bind rid => (s.grantTmo.dropBind rid).reject rid St.grantTimeout 0
        | _ => s)

/-- IDLE_GATE_EXPIRY (R118): IDLE_US 0 gates on demand only. -/
def execIdleGateExpiry (unit : Nat) (s : State) : Result :=
  .next (
    if bitsAt (s.aon 0x204) 16 8 ≠ 0 ∧ (s.unit unit).power = .awake ∧ (s.unit unit).work = .idle ∧ (kindOf unit).isSome
    then s.updUnit unit UnitSt.gate else s)

/-- A woken digest lane goes to the oldest waiting frame of the stream that asked for it, or stays idle. -/
def State.laneWoken (s : State) (u k : Nat) : State :=
  match oldestFrame (s.frameWaits.filter (fun p => p.1 == k)) with
  | some (_, f) => (s.laneToFrame u k f.seq).serveFrames
  | none => (s.freeUnit u).serveFrames

/-- A unit is ready: the work that waits for it proceeds. -/
def State.unitReady (s : State) (u : Nat) : State :=
  let t := s.updUnit u (fun x => { x with power := .awake })
  match (s.unit u).work with
  | .idle => ((t.updUnit u (fun x => { x with idleSince := s.nextId })).bump).serveFrames
  | .req rid =>
    if (t.req rid).elim false (fun r => r.phase == .waking && r.units.all (fun x => (t.unit x).power == .awake))
    then t.dispatch rid else t
  | .frame k => t.laneWoken u k
  | _ => t

/-- A grove's lanes wake in ascending order: no lower one still wakes (R116, R239). -/
def State.nextToWake (s : State) (u : Nat) : Bool :=
  match (s.unit u).work with
  | .req rid => (s.req rid).elim true (fun r => r.units.all (fun x => decide (u ≤ x) || (s.unit x).power != .waking))
  | _ => true

/-- UNIT_WAKE_READY (R116). -/
def execUnitWakeReady (unit : Nat) (s : State) : Result :=
  .next (if (s.unit unit).power = .waking ∧ s.nextToWake unit then s.unitReady unit else s)

/-! ### Budget and negotiation -/

/-- A value written to GOV_BUDGET.MW (R122). -/
def State.setBudget (s : State) (mw : Nat) : State :=
  if mw < 1000 ∨ mw < 400 + s.shares then { s with gov := { s.gov with budgetRej := true } }
  else
    let t := s.setAon 0x200 (wordOf (min mw 20000))
    (t.gateFor t.effBudget [] 48).negotiate

/-- GOV_BUDGET_WRITE (R122). -/
def execGovBudgetWrite (priv : Bool) (ben : BitVec 4) (data : Word) (s : State) : Result :=
  .next (s.portWrite priv 0x200 ben false (fun t =>
    t.setBudget (mergeWord (wordOf (t.aon 0x200)) 0xFFFF ben data).toNat))

/-- PWR_REQ falls and the effective budget returns to GOV_BUDGET.MW (R121). -/
def State.lowerReq (s : State) : State :=
  { s with pins := { s.pins with pwrReq := false }, gov := { s.gov with high := false, granted := s.gov.granted && s.pins.pwrGnt } }

/-- Some waiting grant needs the higher budget (R121). -/
def State.wantsHigh (s : State) : Bool :=
  s.gov.grants.any (fun g => (s.refit g).elim false (fun h => s.grantOk s.highMw h && !(s.grantOk s.budgetMw h)))

/-- PWR_GNT_RISE (R84, R121): out of order it is ignored and reported. -/
def execPwrGntRise (s : State) : Result :=
  let t := { s with pins := { s.pins with pwrGnt := true } }
  .next (
    if !s.pins.aonRel then t
    else if !s.pins.pwrReq ∨ s.gov.granted then t.send 0x68 1 0
    else
      let u := ({ t with gov := { t.gov with high := true, granted := true } } : State)
      if !s.mode.safe ∧ u.wantsHigh then u else u.lowerReq)

/-- PWR_GNT_FALL (R84): the handshake is complete. -/
def execPwrGntFall (s : State) : Result :=
  let t := { s with pins := { s.pins with pwrGnt := false } }
  .next (
    if !s.pins.aonRel then t
    else if s.pins.pwrReq ∨ !s.gov.granted then t.send 0x68 1 0
    else ({ t with gov := { t.gov with granted := false } } : State).negotiate)

/-- PWR_NEG_TIMEOUT (R121). -/
def execPwrNegTimeout (s : State) : Result :=
  .next (
    if s.pins.pwrReq ∧ !s.gov.granted then ({ s with gov := { s.gov with negTmo := true } } : State).send 0x68 2 0 else s)

/-- PWR_HOLD_EXPIRY (R121). -/
def execPwrHoldExpiry (s : State) : Result :=
  .next (
    if s.pins.pwrReq ∧ s.gov.granted ∧ s.usedMw ≤ s.budgetMw ∧ s.borrowMw ≤ s.pool s.budgetMw then s.lowerReq else s)

end Sys2Proof.Machine
end

