-- ==== Sys2Proof/Machine/Taps.lean ====
section
/-! DEFINITION. Sap taps and seal streams (spec/10): the meanings of TAP_HEADER_BEAT, TAP_DATA_BEAT, TAP_EOF_BEAT, TAP_ABORT_BEAT,
FRAME_CHAIN_STEP, FRAME_SEAL_TIMEOUT, CHECKPOINT_DUE, CHECKPOINT_DONE, SEAL_DB, TAP_OWN_WRITE, BIND_TAP, UNBIND_TAP, SEAL_CLOSE,
SEAL_TIME_LO_READ and SEAL_TIME_HI_WRITE. -/

namespace Sys2Proof.Machine

/-! ### Beats (R314 to R317) -/

/-- A marker error of a tap (R317). -/
def State.marker (s : State) (tap : Nat) : State := s.send (tapUnit tap) 1 0

/-- The bound stream of a tap and channel. -/
def State.streamAt (s : State) (tap chan : Nat) : Option (Nat × Stream) :=
  s.boundStreams.find? (fun p => p.2.tap == tap && p.2.chan == chan)

/-- A header beat's fields (R315). -/
def hFid (d : Bytes) : Nat := fld d 0 8
def hTime (d : Bytes) : Nat := fld d 8 8
def hLen (d : Bytes) : Nat := fld d 16 4
def hChan (d : Bytes) : Nat := fld d 20 1 % 16

/-- The slots that a frame reserves at its header beat (R329). -/
def Stream.slotsWanted (x : Stream) : Nat := if x.gapOpen then 2 else 1

/-- Why a frame is unsealed at its header beat (R327). -/
def Stream.refuse (x : Stream) : Option Nat :=
  if x.freeSlots < x.slotsWanted then some rRingFull
  else if x.overloaded ∧ x.quota < 2 * x.tilesUsed then some rOverload
  else none

/-- A close at a named frame fixes its close point behind that frame (R321). -/
def Stream.meetFrame (x : Stream) (fid : Nat) : Stream :=
  { x with closing := x.closing.map (fun c => if c.atFrame = some fid then { c with fixed := true } else c) }

/-- A frame joins its stream; `reason` is that of a frame unsealed at once. -/
def State.openFrame (s : State) (k : Nat) (x : Stream) (d : Bytes) (reason : Option Nat) : State :=
  let f : Frame :=
    { seq := s.nextId, interval := false, slots := if reason.isSome then 0 else x.slotsWanted, lostAt := s.time.ns, fid := hFid d
      time := if x.timeSrc then s.time.ns else hTime d, declLen := hLen d, data := [], held := 0, ended := reason.isSome
      reason := reason, lane := none, observed := 0 }
  ((s.updStream k (fun y => { y with frames := y.frames ++ [f] }.meetFrame (hFid d))).bump).foldAll k

/-- What a header beat does to a frame that is still open (R317). -/
def State.cutOpen (s : State) (tap : Nat) : State :=
  match s.openOf tap with
  | none => s
  | some v =>
    if v < 64 then ((s.marker tap).unsealOpen v rMarker).noOpen tap
    else if 128 ≤ v then (s.marker tap).noOpen tap
    else s.noOpen tap

/-- A header beat (R316, R317, R327). -/
def State.headerBeat (s : State) (tap : Nat) (d : Bytes) (eof : Bool) : State :=
  let s := s.cutOpen tap
  let s := (s.streamAt tap (hChan d)).elim s (fun p => s.consume p.1)
  let t := if eof then s.marker tap else s
  match s.streamAt tap (hChan d) with
  | none => if eof then t else t.setOpen tap 64
  | some (k, x) =>
    if x.pastClose ∨ x.wrErr.isSome then
      let t := if x.pastClose then t else t.updStream k (fun y => y.meetFrame (hFid d))
      (if eof then t else t.setOpen tap 64).advanceClose k
    else if eof then (t.openFrame k x d (some rMarker)).afterSeal k
    else
      match x.refuse with
      | some r => ((t.openFrame k x d (some r)).setOpen tap (128 + k)).afterSeal k
      | none => (t.openFrame k x d none).setOpen tap k

/-- Frame bytes reach the open frame of a stream (R316, R326, R327). -/
def State.feed (s : State) (tap k : Nat) (bs : Bytes) (eof : Bool) : State :=
  let s := s.consume k
  match s.stream k, s.lastFrame k with
  | some x, some f =>
    let total := f.data.length + bs.length
    let close := fun (t : State) (v : Nat) => if eof then t.noOpen tap else t.setOpen tap v
    if x.quota ≤ x.tilesUsed then close (s.unsealOpen k rOverload) (192 + k)
    else if (2 ^ 32 - 1 ≤ total ∧ !eof) ∨ 2 ^ 32 ≤ total then close ((s.marker tap).unsealOpen k rMarker) 65
    else
      let g := { f with data := f.data ++ bs, held := f.held + 1, ended := eof }
      let t := s.updStream k (fun y => { y with frames := y.frames.dropLast ++ [g] })
      if eof then t.noOpen tap else t
  | _, _ => s

/-- A data beat; `eof` marks the last one (R316, R317). -/
def State.dataBeat (s : State) (tap : Nat) (bs : Bytes) (eof : Bool) : State :=
  let ended := fun (t : State) => if eof then t.noOpen tap else t
  match s.openOf tap with
  | none => if eof then s.marker tap else s
  | some v =>
    if v < 64 then (s.feed tap v bs eof).afterSeal v
    else if v = 64 then ended s
    else if v = 65 then s
    else if v < 192 then ended (s.observe (v - 128) bs.length)
    else ended s

/-- An ABORT beat (R317). -/
def State.abortBeat (s : State) (tap : Nat) : State :=
  match s.openOf tap with
  | none => s
  | some v => if v < 64 then ((s.unsealOpen v rAbandoned).noOpen tap).afterSeal v else if v = 65 then s else s.noOpen tap

/-- A beat of TAPn with its marker word (R314). -/
def State.tapBeat (s : State) (tap : Nat) (data : BitVec 512) (mrk : BitVec 16) : State :=
  if !s.pins.blkRel ∨ !s.pins.fabClk ∨ !(s.tapActive tap) ∨ mrk.getLsbD 8 then s
  else
    let d := leBytes 64 data.toNat
    let eof := mrk.getLsbD 1
    if mrk.getLsbD 9 then
      let t := s.abortBeat tap
      if mrk.getLsbD 0 then t.headerBeat tap d eof else t
    else if mrk.getLsbD 0 then s.headerBeat tap d eof
    else s.dataBeat tap (if eof then d.take (bitsAt mrk.toNat 2 6 + 1) else d) eof

/-- TAP_HEADER_BEAT (R316). -/
def execTapHeaderBeat (tap : Nat) (data : BitVec 512) (mrk : BitVec 16) (s : State) : Result := .next (s.tapBeat tap data (mrk ||| 0x1#16))

/-- TAP_DATA_BEAT (R316). -/
def execTapDataBeat (tap : Nat) (data : BitVec 512) (mrk : BitVec 16) (s : State) : Result := .next (s.tapBeat tap data (mrk &&& 0xFDFC#16))

/-- TAP_EOF_BEAT (R317). -/
def execTapEofBeat (tap : Nat) (data : BitVec 512) (mrk : BitVec 16) (s : State) : Result := .next (s.tapBeat tap data (mrk ||| 0x2#16))

/-- TAP_ABORT_BEAT (R317). -/
def execTapAbortBeat (tap : Nat) (data : BitVec 512) (mrk : BitVec 16) (s : State) : Result := .next (s.tapBeat tap data (mrk ||| 0x200#16))

/-! ### The chain (R323, R327) -/

/-- The lane holds the seal key for a chain step (R25, R307). -/
def State.sealLane (s : State) (u : Nat) (x : Stream) : State :=
  s.updUnit u (fun y =>
    { y with key := some { slot := x.sealSlot, keyId := x.sealKey, mat := x.sealMat, stale := (s.slot x.sealSlot).keyId != x.sealKey } })

/-- The FRAME record of the head frame, with the GAP record before it. -/
def State.sealFrame (s : State) (k : Nat) (x : Stream) (f : Frame) (u : Nat) : State :=
  let len := f.data.length
  let t := (s.sealLane u x).sealGap k
  let t := t.updStream k (fun y =>
    { y with frames := y.frames.drop 1, sealed := y.sealed + 1, sinceCkpt := y.sinceCkpt + 1, lastFid := f.fid })
  let t := t.sealRecord k 2 (b2n (f.declLen != 0 && f.declLen != len)) f.declLen f.fid f.time len (hash 2 f.data)
  ((t.countG 36 1).freeUnit u).afterSeal k

/-- A tile of the frame failed its check (R326): further beats of a frame still open count as observed. -/
def State.tileLost (s : State) (k : Nat) (x : Stream) (f : Frame) (n : Nat) : State :=
  let t := ((s.send (tapUnit x.tap) 0 n).unseal k f.seq rTile).afterSeal k
  if !f.ended ∧ t.openOf x.tap = some k then t.setOpen x.tap (128 + k) else t

/-- FRAME_CHAIN_STEP (R323); `badTile` is the tile of the frame whose check failed (R326). -/
def execFrameChainStep (stream : Nat) (badTile : Option Nat) (s : State) : Result :=
  .next (match s.stream stream with
    | none => s
    | some x =>
      match x.frames with
      | [] => s
      | f :: _ =>
        if f.reason.isSome then s
        else
          match f.lane, badTile with
          | some _, some n => s.tileLost stream x f n
          | some u, none =>
            if !f.ended then s
            else if x.wrErr.isSome then ((s.updStream stream (fun y => { y with frames := y.frames.drop 1 })).freeUnit u).afterSeal stream
            else s.sealFrame stream x f u
          | none, _ => s)

/-- FRAME_SEAL_TIMEOUT (R327). -/
def execFrameSealTimeout (stream : Nat) (s : State) : Result :=
  .next (match (s.stream stream).bind (·.frames.head?) with
    | some f => if f.ended ∧ f.reason.isNone then (s.unseal stream f.seq rOverload).afterSeal stream else s
    | none => s)

/-! ### Checkpoints (R336, R337) -/

/-- CHECKPOINT_DUE (R336). -/
def execCheckpointDue (stream : Nat) (s : State) : Result :=
  .next (match s.stream stream with
    | none => s
    | some x =>
      if x.bound ∧ x.signs ∧ !x.closeSent ∧ x.wrErr.isNone ∧ ((x.ckptFrames ≠ 0 ∧ x.ckptFrames ≤ x.sinceCkpt) ∨ x.ckptMs ≠ 0)
      then ((s.updStream stream (fun y => { y with ckptDue := true })).startCkpt stream).issueNew s.nextId
      else s)

/-- The CKPT record is written; the job's cluster is free (R331, R332). -/
def State.putCkpt (s : State) (k : Nat) (x : Stream) (c : Covered) (time : Nat) (final : Bool) (u : Nat) (sig : Bytes) : State :=
  let t := (s.freeUnit u).updStream k (fun y =>
    { y with ckptJob := none, ckptUnit := none, finalCkpt := if final then false else y.finalCkpt })
  let t := if x.wrErr.isSome then t
    else t.sealPut k x (sealHead 4 x.phase k (b2n x.signEd) c.rseq c.idf time 0 x.rseq ++ sig)
  (t.startCkpt k).advanceClose k

/-- CHECKPOINT_DONE (R337). A drawn number that gives no signature is drawn again. -/
def execCheckpointDone (stream : Nat) (s : State) : Result :=
  .next (match s.stream stream with
    | none => s
    | some x =>
      match x.ckptJob, x.ckptUnit with
      | some (c, time, final), some u =>
        if (s.unit u).power ≠ .awake ∨ !s.rng.ready then s
        else
          let n := if x.signEd then 0 else 56
          let (bs, t) := s.drbg (n + 32)
          match ckptSign x.signEd x.signMat (bs.take n) (ckptMessage x.takeId c) with
          | some sig => (t.putCkpt stream x c time final u sig).issueNew s.nextId
          | none => t
      | _, _ => s)

/-! ### Registers (R330, R339, R342) -/

/-- SEAL_DB (R330). -/
def execSealDb (part stream : Nat) (ben : BitVec 4) (data : Word) (s : State) : Result :=
  .next (
    let off := pageAt part (0x1000 + 16 * stream)
    match s.streamOf part stream with
    | none => s.portWrite false off ben false (fun t => t)
    | some x => s.portWrite false off ben true (fun t =>
        match dbIndex x.ringSize data with
        | some v =>
          if occ x.ringSize x.tail v ≤ occ x.ringSize x.tail x.head
          then (t.updStream stream (fun y => { y with head := v })).startCkpt stream
          else (t.updStream stream (fun y => { y with dbErr := true })).errEvent part
        | none => (t.updStream stream (fun y => { y with dbErr := true })).errEvent part))

/-- The tap carries a binding, in DORMANT and WAKING by the retained state image (R106). -/
def State.tapBound (s : State) (tap : Nat) : Bool :=
  (s.seals.streams ++ s.retained.elim [] (·.streams)).any (fun p => p.2.bound && p.2.tap == tap)

/-- TAP_OWN_WRITE (R342). -/
def execTapOwnWrite (priv : Bool) (ben : BitVec 4) (tap : Nat) (data : Word) (s : State) : Result :=
  .next (s.portWrite priv (0xA40 + 4 * tap) ben false (fun t =>
    if t.tapBound tap then { t with seals := { t.seals with ownRej := true } }
    else t.rwAon (0xA40 + 4 * tap) ben data))

/-- SEAL_TIME_LO_READ (R339). -/
def execSealTimeLoRead (priv : Bool) (s : State) : Result :=
  .next (
    if !s.pins.fabClk then s
    else if s.portErr priv true 0xA00 then s.readOut 0 true
    else ({ s with time := { s.time with latch := wordOf (s.time.ns / 2 ^ 32) } } : State).readOut (s.time.ns % 2 ^ 32) false)

/-- SEAL_TIME_HI_WRITE (R339): the counter is loaded; a byte not enabled keeps that of the last latched value. -/
def execSealTimeHiWrite (priv : Bool) (ben : BitVec 4) (data : Word) (s : State) : Result :=
  .next (s.portWrite priv 0xA04 ben false (fun t =>
    { t with time := { t.time with
        ns := 2 ^ 32 * (mergeWord t.time.latch 0xFFFFFFFF ben data).toNat + t.time.held.toNat, frac := 0 } }))

/-! ### Binding and closing (R319 to R321) -/

/-- BIND_TAP (R320). -/
def execBindTap (rid : Nat) (s : State) : Result :=
  .next (match s.fresh rid (fun r => r.opcode == Opc.bindTap) with
    | none => s
    | some r =>
      match s.bindChecks r.part r.entry with
      | some (st, d, n) => s.complete rid st d n
      | none =>
        ((s.setPhase rid .waitBind).addGrant (.bind rid) [] (some r.part) (resv s.mode.active .digest) r.cls).issueNew s.nextId)

/-- The entry names a stream that its partition has bound and whose close has not begun (R321). -/
def State.closable (s : State) (r : Req) : Option Nat :=
  let k := fld r.entry 8 1 % 64
  (s.streamOf r.part k).bind (fun x => if x.closing.isNone then some k else none)

/-- An entry that closes a stream. -/
def State.closeBy (s : State) (rid op cause : Nat) : State :=
  match s.fresh rid (fun r => r.opcode == op) with
  | none => s
  | some r =>
    match s.closable r with
    | none => s.reject rid St.malformed 0x0A
    | some k =>
      let at_ := if op = Opc.sealClose ∧ eFlag r.entry 0 then some (fld r.entry 16 8) else none
      (s.setPhase rid .waitClose).beginClose k cause (some rid) at_

/-- UNBIND_TAP (R321). -/
def execUnbindTap (rid : Nat) (s : State) : Result := .next (s.closeBy rid Opc.unbindTap 2)

/-- SEAL_CLOSE (R321). -/
def execSealClose (rid : Nat) (s : State) : Result := .next (s.closeBy rid Opc.sealClose 1)

end Sys2Proof.Machine
end

