-- ==== Sys2Proof/Machine/Admin.lean ====
section
/-! DEFINITION. Partitions and admin queues (spec/05): the meanings of CREATE_QUEUE, DESTROY_QUEUE, DESTROY_QUEUE_IDLE, QUEUE_INFO,
SET_QOS, PARTITION_RESET, PART_RESET_FABRIC_IDLE, PM_CREATE, PM_DESTROY, PM_RESET, and of the vector commands VEC_CTL_WRITE,
VEC_MSET, VEC_MCLR and VECTOR_COAL_EXPIRY. -/

namespace Sys2Proof.Machine

/-! ### Queues -/

/-- A queue as its creation leaves it (R188). -/
def Queue.fresh (cfg : QueueCfg) : Queue :=
  { cfg := cfg, en := false, cie := false, fetchErr := false, cmplErr := false, dbErr := false, invalErr := false, pushRej := false
    inv := 0, head := 0, tail := 0, fetch := 0, cqHead := 0, cqTail := 0, cache := [], slots := [], parse := 0, reserved := 0
    chain := none, dying := false, vt := [] }

/-- The configuration in a CREATE_QUEUE entry (R188). -/
def cqCfg (e : Bytes) : QueueCfg :=
  { sqLog2 := fld e 10 1, cqLog2 := fld e 11 1, cls := fld e 12 1 % 4, urgEn := bitAt (fld e 12 1) 2, vector := fld e 13 1 % 32
    window := if bitAt (fld e 14 1) 7 then some (fld e 14 1 % 16) else none, qweight := fld e 15 1, sqBase := fld e 16 8
    cqBase := fld e 24 8 }

/-- The queue number of an admin entry. -/
def aQid (e : Bytes) : Nat := fld e 8 2

/-- The checks of R188. -/
def Partition.createOk (p : Partition) (e : Bytes) : Bool :=
  let c := cqCfg e
  decide (1 ≤ aQid e ∧ aQid e < p.assign.queues) && (Store.find p.queues (aQid e)).isNone && decide (p.assign.classLimit ≤ c.cls)
    && decide (c.vector < p.assign.vectors) && c.window.elim true (fun w => (p.windowQueue w).isNone) && c.qweight != 0
    && ringsOk c.sqLog2 c.cqLog2 c.sqBase c.cqBase

/-- CREATE_QUEUE (R188). -/
def execCreateQueue (rid : Nat) (s : State) : Result :=
  .next (match s.fresh rid (fun r => r.opcode == Opc.createQueue) with
    | none => s
    | some r =>
      let e := r.entry
      if (s.part r.part).elim false (fun p => p.createOk e) then
        let t := s.updPart r.part (fun p => { p with queues := Store.put p.queues (aQid e) (Queue.fresh (cqCfg e)) })
        ((t.dirty 1).cfgGraft (.queue r.part (aQid e))).complete rid St.success 0 0
      else s.reject rid St.malformed 0x0A)

/-- QID names an I/O queue that exists. -/
def Partition.ioQueue (p : Partition) (q : Nat) : Bool :=
  decide (1 ≤ q ∧ q < p.assign.queues) && (Store.find p.queues q).isSome

/-- Entries in the cache that are discarded count, PADs apart. -/
def Queue.discard (q : Queue) : Queue :=
  { q with cache := [], slots := [], fetch := q.parse, head := q.parse, reserved := q.reserved - q.chain.elim 0 (·.left), chain := none }

/-- A queue's fetches on their way bring nothing more. -/
def State.stopFetch (s : State) (p q : Nat) : State :=
  match s.queue p q with
  | some x => s.cutReads p q x x.head
  | none => s

/-- DESTROY_QUEUE (R189). -/
def execDestroyQueue (rid : Nat) (s : State) : Result :=
  .next (match s.fresh rid (fun r => r.opcode == Opc.destroyQueue) with
    | none => s
    | some r =>
      let q := aQid r.entry
      if !((s.part r.part).elim false (fun p => p.ioQueue q)) then s.reject rid St.malformed 0x0A
      else
        let t := (s.stopFetch r.part q).updQueue r.part q (fun x => { x.discard with en := false, dying := true })
        let t := t.setPhase rid .waitIdle
        if bitAt (fld r.entry 10 1) 0 then
          ((s.queueReqs r.part q).map (·.1)).foldl (fun t i => t.abortReq i St.abortedByHost) t
        else t)

/-- DESTROY_QUEUE_IDLE (R189 step 3). -/
def execDestroyQueueIdle (rid : Nat) (s : State) : Result :=
  .next (match s.req rid with
    | none => s
    | some r =>
      let q := aQid r.entry
      if r.phase = .waitIdle ∧ s.queueIdle r.part q then
        let t := s.updPart r.part (fun p => { p with queues := Store.del p.queues q })
        ((t.dirty 1).cfgGraft (.queue r.part q)).complete rid St.success 0 0
      else s)

/-- RESULT of QUEUE_INFO (R190). -/
def State.queueInfo (s : State) (p q : Nat) (x : Queue) : Nat :=
  let n := ((s.queueReqs p q).filter (fun r => r.2.phase != .completing && r.2.phase != .waitCredit)).length
  x.head % x.sqN + 2 ^ 16 * (x.head / x.sqN % 2) + 2 ^ 17 * (x.tail / x.sqN % 2) + 2 ^ 18 * (x.cqTail / x.cqN % 2)
  + 2 ^ 19 * b2n x.en + 2 ^ 20 * b2n (s.queueIdle p q) + 2 ^ 21 * b2n x.cfg.window.isSome + 2 ^ 22 * x.cfg.cls + 2 ^ 24 * min 255 n
  + 2 ^ 32 * (x.tail % x.sqN) + 2 ^ 48 * (x.cqTail % x.cqN)

/-- QUEUE_INFO (R190). -/
def execQueueInfo (rid : Nat) (s : State) : Result :=
  .next (match s.fresh rid (fun r => r.opcode == Opc.queueInfo) with
    | none => s
    | some r =>
      let q := aQid r.entry
      match s.queue r.part q with
      | some x => s.complete rid St.success 0 (s.queueInfo r.part q x)
      | none => s.reject rid St.malformed 0x0A)

/-- SET_QOS (R191). -/
def execSetQos (rid : Nat) (s : State) : Result :=
  .next (match s.fresh rid (fun r => r.opcode == Opc.setQos) with
    | none => s
    | some r =>
      let c := cqCfg r.entry
      let q := aQid r.entry
      if (s.part r.part).elim false (fun p => p.ioQueue q && decide (p.assign.classLimit ≤ c.cls) && c.qweight != 0) then
        let t := s.updQueue r.part q (fun x => { x with cfg := { x.cfg with cls := c.cls, urgEn := c.urgEn, qweight := c.qweight } })
        ((t.dirty 1).cfgGraft (.queue r.part q)).complete rid St.success 0 0
      else s.reject rid St.malformed 0x0A)

/-! ### Partition reset (R193) -/

/-- Requests that a reset ends: those of the I/O queues, and of queue 0 when the manager resets. A completion already written goes
on. -/
def State.resetReqs (s : State) (p : Nat) (admin : Bool) : List (Nat × Req) :=
  s.reqs.filter (fun r => r.2.owner == .queue && r.2.part == p && (admin || r.2.qid != 0) && r.2.phase != .completing)

/-- Steps 1 to 3. -/
def State.beginReset (s : State) (p : Nat) (kind : ResetKind) (admin : Bool) : State :=
  match s.part p with
  | none => s
  | some x =>
    let ends := s.resetReqs p admin
    let ended := (ends.filter (fun r => r.2.phase != .waitCredit)).length
    let gone := ((x.queues.filter (fun q => admin || q.1 != 0)).map (fun q => (q.2.cache.filter (fun c => !c.isPad)).length)).sum
    let t := x.queues.foldl (fun t q => if admin ∨ q.1 ≠ 0 then t.stopFetch p q.1 else t) s
    let t := t.updPart p (fun y =>
      { y with reset := some ⟨kind, ended, gone, none, none, false⟩
               queues := Store.mapAll y.queues (fun n q => if admin ∨ n ≠ 0 then q.discard else q) })
    ends.foldl (fun t r => t.dropReq r.1) t

/-- No transaction of the partition is outstanding, held ones included (R193 step 4). -/
def State.partFabIdle (s : State) (p : Nat) : Bool := s.fab.all (fun t => t.part != p)

/-- Step 6: every stream of the partition closes. -/
def State.closeStreams (s : State) (p : Nat) : State :=
  (s.seals.streams.filter (fun x => x.2.part == p)).foldl (fun t x =>
    match x.2.closing with
    | none => t.beginClose x.1 3 none none
    | some c => (t.updStream x.1 (fun y => { y with closing := some { c with fixed := true } })).advanceClose x.1) s

/-- Virtual times of a partition that is created or reset (R199). -/
def State.resetV (s : State) (p : Nat) : State :=
  [UnitKind.cipher, .digest, .cluster].foldl (fun t k =>
    t.updPart p (fun x => { x with vt := vtSet x.vt k (vtRaise (vtOf x.vt k) (t.partVts k p 0)) })) s

/-- Queue 0 after a manager's reset. -/
def Queue.home (q : Queue) : Queue := { Queue.fresh q.cfg with cie := q.cie }

/-- Steps 5 and 6. -/
def State.resetClose (s : State) (p : Nat) : State :=
  (s.updPart p (fun x => { x with
    ctxEpoch := x.ctxEpoch + 1, live := [], rf := x.rf.wiped
    reset := x.reset.map (fun (r : PartReset) => { r with closing := true }) })).closeStreams p

/-- Steps 7 and 8. -/
def State.resetTail (s : State) (p : Nat) (admin : Bool) : State :=
  let t := ({ s with units := Store.mapAll s.units (fun _ u => if u.charge = some p then { u with charge := none } else u) } : State).resetV p
  let ios := (t.part p).elim [] (fun x => (x.queues.filter (fun q => q.1 != 0)).map (·.1))
  let t := ios.foldl (fun t q => t.cfgGraft (.queue p q)) t
  let t := t.updPart p (fun x =>
    { x with queues := (x.queues.filter (fun q => q.1 == 0)).map (fun q => (q.1, if admin then q.2.home else q.2))
             vecs := [], urgLeft := x.assign.urgQuota, denied := 0 })
  if ios.isEmpty then t else t.dirty 1

/-- PM_CMD completes (R175). -/
def State.pmDone (s : State) (p : Nat) : State := { s with pm := { s.pm with busy := none, queued := none, done := true, lastPart := p } }

/-- The end of a DESTROY's reset (R179): keys erased, the partition out of the next image. -/
def State.destroyTail (s : State) (p : Nat) (r : PartReset) : State :=
  let gs := ((s.part p).elim [] (·.slotMap)).filter (fun g => (s.slot g).st != .empty)
  let t := gs.foldl (fun t g => t.eraseG g) s
  let t := ({ t with hw := { t.hw with keks := Store.del t.hw.keks p, badKeks := t.hw.badKeks.filter (· != p) } } : State).markStale (4608 + p)
  let t := ((t.dirty 0).dirty 1).cfgGraft (.part p false)
  t.updPart p (fun x => { x with reset := some { r with waitAck := some s.nextSeq, waitGraft := t.lastGraft } })

/-- The image without the partition is acknowledged, and its graft: the partition is gone (R179). -/
def State.destroyDone (s : State) (p : Nat) : State :=
  match (s.part p).bind (·.reset) with
  | some r =>
    if r.waitAck = some 0 ∧ r.waitGraft = none then ({ s with parts := Store.del s.parts p } : State).pmDone p else s
  | none => s

/-- A manager's reset or destruction of a partition starts. -/
def State.pmBegin (s : State) (p : Nat) (kind : ResetKind) : State :=
  ({ s with pm := { s.pm with busy := some p, queued := none } } : State).beginReset p kind true

/-- Once its streams are closed the reset runs to its end. -/
def State.endReset (s : State) (p : Nat) (r : PartReset) : State :=
  match r.kind with
  | .byDriver rid =>
    let t := (s.resetTail p false).updPart p (fun x => { x with reset := none })
    let t := t.complete rid St.success 0 (r.ended % 2 ^ 32 + 2 ^ 32 * min 0xFFFF r.discarded)
    match t.pm.queued with
    | some k => if t.pm.busy = some p then t.pmBegin p k else t
    | none => t
  | .byReset => ((s.resetTail p true).updPart p (fun x => { x with reset := none })).pmDone p
  | .byDestroy => (s.resetTail p true).destroyTail p r

/-- PARTITION_RESET (R192, R193). -/
def execPartitionReset (rid : Nat) (s : State) : Result :=
  .next (match s.fresh rid (fun r => r.opcode == Opc.partitionReset) with
    | none => s
    | some r => (s.setPhase rid .resetting).beginReset r.part (.byDriver rid) false)

/-- A reset whose step 6 has begun goes on once no stream of the partition is left. -/
def State.resetOn (s : State) (p : Nat) : State :=
  match (s.part p).bind (·.reset) with
  | none => s
  | some r =>
    if r.closing ∧ r.waitAck.isNone ∧ s.seals.streams.all (fun x => x.2.part != p) then s.endReset p r else s

/-- PART_RESET_FABRIC_IDLE (R193): every request that the reset ends has ended and step 4 is over; or a close of step 6 is over. -/
def execPartResetFabricIdle (part : Nat) (s : State) : Result :=
  .next (match (s.part part).bind (·.reset) with
    | none => s
    | some r =>
      if r.closing then s.resetOn part
      else if s.partFabIdle part ∧ !(s.dropping part) then (s.resetClose part).resetOn part else s)

/-! ### The manager's commands (R171 to R179) -/

/-- PM_CMD is refused (R177). -/
def State.pmReject (s : State) (reason p : Nat) : State :=
  { s with pm := { s.pm with rej := true, reason := reason, lastPart := p } }

/-- The assignments that a CREATE uses (R174). -/
def State.pmAssign (s : State) : Assign :=
  { queues := s.blk 0x404, slots := s.blk 0x408, ctx := s.blk 0x40C, leases := s.blk 0x410, vectors := s.blk 0x41C
    shareMw := s.blk 0x418, weight := s.blk 0x414 % 256, classLimit := s.blk 0x414 / 256 % 4, urgQuota := bitsAt (s.blk 0x414) 16 8 }

/-- Every field lies in its range (R171). -/
def assignOk (a : Assign) : Bool :=
  decide (1 ≤ a.queues ∧ a.queues ≤ 64) && decide (a.slots ≤ 4096) && decide (a.ctx ≤ 192) && decide (a.leases ≤ 1024)
    && decide (1 ≤ a.vectors ∧ a.vectors ≤ 32) && a.weight != 0

/-- The pools hold the assignment. -/
def State.poolsHold (s : State) (a : Assign) : Bool :=
  decide (s.assigned (·.queues) + a.queues ≤ 1024) && decide (s.assigned (·.slots) + a.slots ≤ 4096)
    && decide (s.assigned (·.ctx) + a.ctx ≤ 192) && decide (s.assigned (·.leases) + a.leases ≤ 1024)
    && decide (s.assigned (·.vectors) + a.vectors ≤ 1024)

/-- The lowest global slots that no partition has (R394). -/
def State.slotsFor (s : State) (n : Nat) : List Nat :=
  let used := s.parts.flatMap (fun p => p.2.slotMap)
  ((List.range 4096).filter (fun g => !(used.contains g))).take n

/-- Queue 0 of a new partition (R185). -/
def queue0 (a : Assign) : Queue :=
  Queue.fresh { sqLog2 := 6, cqLog2 := 6, cls := a.classLimit, urgEn := false, vector := 0, window := none, qweight := 1, sqBase := 0, cqBase := 0 }

/-- A partition as its creation leaves it (R178). -/
def Partition.fresh (a : Assign) (slotMap : List Nat) : Partition :=
  { assign := a, slotMap := slotMap, regs := [], intrErr := false, admCfgErr := false, urgDeny := false, urgLeft := a.urgQuota, denied := 0
    reset := none, queues := [(0, queue0 a)], vecs := [], expFull := false, expFail := false, expCfgErr := false, live := [], expSeq := 1
    ctxEpoch := 0, rf := ResultFifo.empty, windows := [], vt := [] }

/-- The common tests of R177: BUSY first, then the mode. -/
def State.pmBar (s : State) : Option Nat :=
  if s.pm.busy.isSome then some 7 else if !s.serving then some 6 else none

/-- The partition's own PARTITION_RESET is in progress. -/
def State.ownReset (s : State) (p : Nat) : Bool :=
  match (s.part p).bind (·.reset) with
  | some r => (match r.kind with | .byDriver _ => true | _ => false)
  | none => false

/-- A CREATE (R172, R177, R178). -/
def State.pmCreate (s : State) (p : Nat) : State :=
  let a := s.pmAssign
  match s.pmBar with
  | some n => s.pmReject n p
  | none =>
    if s.ownReset p then s.pmReject 8 p
    else if (s.part p).isSome then s.pmReject 1 p
    else if !(assignOk a) then s.pmReject 3 p
    else if !(s.poolsHold a) then s.pmReject 4 p
    else if s.budgetMw < 400 + s.shares + a.shareMw then s.pmReject 5 p
    else
      let t := { s with parts := Store.put s.parts p (Partition.fresh a (s.slotsFor a.slots)) }
      (((t.resetV p).dirty 0).dirty 1).cfgGraft (.part p true) |>.pmDone p

/-- A DESTROY or RESET (R177, R179, R193). -/
def State.pmEnd (s : State) (p : Nat) (kind : ResetKind) : State :=
  match s.pmBar with
  | some n => s.pmReject n p
  | none =>
    if (s.part p).isNone then s.pmReject 2 p
    else if s.ownReset p then { s with pm := { s.pm with busy := some p, queued := some kind } }
    else s.pmBegin p kind

/-- The RW fields of a command register take a write; while BUSY is 1 only those of a mask (IE) do (R551). -/
def State.cmdRw (s : State) (off : Nat) (busy : Bool) (ie : Nat) (ben : BitVec 4) (data : Word) : State :=
  if busy then s.setBlk off (mergeWord (wordOf (s.blk off)) ie ben data) else s.rwBlk off ben data

/-- A write of PM_CMD whose OP starts a command; OP lies in byte 1 (R173). -/
def State.pmWrite (s : State) (priv : Bool) (ben : BitVec 4) (data : Word) (f : State → Nat → State) : State :=
  s.portWrite priv 0x400 ben false (fun t =>
    let t := t.cmdRw 0x400 t.pm.busy.isSome 0x10000 ben data
    if ben.getLsbD 1 then f t (t.blk 0x400 % 64) else t)

/-- PM_CREATE (R178). -/
def execPmCreate (priv : Bool) (ben : BitVec 4) (data : Word) (s : State) : Result := .next (s.pmWrite priv ben data State.pmCreate)

/-- PM_DESTROY (R179). -/
def execPmDestroy (priv : Bool) (ben : BitVec 4) (data : Word) (s : State) : Result :=
  .next (s.pmWrite priv ben data (fun t p => t.pmEnd p .byDestroy))

/-- PM_RESET (R193). -/
def execPmReset (priv : Bool) (ben : BitVec 4) (data : Word) (s : State) : Result :=
  .next (s.pmWrite priv ben data (fun t p => t.pmEnd p .byReset))

/-! ### Vectors (R195, R196, R558) -/

/-- A vector whose MASK is clear and whose PEND is set starts its message. It starts in the command that clears MASK, so MASK is never set
again before the start (log entry 63). -/
def State.unmasked (s : State) (p v : Nat) : State :=
  match s.part p with
  | some x => if !(x.masked v) ∧ (x.vec v).pend then s.startMessage p v else s
  | none => s

/-- The count and the timer of a vector under a new COAL_CNT and COAL_US (R562). -/
def State.recoal (s : State) (p v : Nat) : State :=
  match s.part p with
  | none => s
  | some x =>
    let c := x.vec v
    let ctl := x.vecCtl v
    let t := if bitsAt ctl 8 8 = 0 then s.updPart p (fun y => y.setVec v { c with timer := false }) else s
    if c.count ≠ 0 ∧ max 1 (ctl % 256) ≤ c.count then t.trigger p v else t

/-- VEC_CTL_WRITE (R196). -/
def execVecCtlWrite (part vec : Nat) (ben : BitVec 4) (data : Word) (s : State) : Result :=
  .next (s.portWrite false (pageAt part (0x40C + 16 * vec)) ben false (fun t =>
    if (t.part part).elim true (fun p => decide (p.assign.vectors ≤ vec)) then t
    else ((t.updPart part (fun p => p.rw (0x40C + 16 * vec) ben data)).unmasked part vec).recoal part vec))

/-- The vectors that a VEC_MSET or VEC_MCLR write names, in ascending order. -/
def State.vecsNamed (s : State) (part : Nat) (data : Word) : List Nat :=
  (List.range 32).filter (fun v => data.getLsbD v && decide (v < (s.part part).elim 0 (·.assign.vectors)))

/-- Set or clear the MASK of a vector. -/
def State.setMask (s : State) (part v : Nat) (m : Bool) : State :=
  s.updPart part (fun p => p.rw (0x40C + 16 * v) 0x4#4 (if m then 0x10000 else 0))

/-- VEC_MSET (R558). -/
def execVecMset (part : Nat) (ben : BitVec 4) (data : Word) (s : State) : Result :=
  .next (s.portWrite false (pageAt part 0x38) ben true (fun t =>
    (t.vecsNamed part data).foldl (fun t v => t.setMask part v true) t))

/-- VEC_MCLR (R558). -/
def execVecMclr (part : Nat) (ben : BitVec 4) (data : Word) (s : State) : Result :=
  .next (s.portWrite false (pageAt part 0x3C) ben true (fun t =>
    (t.vecsNamed part data).foldl (fun t v => (t.setMask part v false).unmasked part v) t))

/-- VECTOR_COAL_EXPIRY (R196). -/
def execVectorCoalExpiry (part vec : Nat) (s : State) : Result :=
  .next (match s.part part with
    | none => s
    | some p =>
      if (p.vec vec).timer then
        (s.updPart part (fun x => x.setVec vec { x.vec vec with timer := false })).trigger part vec
      else s)

end Sys2Proof.Machine
end

