-- ==== Sys2Proof/Machine/Persist.lean ====
section
/-! DEFINITION. Persistence images and leases (spec/08 R270 to R287, spec/13 R416 to R431): the meanings of IMAGE_START, PERSIST_ACK,
PERSIST_NAK, PERSIST_ACK_TIMEOUT, PERSIST_RETRY_EXPIRY, BATCH_EXPIRY, PERSIST_CTL_EN_WRITE, PERSIST_PEND_LO_READ, LEASE_LIVE,
LEASE_WAIT_TIMEOUT and LEASE_IDLE_EXPIRY. -/

namespace Sys2Proof.Machine

/-! ### Writing an image -/

/-- The base of a bank (R416). -/
def State.bankBase (s : State) (bank : Bool) : Nat := s.aon 0xD00 + 2 ^ 32 * s.aon 0xD04 + 2 ^ 20 * b2n bank

/-- The sections of R417. -/
def allSections : List Nat := List.range 28

/-- The key that wraps the slot, secret-tile and KEK records of the banks (R400, R419). -/
def State.hwsKey (s : State) : Bytes := s.devKey "HWS" []

/-- A section of an image (R419). -/
def sectionBytes (key : Bytes) (seq sec : Nat) : Bytes := (List.range 0x8000).map (Config.sectionByte key seq sec)

/-- The header of an image (R418). -/
def State.bankHeader (s : State) (seq : Nat) : Bytes :=
  let h := ascii "PLBK" ++ leBytes 2 1 ++ [byteOf 28, 0] ++ leBytes 8 seq ++ leBytes 4 0x00030100 ++ zeros 44
    ++ allSections.flatMap (fun c => hash 1 (sectionBytes s.hwsKey seq c))
  let h := h ++ zeros (960 - h.length)
  h ++ hmac 1 (s.devKey "BNK" []) h ++ zeros 3104

/-- Present the write of a section of the image with sequence number `seq`. -/
def State.writeSection (s : State) (seq : Nat) (bank : Bool) (sec : Nat) : State :=
  let ts := (pieces (s.bankBase bank + 0x1000 + sec * 0x8000) 0x8000).map (fun (p : Nat × Nat × Nat) =>
    ({ port := portOf p.1, isWrite := true, tag := 0, addr := p.1, len := p.2.1, payload := .internal s.hwsKey seq sec p.2.2 p.2.1, cls := 5
       part := 0x40, purpose := .sect seq sec, queue := none, phase := .presented, got := [] } : Txn))
  { s with fab := s.fab ++ ts }

/-- Present the header write (R422). -/
def State.writeHeader (s : State) (seq : Nat) (bank : Bool) : State :=
  s.writes 0x40 5 (s.bankBase bank) (s.bankHeader seq) (.header seq)

/-- The high-water marks of the leases that the image grants, with their grafts (R271, R420). -/
def State.grantLeases (s : State) (seq : Nat) : State :=
  s.ledger.leases.foldl (fun t l =>
    if l.image.isSome then t
    else
      match Store.find t.ledger.accts l.acct with
      | none => t
      | some a =>
        let n := max (acctHwm a t.inst) (l.idx + 1)
        let t := (t.putAcct l.acct (acctSetHwm a t.inst n)).graft (.lease l.acct n)
        let g := if t.pair.ident.paired ∧ t.session then some t.pair.txSeq else none
        { t with ledger := { t.ledger with leases := t.ledger.leases.map (fun (x : Lease) =>
            if x.acct = l.acct ∧ x.idx = l.idx then { x with image := some seq, graft := g } else x) } }) s

/-- Start an image into the bank that does not hold the newest acknowledged one (R272, R420, R421). -/
def State.startImage (s : State) : State :=
  let seq := s.persist.lastSeq + 1
  let t := s.grantLeases seq
  let p := t.persist
  let bank := !p.ackBank
  let dirty := if bank then p.dirtyB else p.dirtyA
  let write := allSections.filter (fun c => (if bank then p.writeB else p.writeA).contains c)
  let out : ImgOut := { seq := seq, bank := bank, dirty := dirty, valid := false, left := 8 * write.length, headerOut := write.isEmpty, accts := [] }
  let t := { t with persist := { p with
    out := some out, lastSeq := seq, change := false, lease := false, batch := false
    dirtyA := if bank then p.dirtyA else [], dirtyB := if bank then [] else p.dirtyB
    writeA := if bank then p.writeA else [], writeB := if bank then [] else p.writeB } }
  if write.isEmpty then t.writeHeader seq bank else write.foldl (fun t c => t.writeSection seq bank c) t

/-- Images are written now: the region is enabled and the mode is SERVICE, MAINTENANCE, DRAIN or FOLLOWER. -/
def State.imaging (s : State) : Bool := bitAt (s.blk 0xD08) 0 && s.running && !s.mode.safe && s.persist.out.isNone

/-- A ZEROISE waits for an image in each bank (R410). -/
def State.zeroising (s : State) : Bool :=
  match s.hw.op with
  | some (.zeroise _ banks _) => banks != [true, true]
  | _ => false

/-- IMAGE_START (R410, R420): for a lease request, for the images of R429 and of a ZEROISE, or for changes whose batching time is
over. -/
def execImageStart (s : State) : Result :=
  .next (
    if s.imaging ∧ !s.ledger.persistDown ∧ (s.persist.lease ∨ 0 < s.persist.boot ∨ s.zeroising ∨ (s.persist.change ∧ s.persist.batch))
    then s.startImage else s)

/-- BATCH_EXPIRY (R420): an outstanding image holds the next one back. -/
def execBatchExpiry (s : State) : Result :=
  .next (
    if !s.persist.change then s
    else if s.imaging ∧ !s.ledger.persistDown then s.startImage
    else { s with persist := { s.persist with batch := true } })

/-- PERSIST_RETRY_EXPIRY (R277). -/
def execPersistRetryExpiry (s : State) : Result :=
  .next (if s.imaging ∧ s.ledger.persistDown then s.startImage else s)

/-! ### Outcomes (R424) -/

/-- Sections of both lists, ascending. -/
def secUnion (a b : List Nat) : List Nat := allSections.filter (fun c => a.contains c || b.contains c)

/-- The outstanding image is lost (R102, R424): its changes are carried again. -/
def State.imageLost (s : State) : State :=
  match s.persist.out with
  | none => s
  | some o =>
    let rise := !s.persist.lost
    let p := s.persist
    let t := { s with persist := { p with
      out := none, lost := true, lostCnt := satAdd 0xFFFF p.lostCnt 1, change := true, pendInfo := p.pendInfo &&& ~~~2#32
      dirtyA := if o.bank then p.dirtyA else secUnion o.dirty p.dirtyA
      dirtyB := if o.bank then secUnion o.dirty p.dirtyB else p.dirtyB } }
    if rise then t.persistRise else t

/-- An image is unacknowledged (R277). -/
def State.imageUnacked (s : State) : State := s.imageLost.persistDown

/-- A write of the image failed (R421): the next one into that bank writes every section. -/
def State.imageFailed (s : State) (seq : Nat) : State :=
  match s.persist.out with
  | some o =>
    if o.seq = seq then
      ({ s with persist := { s.persist with
          writeA := if o.bank then s.persist.writeA else allSections, writeB := if o.bank then allSections else s.persist.writeB } }
        : State).imageUnacked
    else s
  | none => s

/-- A section write is answered; the last one releases the header (R422). -/
def State.sectionWritten (s : State) (seq : Nat) : State :=
  match s.persist.out with
  | some o =>
    if o.seq ≠ seq ∨ o.headerOut then s
    else
      let last := decide (o.left ≤ 1)
      let t := { s with persist := { s.persist with out := some { o with left := o.left - 1, headerOut := last } } }
      if last then t.writeHeader seq o.bank else t
  | none => s

/-- The header write is answered: the image awaits its acknowledgement (R422). -/
def State.headerWritten (s : State) (seq : Nat) : State :=
  match s.persist.out with
  | some o =>
    if o.seq ≠ seq then s
    else
      ({ s with persist := { s.persist with
          out := some { o with valid := true }, pendSeq := seq
          pendInfo := wordOf (b2n o.bank + 2 + 16 * (o.dirty.map (fun c => 2 ^ c)).sum) } } : State).persistRise
  | none => s

/-- Everything that waited for an image and a graft, and waits for neither any more, completes (R404, R410, R425, R447). -/
def State.settleAcks (s : State) : State :=
  let t := (s.reqs.map (·.1)).foldl State.ackDone s
  let t := (t.parts.map (·.1)).foldl State.destroyDone t
  let t : State := match t.hw.op with
    | some (.erase 0 none) => { t with hw := { t.hw with op := none, done := true } }
    | some (.zeroise _ [true, true] none) => { t with hw := { t.hw with op := none, done := true } }
    | _ => t
  let t : State := if t.ledger.purge = some 0 then { t with ledger := { t.ledger with purge := none, purgeDone := true } } else t
  if t.pair.cmdWait = some 0 then
    let rise := !t.pair.cmdDone
    let t := { t with pair := { t.pair with cmdWait := none, cmdDone := true } }
    if rise then t.pairRise else t
  else t

/-- PAIR_STAT.LINK_CHG sets (R439). -/
def State.linkChanged (s : State) : State :=
  if s.pair.linkChg then s else ({ s with pair := { s.pair with linkChg := true } } : State).pairRise

/-- The highest GSEQ that ACK frames carry: every graft applied, up to the oldest whose acknowledgement waits (R443). -/
def State.ackUp (s : State) : State :=
  { s with pair := { s.pair with acksSent := s.pair.owed.foldl (fun n w => min n (w.gseq - 1)) s.pair.rxSeq } }

/-- The link is SYNCED once both SNAP_ENDs are acknowledged (R450 step 6). The changes that waited were in the snapshot, and so were
the high-water marks of leases that wait for no graft of this session. -/
def State.trySync (s : State) : State :=
  if s.pair.link = .resync ∧ s.pair.snapAckRx ∧ s.pair.snapAckTx then
    ({ s with
      pair := { s.pair with link := .synced, backlog := 0, retx := 0 }
      ledger := { s.ledger with solo := false, leases := s.ledger.leases.map (fun (l : Lease) =>
        if l.graft.isNone ∧ l.image.isSome then { l with grafted := true } else l) } } : State).linkChanged
  else s

/-- A wait for the image with sequence number `n` is over once an image at or above it is acknowledged. -/
def ackOpt (seq : Nat) (o : Option Nat) (gone : Option Nat) : Option Nat :=
  match o with
  | some n => if n ≤ seq then gone else o
  | none => none

/-- Clear what waited for an image. -/
def State.clearSeq (s : State) (seq : Nat) (bank : Bool) : State :=
  { s with
    reqs := Store.mapAll s.reqs (fun _ r => { r with waitSeqAck := ackOpt seq r.waitSeqAck none })
    parts := Store.mapAll s.parts (fun _ p => { p with reset := p.reset.map (fun x => { x with waitAck := ackOpt seq x.waitAck (some 0) }) })
    hw := { s.hw with op := match s.hw.op with
      | some (.erase n g) => some (.erase (if n ≤ seq then 0 else n) g)
      | some (.zeroise f bs g) => some (.zeroise f (if f ≤ seq then bs.set (b2n bank) true else bs) g)
      | o => o }
    ledger := { s.ledger with
      purge := ackOpt seq s.ledger.purge (some 0)
      leases := s.ledger.leases.map (fun (l : Lease) => { l with acked := l.acked || l.image.elim false (fun n => decide (n ≤ seq)) }) }
    pair := { s.pair with
      cmdWait := ackOpt seq s.pair.cmdWait (some 0)
      snapAckTx := s.pair.snapAckTx || s.pair.owed.any (fun w => decide (w.seq ≤ seq) && w.snap)
      owed := s.pair.owed.filter (fun w => decide (seq < w.seq)) } }

/-- The outstanding image is acknowledged (R424). -/
def State.imageAcked (s : State) (o : ImgOut) : State :=
  let t := { s with
    persist := { s.persist with out := none, acked := true, ackSeq := o.seq, ackBank := o.bank, boot := s.persist.boot - 1
                                pendInfo := s.persist.pendInfo &&& ~~~2#32 }
    ledger := { s.ledger with persistDown := false } }
  (t.clearSeq o.seq o.bank).settleAcks.tryLeave.ackUp.trySync

/-- An ACK or NAK that names nothing outstanding (R424). -/
def State.late (s : State) : State := { s with persist := { s.persist with late := true } }

/-- The outstanding image that a SEQ[31:0] names while VALID is 1. -/
def State.named (s : State) (data : Word) : Option ImgOut :=
  match s.persist.out with
  | some o => if o.valid ∧ wordOf o.seq = data then some o else none
  | none => none

/-- PERSIST_ACK (R424). -/
def execPersistAck (priv : Bool) (ben : BitVec 4) (data : Word) (s : State) : Result :=
  .next (s.portWrite priv 0xD1C ben true (fun t => (t.named data).elim t.late t.imageAcked))

/-- PERSIST_NAK (R424). -/
def execPersistNak (priv : Bool) (ben : BitVec 4) (data : Word) (s : State) : Result :=
  .next (s.portWrite priv 0xD20 ben true (fun t => (t.named data).elim t.late (fun _ => t.imageUnacked)))

/-- PERSIST_ACK_TIMEOUT (R424). -/
def execPersistAckTimeout (s : State) : Result :=
  .next (match s.persist.out with
    | some o => if o.valid ∧ s.aon 0xD0C % 2 ^ 16 ≠ 0 then s.imageUnacked else s
    | none => s)

/-! ### Registers -/

/-- Phase A2 reads both banks (R109, R426). -/
def State.readBanks (s : State) : State :=
  let t := { s with mode := { s.mode with phase := .a2Read }, persist := { s.persist with regionWait := false } }
  (t.reads 0x40 5 (t.bankBase false) 0xE1000 (fun _ => .bankRead)).reads 0x40 5 (t.bankBase true) 0xE1000 (fun _ => .bankRead)

/-- PERSIST_CTL_EN_WRITE (R426, R430): EN once set stays set. -/
def execPersistCtlEnWrite (priv : Bool) (ben : BitVec 4) (data : Word) (s : State) : Result :=
  .next (s.portWrite priv 0xD08 ben false (fun t =>
    let w := mergeWord (wordOf (t.blk 0xD08)) 3 ben data
    let t := t.setBlk 0xD08 (w ||| (wordOf (t.blk 0xD08) &&& 1))
    if t.mode.phase = .a2Wait ∧ bitAt (t.blk 0xD08) 0 then t.readBanks else t))

/-- PERSIST_PEND_LO_READ (R550): of PERSIST_PEND, or of PERSIST_LAST. -/
def execPersistPendLoRead (priv : Bool) (last : Bool) (s : State) : Result :=
  .next (
    if !s.pins.fabClk then s
    else if s.portErr priv true (if last then 0xD28 else 0xD10) then s.readOut 0 true
    else if last then
      ({ s with persist := { s.persist with lastHi := wordOf (s.persist.ackSeq / 2 ^ 32) } } : State).readOut (s.persist.ackSeq % 2 ^ 32) false
    else
      ({ s with persist := { s.persist with pendHi := wordOf (s.persist.pendSeq / 2 ^ 32) } } : State).readOut (s.persist.pendSeq % 2 ^ 32) false)

/-! ### Leases -/

/-- LEASE_LIVE (R271): the account's leases whose acknowledgements are in become live and serve the waiting requests. -/
def execLeaseLive (acct : Nat) (s : State) : Result :=
  .next (
    if s.ledger.leases.any (fun l => l.acct == acct && s.leaseReady l) then
      let t := { s with ledger := { s.ledger with leases := s.ledger.leases.map (fun (l : Lease) =>
        if l.acct = acct ∧ s.leaseReady l then { l with live := true, used := s.nextId } else l) } }
      t.bump.serveAcct acct
    else s)

/-- LEASE_WAIT_TIMEOUT (R275, R276). -/
def execLeaseWaitTimeout (rid : Nat) (s : State) : Result :=
  .next (match s.req rid with
    | none => s
    | some r =>
      if r.phase = .waitLease ∧ s.aon 0x800 % 0x400 ≠ 0 then s.setLeaseTmo.reject rid St.leaseUnavailable 0x01 else s)

/-- The live lease of an account that has been idle longest. -/
def State.idleLease (s : State) (acct : Nat) : Option Lease :=
  (s.ledger.leases.filter (fun l => l.acct == acct && l.live)).foldl (fun b l => match b with
    | some x => if l.used < x.used then some l else b
    | none => some l) none

/-- LEASE_IDLE_EXPIRY (R274). -/
def execLeaseIdleExpiry (acct : Nat) (s : State) : Result :=
  .next (match s.idleLease acct with
    | some l => if bitsAt (s.aon 0x800) 16 8 ≠ 0 then s.endLease l else s
    | none => s)

end Sys2Proof.Machine
end

