-- ==== Sys2Proof/Machine/Heartwood.lean ====
section
/-! DEFINITION. Heartwood administration (spec/13 R410 to R412, spec/08 R287): the meanings of LOAD_KEK, ERASE_SLOT, ZEROISE_PART,
ZEROISE, HW_CMD_UNDEFINED_OP and LEDGER_PURGE_GO. -/

namespace Sys2Proof.Machine

/-- HW_CMD is refused; an operation under way goes on (R412). -/
def State.hwRefuse (s : State) (reason : Nat) : State := { s with hw := { s.hw with rej := true, reason := reason } }

/-- A MAINTENANCE activity may start (R96, R410). -/
def State.maintaining (s : State) : Bool := s.mode.mode == .maintenance && !s.leaving

/-- A write of HW_CMD whose OP, in byte 0, starts an operation on a partition and local slot (R410, R411, R551). -/
def State.hwWrite (s : State) (priv : Bool) (ben : BitVec 4) (data : Word) (f : State → Nat → Nat → State) : State :=
  s.portWrite priv 0xC00 ben false (fun t =>
    let busy := t.hw.op.isSome
    let t := t.cmdRw 0xC00 busy 0x40000000 ben data
    if !(ben.getLsbD 0) then t
    else if busy then t.hwRefuse 7
    else f t (bitsAt (t.blk 0xC00) 8 6) (bitsAt (t.blk 0xC00) 16 12))

/-- Pleod's own request for a LOAD_KEK: it carries the blob's address (R410, R550). -/
def Req.kek (part addr seq : Nat) : Req :=
  { owner := .kek, part := part, qid := 0, tag := 0, opcode := 0xFF, entry := leBytes 8 addr, irq := false, chained := false
    pushed := false, urgent := false, cls := 0, weight := 1, seq := seq, phase := .waitGrant, credit := false, keys := [], attr := none, dslot := none
    srcList := [], dstList := [], src := [], recd := [], units := [], segs := [], g0 := 0, counter := none, inst := 0, drawn := false, iv := []
    rand := [], staging := 0, waitSeq := 0, ctxTiles := 0, started := false, ran := false, clean := false, wrote := 0, tagBytes := [], failed := false
    ending := none, quiet := false, status := 0
    detail := 0, result := 0, expIdx := 0, expSeq := 0, origOp := 0xFF, origTag := 0, fifo := none, tiles := 0, mask := 0
    cmd := 0, words := 0, randrep := false, victimOf := none, shedding := [], acct := none, waitSeqAck := none, waitGraft := none }

/-- LOAD_KEK starts (R410). -/
def State.kekStart (s : State) (p : Nat) : State :=
  if !s.maintaining then s.hwRefuse 1
  else if (s.part p).isNone then s.hwRefuse 2
  else
    let rid := s.nextId
    let r := Req.kek p (s.blk 0xC04 + 2 ^ 32 * s.blk 0xC08) rid
    let t := ({ s with reqs := Store.put s.reqs rid r, hw := { s.hw with op := some (.loadKek p rid) } } : State).bump
    (t.addGrant (.loadKek rid) [] none 0 0).issueNew t.nextId

/-- LOAD_KEK (R410). -/
def execLoadKek (priv : Bool) (ben : BitVec 4) (data : Word) (s : State) : Result :=
  .next (s.hwWrite priv ben data (fun t p _ => t.kekStart p))

/-- The requests that would install into one of some slots end without installing (R403). -/
def State.eraseTargets (s : State) (gs : List Nat) : State :=
  { s with reqs := Store.mapAll s.reqs (fun _ r => if r.dslot.elim false gs.contains then r.slotErased else r) }

/-- Erase the keys in some global slots. -/
def State.eraseSlots (s : State) (gs : List Nat) : State :=
  (gs.filter (fun g => (s.slot g).st != .empty)).foldl (fun t g => t.eraseG g) (s.eraseTargets gs)

/-- ERASE_SLOT starts; an EMPTY slot needs no image (R404). -/
def State.slotErase (s : State) (p loc : Nat) : State :=
  if !s.maintaining then s.hwRefuse 1
  else if (s.part p).isNone then s.hwRefuse 2
  else if !(s.slotIn p loc) then s.hwRefuse 3
  else
    let g := s.gOf p loc
    if (s.slot g).st = .empty then
      let t := s.eraseTargets [g]
      { t with hw := { t.hw with done := true } }
    else
      let t := (s.eraseSlots [g]).cfgGraft (.erase (.slots [g]))
      { t with hw := { t.hw with op := some (.erase s.nextSeq t.lastGraft) } }

/-- ERASE_SLOT (R410). -/
def execEraseSlot (priv : Bool) (ben : BitVec 4) (data : Word) (s : State) : Result :=
  .next (s.hwWrite priv ben data State.slotErase)

/-- Erase the KEKs of partitions. -/
def State.eraseKeks (s : State) (ps : List Nat) : State :=
  ps.foldl (fun t p =>
    (({ t with hw := { t.hw with keks := Store.del t.hw.keks p, badKeks := t.hw.badKeks.filter (· != p) } } : State).dirty 0).markStale (4608 + p)) s

/-- Every slot and the KEK of a partition are erased. -/
def State.wipePart (s : State) (p : Nat) : State := (s.eraseSlots ((s.part p).elim [] (·.slotMap))).eraseKeks [p]

/-- Every slot, secret tile and KEK is erased. -/
def State.wipeAll (s : State) : State :=
  let t := s.eraseSlots (List.range 4096)
  (t.eraseKeks (t.hw.keks.map (·.1))).dirty 0

/-- ZEROISE_PART (R410). -/
def execZeroisePart (priv : Bool) (ben : BitVec 4) (data : Word) (s : State) : Result :=
  .next (s.hwWrite priv ben data (fun t p _ =>
    if !t.maintaining then t.hwRefuse 1
    else if (t.part p).isNone then t.hwRefuse 2
    else
      let u := (t.wipePart p).cfgGraft (.erase (.part p))
      { u with hw := { u.hw with op := some (.erase t.nextSeq u.lastGraft) } }))

/-- ZEROISE (R410): two images, one in each bank, follow. -/
def execZeroise (priv : Bool) (ben : BitVec 4) (data : Word) (s : State) : Result :=
  .next (s.hwWrite priv ben data (fun t _ _ =>
    if !t.maintaining then t.hwRefuse 1
    else
      let u := t.wipeAll.cfgGraft (.erase .all)
      { u with hw := { u.hw with op := some (.zeroise t.nextSeq [false, false] u.lastGraft) } }))

/-- HW_CMD_UNDEFINED_OP (R410). -/
def execHwCmdUndefinedOp (priv : Bool) (ben : BitVec 4) (data : Word) (s : State) : Result :=
  .next (s.hwWrite priv ben data (fun t _ _ => t.hwRefuse 8))

/-- Remove the accounts that no slot refers to (R287). -/
def State.purgeAccts (s : State) : State :=
  let gone := (s.ledger.accts.filter (fun a => !(s.acctBound a.2))).map (·.1)
  let t := gone.foldl (fun t n => t.acctDirty n) s
  let t := { t with
    ledger := { t.ledger with
      accts := t.ledger.accts.filter (fun a => !(gone.contains a.1)), leases := t.ledger.leases.filter (fun l => !(gone.contains l.acct))
      known := t.ledger.known.filter (fun n => !(gone.contains n)), purge := some s.nextSeq }
    persist := { t.persist with change := true } }
  t.graft (.purge gone)

/-- LEDGER_PURGE_GO (R287): the register's W1C bits take the same write. -/
def execLedgerPurgeGo (priv : Bool) (ben : BitVec 4) (data : Word) (s : State) : Result :=
  .next (s.portWrite priv 0x80C ben true (fun t =>
    let t := (t.cmdRw 0x80C t.ledger.purge.isSome 2 ben data)
    let t := { t with ledger := { t.ledger with
      purgeRej := t.ledger.purgeRej && !(data.getLsbD 29), purgeDone := t.ledger.purgeDone && !(data.getLsbD 30) } }
    if !t.maintaining ∨ t.ledger.purge.isSome then { t with ledger := { t.ledger with purgeRej := true } } else t.purgeAccts))

end Sys2Proof.Machine
end

