-- ==== Sys2Proof/Machine/Modes.lean ====
section
/-! DEFINITION. What several causes share in changing the mode: the link's state, the key alarm, the halt of the core, entry to
QUARANTINE (spec/03 R89, R91, R113, spec/13 R414, spec/14 R439). -/

namespace Sys2Proof.Machine

/-! ### The Ralder link's state (R439) -/

/-- Nothing waits for the peer any more (R447, R448), and the shadow copy is discarded (R450). -/
def State.endSession (s : State) : State :=
  let t := { s with
    reqs := Store.mapAll s.reqs (fun _ r => { r with waitGraft := none })
    parts := Store.mapAll s.parts (fun _ p => { p with reset := p.reset.map (fun (x : PartReset) => { x with waitGraft := none }) })
    hw := { s.hw with op := match s.hw.op with
      | some (.erase n _) => some (.erase n none)
      | some (.zeroise f bs _) => some (.zeroise f bs none)
      | o => o }
    pair := { s.pair with
      backlog := satAdd 0xFFFF s.pair.backlog (s.pair.sent.filter (fun (g : Nat × GraftBody) => !g.2.isSync)).length
      sent := [], owed := [], retx := 0, sk := none, shadow := none, snapAckRx := false, snapAckTx := false, peerPdown := false }
    ledger := { s.ledger with leases := s.ledger.leases.map (fun (l : Lease) => { l with graft := none, grafted := false }) } }
  t.settleAcks.tryLeave

/-- The link has left SYNCED: the fault message, leases alone or, with STRICT_PAIR in a pair, none (R276, R282, R439). -/
def State.unsynced (s : State) : State :=
  let t := { s with
    pair := { s.pair with retrains := satAdd 0xFF s.pair.retrains 1 }
    ledger := { s.ledger with solo := s.ledger.solo || (s.pair.ident.paired && s.ledger.leases.any (fun l => !l.live)) } }
  let t := t.send 0x60 2 0
  if t.pair.ident.paired && t.strictPair then t.barWaiters 0x05 else t

/-- The link enters a state. -/
def State.linkTo (s : State) (l : Link) : State :=
  if s.pair.link = l then s
  else
    let t := ({ s with pair := { s.pair with link := l } } : State).linkChanged
    if s.pair.link = .synced then t.endSession.unsynced
    else if s.pair.link = .resync ∧ l ≠ .synced then t.endSession
    else t

/-- OFF holds while the instance is unpaired, PAIR_CFG.EN is 0, RLK_PHY_RDY is low, in DORMANT and in reset. -/
def State.linkMayRun (s : State) : Bool :=
  s.pair.ident.paired && bitAt (s.aon 0xE00) 0 && s.pins.phyRdy && s.pins.blkRel && s.mode.mode != .dormant && s.mode.mode != .inReset

/-- The receive lanes start again. -/
def State.clearLanes (s : State) : State :=
  { s with pair := { s.pair with rxLanes := List.replicate 4 LinkLane.reset, lanes := 0 } }

/-- The link enters RESET and pulses RLK_PHY_RST (R439). -/
def State.linkReset (s : State) : State :=
  let t := (s.linkTo .reset).clearLanes
  { t with pins := { t.pins with phyRst := true } }

/-- The link follows the conditions of OFF. -/
def State.linkCheck (s : State) : State :=
  if s.linkMayRun then (if s.pair.link = .off then s.linkReset else s)
  else
    let t := (s.linkTo .off).clearLanes
    { t with pins := { t.pins with phyRst := true } }

/-- The link returns to ALIGN. -/
def State.linkAlign (s : State) : State := s.linkTo .align

/-! ### Halting the core (R89, R113, R414) -/

/-- A key alarm erases every key that Pleod holds (R414). -/
def State.keyAlarm (s : State) : State :=
  { s with
    units := Store.mapAll s.units (fun _ u => u.eraseKey)
    hw := { s.hw with slots := [], keks := [], badKeks := [], badSlots := [], dk := none, alarm := true } }

/-- All work stops without a completion: requests, grants, seal streams, live leases, partition resets; fabric commands not yet
transferred are withdrawn (R89, R113, R280). -/
def State.haltCore (s : State) : State :=
  { s with
    reqs := []
    gov := { s.gov with grants := [], high := s.gov.high && s.pins.pwrReq }
    fab := s.fab.filter (fun t => t.phase != .presented)
    units := Store.mapAll s.units (fun _ u => { u with power := .gated, work := .idle, charge := none, save := none, tiles := [], acc := 0,
                                                       roles := [], seqr := [], hash := [] })
    parts := Store.mapAll s.parts (fun _ p => { p with reset := none, live := [] })
    seals := { s.seals with streams := [], opened := [] }
    ledger := { s.ledger with leases := [] }
    mode := { s.mode with phase := .none, safe := true } }

/-- PWR_REQ falls after the current handshake completes (R89). -/
def State.dropReqPin (s : State) : State := if s.gov.granted then s.lowerReq else s

/-- Entry to QUARANTINE (R94, R113): from every mode but in reset, QUARANTINE and test. In DORMANT the core stays isolated and the
link stays OFF. The link of an instance that itself stops goes to ALIGN, as after a fault of R439; the spec names no state for it (log
entry 16). -/
def State.quarantine (s : State) : State :=
  if s.mode.mode = .inReset ∨ s.mode.mode = .quarantine ∨ s.mode.mode = .test then s
  else
    let t := s.haltCore.keyAlarm.dropReqPin.setMode .quarantine
    if s.pair.link = .off then t else t.linkAlign

/-- QUARANTINE for a start that fails in reset or in WAKING; in the test state no transition occurs (R46, R87, R94). -/
def State.failStart (s : State) : State :=
  if s.mode.mode = .inReset ∨ s.mode.mode = .waking then s.haltCore.keyAlarm.dropReqPin.setMode .quarantine else s

end Sys2Proof.Machine
end

