-- ==== Sys2Proof/Machine/RegRead.lean ====
section
/-! DEFINITION. What a read of each register returns (spec/19 R552, spec/20 R555 and the rules they name). The reads with a
side effect are the commands SEAL_TIME_LO_READ, PERSIST_PEND_LO_READ and RF_DATA_READ; here they are values only. -/

namespace Sys2Proof.Machine

/-- A record ring's size from its LOG2 field: 6 to 12, else 6 (R502, R513). -/
def ringN (log2 : Nat) : Nat := if 6 ≤ log2 ∧ log2 ≤ 12 then 2 ^ log2 else 64

/-- FLT_RING and TELEM ring sizes. -/
def State.fltN (s : State) : Nat := ringN (s.blk 0x1C48 % 16)
def State.telN (s : State) : Nat := ringN (s.blk 0x2108 % 16)

/-- The cluster runs a PKA_OP job, which starts once its source is read and its draw made (R354, R376). -/
def State.pkaBusy (s : State) (u : Nat) : Bool :=
  match (s.unit u).work with
  | .req rid => (s.req rid).elim false (fun r => r.origOp == Opc.pkaOp && (r.phase == .ready || (r.phase == .capturing && r.ran)))
  | _ => false

/-- Mailbox registers (R462). -/
def State.mbxVal (s : State) (k r : Nat) : Nat :=
  let m := s.mbx.boxes.getD k Mbox.reset
  if r < 0x40 then leNat (slice m.data r 4)
  else if r = 0x44 then
    b2n m.full + 2 * b2n m.origin + 4 * b2n m.lost + 8 * b2n m.overrun + 0x10 * b2n m.goRej + 0x20 * b2n m.wrRej
    + 0x100 * (if 4 ≤ k then (s.mbx.replies.getD (k - 4) []).length else 0) + 0x10000 * m.lostCnt + 0x1000000 * m.ovrCnt
  else 0

/-- The registers reset by RST_AON_N that hold more than RW fields. -/
def State.aonVal (s : State) (off : Nat) : Nat :=
  match off with
  | 0x0 => 0x00030100
  | 0x4 => 0x06042218
  | 0x10 => s.irqSum
  | 0x20 => s.pinStat
  | 0x24 => maskOf s.pins.tamperLatch + 0x10 * maskOf s.pins.tamperLevel
  | 0x100 => s.mode.target.code + 0x10 * b2n s.mode.chgIe
  | 0x104 => s.modeStat
  | 0x108 => s.mode.point + 0x10 * s.mode.active
  | 0xA00 => s.time.ns % 2 ^ 32
  | 0xA04 => s.time.latch.toNat
  | 0xC0C =>
    (if s.aonOnly then 0 else b2n s.hw.done + 2 * b2n s.hw.rej + 0x10 * s.hw.reason + 0x400 * b2n s.hw.retUsed)
    + 0x100 * b2n s.hw.alarm + 0x200 * b2n s.hw.alarmBoot
  | 0x1400 => s.mbx.dbStat.toNat
  | 0x140C => 0x100 * s.mbx.epoch + 0x10000 * s.mbx.discards
  | 0x1C04 => b2n s.flt.lock
  | 0x1C08 => s.fltStat
  | 0x1C0C => s.flt.lossDrops + 0x10000 * s.flt.lossRing
  | 0x1C18 => maskBy 32 (fun k => (Store.find s.flt.log k).isSome)
  | 0x1C1C => maskBy 32 (fun k => (Store.find s.flt.log (32 + k)).isSome)
  | _ =>
    if 0x1000 ≤ off ∧ off < 0x1400 then s.mbxVal ((off - 0x1000) / 0x80) (off % 0x80)
    else if inRow off 0x1C20 4 8 then s.logWord ((off - 0x1C20) / 4)
    else s.aon off

/-- The registers reset by RST_BLK_N. -/
def State.blkVal (s : State) (off : Nat) : Nat :=
  match off with
  | 0x14 => maskBy 32 (fun k => (s.part k).elim false (·.intrErr))
  | 0x18 => maskBy 32 (fun k => (s.part (32 + k)).elim false (·.intrErr))
  | 0x30 => b2n s.mode.fllLock + 2 * b2n s.bg.calErr + 0x100 * ((s.bg.trim + 256) % 256).toNat + 0x10000 * s.bg.lane100k
  | 0x60 => s.bg.scrubFails + 0x10000 * s.bg.scrubRet
  | 0x64 => s.bg.scrubLast.toNat
  | 0x20C =>
    b2n (!s.gov.grants.isEmpty) + 2 * b2n (s.pins.pwrGnt && s.gov.high) + 4 * b2n s.gov.budgetRej
    + 8 * b2n s.gov.timeout + 0x10 * b2n s.gov.negTmo + 0x100 * min 255 s.gov.grants.length
  | 0x210 => s.usedMw % 0x10000 + 0x10000 * (s.borrowMw % 0x10000)
  | 0x304 => s.groves.length + 0x100 * (s.groves.map (fun g => g.2.units.length)).sum + 0x10000 * s.sheds
  | 0x400 => s.blk off + 0x80000000 * b2n s.pm.busy.isSome
  | 0x420 => b2n s.pm.done + 2 * b2n s.pm.rej + 0x10 * s.pm.reason + 0x100 * s.pm.lastPart
  | 0x424 => (1024 - s.assigned (·.queues)) + 0x10000 * (4096 - s.assigned (·.slots))
  | 0x428 => (192 - s.assigned (·.ctx)) + 0x100 * (1024 - s.assigned (·.leases)) + 0x80000 * (1024 - s.assigned (·.vectors))
  | 0x42C => s.budgetMw - 400 - s.shares
  | 0x430 => maskBy 32 (fun k => (s.part k).isSome)
  | 0x434 => maskBy 32 (fun k => (s.part (32 + k)).isSome)
  | 0x804 =>
    s.blk off + b2n s.ledger.persistDown + 2 * b2n s.ledger.histRdy + 4 * b2n s.ledger.exhaust + 8 * b2n s.ledger.acctFull
    + 0x10 * b2n s.ledger.leaseTmo + 0x20 * b2n s.ledger.solo
    + 0x100 * min 255 (s.reqs.filter (fun r => r.2.phase == .waitLease)).length + 0x10000 * s.ledger.leases.length
  | 0x808 => s.ledger.accts.length + 0x10000 * (s.ledger.accts.filter (fun a => !(s.acctBound a.2))).length
  | 0x80C =>
    s.blk off + 0x20000000 * b2n s.ledger.purgeRej + 0x40000000 * b2n s.ledger.purgeDone
    + 0x80000000 * b2n s.ledger.purge.isSome
  | 0xA08 => maskBy 16 s.tapActive + 0x10000 * b2n s.seals.ownRej
  | 0xA0C => s.bufFree + 0x100 * (64 - s.seals.streams.length)
  | 0xB00 =>
    s.blk off + b2n s.rng.ready + 2 * b2n s.rng.startup + 4 * b2n s.rng.reseeding + 8 * b2n s.rng.rctFail
    + 0x10 * b2n s.rng.aptFail + 0x100 * s.rng.fails
  | 0xB14 => maskBy 8 (fun k => s.pkaBusy (0x30 + k)) + 0x100 * b2n s.bg.pkaCheckFail
  | 0xC00 => s.blk off + 0x80000000 * b2n s.hw.op.isSome
  | 0xC14 => s.slotsHeld + 0x10000 * s.stilesFree
  | 0xD10 => s.persist.pendSeq % 2 ^ 32
  | 0xD14 => s.persist.pendHi.toNat
  | 0xD18 => s.persist.pendInfo.toNat
  | 0xD24 =>
    b2n s.persist.acked + 2 * b2n s.persist.lost + 4 * b2n s.persist.late + 8 * b2n s.persist.selB
    + 0x10 * b2n s.persist.regionWait + 0x10000 * s.persist.lostCnt
  | 0xD28 => s.persist.ackSeq % 2 ^ 32
  | 0xD2C => s.persist.lastHi.toNat
  | 0xE08 => s.blk off + 0x80000000 * b2n s.pair.cmdWait.isSome
  | 0xE0C => s.pair.ident.pairId
  | 0xE10 =>
    b2n s.pair.ident.paired + 2 * s.pair.ident.inst + 4 * b2n s.pair.ident.standby + 8 * b2n s.pair.acctWait
    + 0x10 * s.pair.link.code + 0x80 * b2n s.pair.peerPdown + 0x100 * s.pair.lanes + 0x1000 * s.pair.peerMode
    + 0x10000 * b2n s.pair.dualActive
  | 0xE14 =>
    b2n s.pair.linkChg + 2 * b2n s.pair.peerFault + 4 * b2n s.pair.authErr + 8 * b2n s.pair.idMismatch
    + 0x10 * b2n s.pair.instConflict + 0x20 * b2n s.pair.handover + 0x40 * b2n s.pair.cmdDone
    + 0x80 * b2n s.pair.cmdRej + 0x100 * s.pair.rejReason
  | 0xE18 =>
    min 0xFFFF (s.pair.backlog + (s.pair.sent.filter (fun g => !g.2.isLease && !g.2.isSync)).length)
    + 0x10000 * min 255 (s.pair.sent.filter (fun g => g.2.isLease)).length + 0x1000000 * s.pair.retrains
  | 0xE1C => s.pair.crcErr + 0x10000 * s.pair.retxCnt
  | 0x1C50 => posLap s.fltN s.flt.ringTail
  | 0x1C54 => s.fenceMask (·.fltFence) 0
  | 0x1C58 => s.fenceMask (·.fltFence) 1
  | 0x1C5C => s.fenceMask (·.fltFence) 2
  | 0x2000 => s.blk off + 0x80000000 * b2n s.bg.unitBusy.isSome
  | 0x2004 =>
    b2n s.bg.unitDone + 2 * b2n s.bg.unitRej + 0x10 * s.bg.unitReason + 0x100 * s.bg.unitResult + 0x10000 * s.bg.lastUnit
  | 0x2008 => s.fenceMask (·.testFence) 0
  | 0x200C => s.fenceMask (·.testFence) 1
  | 0x2010 => s.fenceMask (·.testFence) 2
  | 0x2118 => posLap s.telN s.bg.telTail
  | 0x211C => b2n s.bg.telDbErr + 0x100 * s.bg.telLost + 0x10000 * s.bg.telSkip
  | _ =>
    if inRow off 0x50 4 4 then
      let n := (off - 0x50) / 4
      let ts := s.fab.filter (fun t => t.port == n && t.phase != .presented)
      (ts.filter (fun t => !t.isWrite)).length + 0x10000 * (ts.filter (fun t => t.isWrite)).length
      + 0x1000000 * min 255 (ts.filter (fun t => t.phase == .held)).length
    else s.blk off

/-- Queue registers of a partition page; 0 for a queue that does not exist (R168). -/
def State.queueVal (s : State) (p q : Nat) (stat : Bool) : Nat :=
  if stat then s.qStat p q
  else (s.queue p q).elim 0 (fun x => b2n x.en + 2 * b2n x.cie)

/-- The registers of partition p's page (R555). -/
def State.partVal (s : State) (p off : Nat) : Nat :=
  match s.part p with
  | none => 0
  | some x =>
    match off with
    | 0x4 => b2n x.intrErr + 2 * b2n x.reset.isSome + 4 * b2n x.admCfgErr + 8 * b2n x.urgDeny
    | 0x8 =>
      x.assign.queues + 0x100 * x.assign.vectors + 0x4000 * x.assign.classLimit + 0x10000 * x.assign.weight
      + 0x1000000 * x.assign.urgQuota
    | 0xC => x.assign.slots + 0x10000 * x.assign.ctx
    | 0x10 => x.assign.leases + 0x10000 * x.assign.shareMw
    | 0x14 => x.urgLeft + 0x10000 * x.denied
    | 0x18 => maskBy 32 (fun q => (Store.find x.queues q).isSome)
    | 0x1C => maskBy 32 (fun q => (Store.find x.queues (32 + q)).isSome)
    | 0x34 => maskBy 32 (fun v => (Store.find x.vecs v).elim false (·.pend))
    | 0x40 => maskBy 32 (fun q => (Store.find x.queues q).elim false Queue.anyErr)
    | 0x44 => maskBy 32 (fun q => (Store.find x.queues (32 + q)).elim false Queue.anyErr)
    | 0x48 => maskBy 32 (fun k => (s.streamOf p k).elim false (fun t => t.wrErr.isSome || t.dbErr))
    | 0x4C => maskBy 32 (fun k => (s.streamOf p (32 + k)).elim false (fun t => t.wrErr.isSome || t.dbErr))
    | 0x50 => p + 0x100
    | 0x60C =>
      s.ctxTilesOf p + 0x100 * x.live.length + 0x10000 * b2n x.expFull + 0x20000 * b2n x.expFail + 0x40000 * b2n x.expCfgErr
    | 0xC00 => if 0 < x.rf.avail then (RegFile.get x.rf.words 0 (x.rf.rd % 2048)).toNat else 0
    | 0xC08 => x.rf.avail + 0x1000 * b2n x.rf.underrun + 0x2000 * b2n x.rf.tileErr + 0x10000 * x.rf.free
    | 0xC0C => x.rf.rd % 2048 + 0x10000 * (x.rf.mark % 2048)
    | _ =>
      if 0x100 ≤ off ∧ off < 0x300 then s.queueVal p ((off - 0x100) / 8) (off % 8 == 4)
      else if 0x400 ≤ off ∧ off < 0x600 then
        let v := (off - 0x400) / 16
        if x.assign.vectors ≤ v then 0
        else x.reg off + (if off % 16 = 0xC then 0x20000 * b2n ((Store.find x.vecs v).elim false (·.pend)) else 0)
      else if 0x1000 ≤ off ∧ off < 0x1400 then
        match s.streamOf p ((off - 0x1000) / 16) with
        | some t => if off % 16 = 4 then t.stat else if off % 16 = 8 then posLap (2 ^ t.ringLog2) t.tail else 0
        | none => 0
      else x.reg off

/-- The value that a read at an aperture offset returns when it is served; an unassigned offset reads 0 (R16). -/
def State.regVal (s : State) (off : Nat) : Nat :=
  if off < 0x10000 then if isAonReg off then s.aonVal off else s.blkVal off
  else if off < 0x110000 then s.partVal (pageOf off) (pageOff off)
  else 0

/-- A read of the register port: data and REG_ERR (R73, R77). -/
def State.regRead (s : State) (priv : Bool) (off : Nat) : Word × Bool :=
  if s.portErr priv true off then (0, true) else (wordOf (s.regVal off), false)

end Sys2Proof.Machine
end

