-- ==== Sys2Proof/Machine/Faults.lean ====
section
/-! DEFINITION. The fault collector (spec/16): the meanings of FAULT_MESSAGE, WATCHDOG_EXPIRY, FAULT_FORCE, FLT_LOCK_WRITE,
FAULT_LOG_RELEASE, FAULT_RECORD_DUE, FLT_RING_DB and FLT_RING_ENABLE. -/

namespace Sys2Proof.Machine

/-! ### Which reaction a message gets (R481, R483, R486) -/

/-- The source is a cipher lane, digest lane or cluster. -/
def isUnitSrc (src : Nat) : Bool := (kindOf src).isSome

/-- The source is a sap tap. -/
def isTapSrc (src : Nat) : Bool := decide (0x70 ≤ src ∧ src < 0x80)

/-- Phase A1 or A2 runs. -/
def State.inA (s : State) : Bool := s.mode.phase == .a1 || s.mode.phase == .a2Wait || s.mode.phase == .a2Read

/-- A message that ATTEST handles within phase A1 or A2 (R483). -/
def State.handledInA (s : State) (m : FaultMsg) : Bool :=
  (m.src == 0x48 && m.kind == 0) || (m.src == 0x81 && m.kind == 5)
    || (decide (0x40 ≤ m.src ∧ m.src < 0x44) && (m.kind == 1 || m.kind == 2 || m.kind == 4))
    || (m.src == 0x4A && m.kind == 0 && s.mode.warmFail)

/-- The floor of R483, as an action (0 LOG, 1 TRAP, 2 QUARANTINE), and whether it adds the ERR part. -/
def State.floor (s : State) (m : FaultMsg) : Nat × Bool :=
  if m.kind = 0xF then (0, false)
  else if isUnitSrc m.src ∧ (m.kind = 3 ∨ m.kind = 7) ∧ !s.inA then (1, false)
  else if ((m.src = 0x50 ∨ m.src = 0x51) ∧ (m.kind = 3 ∨ m.kind = 7)) ∨ (m.src = 0x58 ∧ m.kind = 7)
      ∨ (0x88 ≤ m.src ∧ m.kind = 6) ∨ (m.src = 0x80 ∧ (m.kind = 1 ∨ (m.kind = 2 ∧ !s.mode.fllLock)))
      ∨ (m.src = 0x48 ∧ (m.kind = 1 ∨ m.kind = 2) ∧ s.mode.mode = .attest)
      ∨ (s.inA ∧ !(s.handledInA m)) then (2, true)
  else (0, false)

/-- FLT_RCTn (R484). -/
def State.rct (s : State) (src : Nat) : Nat := s.aon (0x1800 + 4 * src)

/-- The unit of a source is fenced already (R487). -/
def State.fenced? (s : State) (src : Nat) : Bool :=
  (isUnitSrc src || isTapSrc src) && ((s.unit src).fltFence || (s.unit src).testFence)

/-- The action of a message would leave no unfenced unit of its kind (R486). -/
def State.lastOfKind (s : State) (src : Nat) : Bool :=
  match kindOf src with
  | some k => (unitsOf k).all (fun u => u == src || (s.unit u).fltFence || (s.unit u).testFence)
  | none => false

/-- The action is applied: not in QUARANTINE, reset, test or the forced safe state, A1's own failures apart, and not to a unit that
is fenced already (R487). -/
def State.applies (s : State) (src : Nat) : Bool :=
  s.mode.mode != .quarantine && s.mode.mode != .inReset && s.mode.mode != .test && (!s.mode.safe || s.mode.phase == .a1)
    && !(s.fenced? src)

/-- The determined action (R491): the higher of register and floor, escalated by R486. -/
def State.action (s : State) (m : FaultMsg) : Nat :=
  let a := max (bitsAt (s.rct m.src) 4 2) (s.floor m).1
  if a = 1 ∧ s.applies m.src ∧ s.running ∧ s.lastOfKind m.src then 2 else a

/-! ### The log (R491 to R493) -/

/-- The open entry of a source and kind. -/
def State.openEntry (s : State) (m : FaultMsg) : Option (Nat × LogEntry) :=
  s.flt.log.find? (fun e => e.2.msg.src == m.src && e.2.msg.kind == m.kind && !e.2.closed && !e.2.sat)

/-- The lowest free entry that a message may take (R492). -/
def State.freeEntry (s : State) (fatal : Bool) : Option Nat :=
  (List.range (if fatal then 64 else 56)).find? (fun k => (Store.find s.flt.log k).isNone)

/-- Log a message. -/
def State.logFault (s : State) (m : FaultMsg) (fatal : Bool) : State :=
  let s := { s with flt := { s.flt with lastSrc := m.src, lastKind := m.kind } }
  match s.openEntry m with
  | some (k, e) =>
    let e := { e with count := e.count + 1, last := s.time.ns, fatal := e.fatal || fatal, sat := decide (0xFFFF ≤ e.count + 1) }
    { s with flt := { s.flt with log := Store.put s.flt.log k e } }
  | none =>
    match s.freeEntry fatal with
    | some k =>
      let e : LogEntry := { eid := s.flt.nextEid, msg := m, fatal := fatal, sat := false, count := 1, first := s.time.ns
                            last := s.time.ns, closed := false }
      { s with flt := { s.flt with log := Store.put s.flt.log k e, nextEid := s.flt.nextEid + 1 } }
    | none =>
      { s with flt := { s.flt with drop := true, lossDrops := satAdd 0xFFFF s.flt.lossDrops 1, recDrops := s.flt.recDrops + 1 } }

/-- The output parts of a reaction (R481). -/
def State.outputs (s : State) (bits : Nat) : State :=
  { s with
    flt := { s.flt with new := s.flt.new || bitAt bits 0, errLatch := s.flt.errLatch || bitAt bits 1 }
    pins := { s.pins with nmiPulses := s.pins.nmiPulses + b2n (bitAt bits 2), chipRstReq := s.pins.chipRstReq || bitAt bits 3 } }

/-! ### Trapping a unit (R485) -/

/-- A digest frame loses its lane. -/
def State.laneLost (s : State) (u k : Nat) : State :=
  match s.stream k with
  | none => s
  | some x =>
    let fs := x.frames.filter (fun f => f.lane == some u)
    let t := fs.foldl (fun t f => t.unseal k f.seq rLane) s
    let t := if fs.any (fun f => !f.ended) ∧ t.openOf x.tap = some k then t.setOpen x.tap (128 + k) else t
    t.afterSeal k

/-- A checkpoint job ends without a record (R336). -/
def State.ckptLost (s : State) (k : Nat) : State :=
  ((s.updStream k (fun x => { x with ckptJob := none, ckptUnit := none, finalCkpt := false })).startCkpt k).advanceClose k

/-- A request loses the lane that is trapped; a segment under way there goes to no other. -/
def State.loseLane (s : State) (rid u : Nat) (r : Req) : State :=
  ((s.chargeHeld { r with units := [u] }).freeUnit u).updReq rid (fun x =>
    { x with units := x.units.filter (· != u), shedding := x.shedding.filter (fun p => p.1 != u) })

/-- The work that a trapped unit held is completed. The other lanes of a grove stop at their next suspension point and stay with the
request until it dissolves (R247); one past its last lane cycle goes on. -/
def State.trapWork (s : State) (u : Nat) (w : Work) : State :=
  match w with
  | .req rid =>
    match s.req rid with
    | some r =>
      if r.owner = .kek then
        ((s.freeUnits r.units).updReq rid (fun x => { x with units := [], src := [], phase := .waitGrant })).addGrant (.loadKek rid) [] none 0 0
      else
        let t := s.loseLane rid u r
        if r.past then t else if 2 ≤ r.g0 then t.stopReq rid St.tileCheck 0x03 else t.endReq rid St.tileCheck 0x03
    | none => s
  | .frame k => (s.freeUnit u).laneLost u k
  | .ckpt k => (s.freeUnit u).ckptLost k
  | _ => s.freeUnit u

/-- A context in a trapped digest lane's save area is lost (R313). -/
def State.trapSave (s : State) (o : Option Nat) : State :=
  match o with
  | some rid => s.endReq rid St.tileCheck 0x03
  | none => s

/-- A lane or cluster is trapped. -/
def State.trapUnit (s : State) (u : Nat) : State :=
  let x := s.unit u
  let t := s.updUnit u (fun y => { y.eraseKey with fltFence := true, power := .gated, charge := none, save := none, fencePend := false })
  let t := (t.trapWork u x.work).trapSave x.save
  (t.updUnit u (fun y => { y with power := .gated, charge := none })).serveFrames

/-- A sap tap goes passive and keeps its bindings. -/
def State.trapTap (s : State) (u : Nat) : State :=
  let t := s.updUnit u (fun y => { y with fltFence := true })
  ((t.boundStreams.filter (fun p => tapUnit p.2.tap == u)).map (·.1)).foldl (fun t k => (t.goPassive k false).afterSeal k)
    (t.noOpen (u - 0x70))

/-- Carry out an action. -/
def State.act (s : State) (src a : Nat) : State :=
  if a = 2 then s.quarantine
  else if a = 1 then (if isTapSrc src then s.trapTap src else if isUnitSrc src then s.trapUnit src else s)
  else s

/-- A message reaches the collector (R477, R481 to R493). -/
def State.collect (s : State) (m : FaultMsg) : State :=
  let a := s.action m
  let go := s.applies m.src
  let bits := s.rct m.src % 16 ||| (if (s.floor m).2 then 2 else 0)
  let t := ((s.logFault m (decide (a = 2))).outputs bits).countG 44 1
  if go then t.act m.src a else t

/-- In DORMANT only the always-on sources send (R477). -/
def State.maySend (s : State) (src : Nat) : Bool :=
  s.mode.mode != .dormant || decide (0x88 ≤ src) || src == 0x68

/-- FAULT_MESSAGE (R477, R481): a message that a block sent, or one that a source sends of itself. -/
def execFaultMessage (src kind addr : Nat) (s : State) : Result :=
  let m : FaultMsg := ⟨src, kind, addr⟩
  .next (
    if !s.pins.aonRel ∨ !(sources.contains src) then s
    else if s.flt.inFlight.contains m then ({ s with flt := { s.flt with inFlight := s.flt.inFlight.erase m } } : State).collect m
    else if s.maySend src ∧ s.pins.blkRel then s.collect m
    else s)

/-- WATCHDOG_EXPIRY (R479): of a unit that holds work, or of a management core. -/
def execWatchdogExpiry (src addr : Nat) (s : State) : Result :=
  .next (
    if !s.pins.blkRel ∨ s.mode.mode = .dormant then s
    else if (isUnitSrc src && (s.unit src).work != .idle) || src == 0x50 || src == 0x51 then s.send src 3 addr
    else s)

/-! ### Registers -/

/-- The reaction bits as a write leaves them: ACTION 0b11 becomes 0b10, and 0b01 becomes 0b00 where no unit can be fenced (R484). -/
def rctWord (src : Nat) (w : Word) : Word :=
  let a := bitsAt w.toNat 4 2
  let b := if a = 3 then 2 else if a = 1 ∧ !(isUnitSrc src) ∧ !(isTapSrc src) then 0 else a
  wordOf (w.toNat % 16 + 16 * b)

/-- A write of FLT_RCTn with its FORCE bit as given (R484, R488). -/
def State.rctWrite (s : State) (src : Nat) (ben : BitVec 4) (data : Word) : State :=
  let off := 0x1800 + 4 * src
  if !(sources.contains src) then s
  else
    let t := if s.flt.lock then s else s.setAon off (rctWord src (mergeWord (wordOf (s.aon off)) 0x3F ben data))
    if ben.getLsbD 3 ∧ data.getLsbD 31 then t.send src 0xF 0 else t

/-- FAULT_FORCE (R488). -/
def execFaultForce (priv : Bool) (ben : BitVec 4) (src : Nat) (data : Word) (s : State) : Result :=
  .next (s.portWrite priv (0x1800 + 4 * src) ben false (fun t => t.rctWrite src ben (data ||| 0x80000000#32)))

/-- FLT_LOCK_WRITE (R489): the first write of byte 0 fixes LOCK. -/
def execFltLockWrite (priv : Bool) (ben : BitVec 4) (data : Word) (s : State) : Result :=
  .next (s.portWrite priv 0x1C04 ben false (fun t =>
    if ben.getLsbD 0 ∧ !t.flt.lockFixed then { t with flt := { t.flt with lock := data.getLsbD 0, lockFixed := true } } else t))

/-- FAULT_LOG_RELEASE (R494, R501). -/
def execFaultLogRelease (priv : Bool) (ben : BitVec 4) (_data : Word) (s : State) : Result :=
  .next (s.portWrite priv 0x1C14 ben false (fun t =>
    if ben.getLsbD 0 then { t with flt := { t.flt with log := Store.del t.flt.log (t.aon 0x1C10 % 64) } } else t))

/-! ### The fault ring (R495 to R497) -/

/-- The oldest entry whose record has not been issued. -/
def oldestEntry : List (Nat × LogEntry) → Option (Nat × LogEntry)
  | [] => none
  | e :: es =>
    match oldestEntry es with
    | some f => if e.2.closed then some f else if f.2.eid < e.2.eid then some f else some e
    | none => if e.2.closed then none else some e

/-- FLT_RING_BASE. -/
def State.fltBase (s : State) : Nat := s.blk 0x1C40 + 2 ^ 32 * s.blk 0x1C44

/-- FAULT_RECORD_DUE (R495). -/
def execFaultRecordDue (s : State) : Result :=
  .next (
    let n := s.fltN
    if !(bitAt (s.blk 0x1C48) 8) ∨ !s.running ∨ s.mode.safe ∨ n ≤ occ n s.flt.ringTail s.flt.ringHead then s
    else
      match oldestEntry s.flt.log with
      | none => s
      | some (k, e) =>
        let bs := e.record (decide (s.flt.ringTail / n % 2 = 0)) s.flt.recDrops s.flt.recLost
        let t := { s with flt := { s.flt with
          log := Store.put s.flt.log k { e with closed := true }, ringTail := (s.flt.ringTail + 1) % (2 * n), recDrops := 0, recLost := 0 } }
        t.writes 0x40 7 (s.fltBase + 32 * (s.flt.ringTail % n)) bs (.fltRec e.eid))

/-- The response to a record's write frees its entry (R494, R497). -/
def State.recordWritten (s : State) (eid : Nat) (ok : Bool) : State :=
  let t := { s with flt := { s.flt with log := s.flt.log.filter (fun e => e.2.eid != eid) } }
  if ok then t
  else { t with flt := { t.flt with ringLost := true, lossRing := satAdd 0xFFFF t.flt.lossRing 1, recLost := t.flt.recLost + 1 } }

/-- FLT_RING_DB (R495). -/
def execFltRingDb (priv : Bool) (ben : BitVec 4) (data : Word) (s : State) : Result :=
  .next (s.portWrite priv 0x1C4C ben true (fun t =>
    match dbIndex t.fltN data with
    | some v =>
      if occ t.fltN t.flt.ringTail v ≤ occ t.fltN t.flt.ringTail t.flt.ringHead then { t with flt := { t.flt with ringHead := v } }
      else { t with flt := { t.flt with dbErr := true } }
    | none => { t with flt := { t.flt with dbErr := true } }))

/-- A write of a ring's configuration register: LOG2 is fixed while EN is 1 (R502, R513, R550). -/
def State.ringCfg (s : State) (off : Nat) (ben : BitVec 4) (data : Word) : State :=
  if bitAt (s.blk off) 8 then (s.rwBlk off ben ((data &&& ~~~0xF#32) ||| (wordOf (s.blk off) &&& 0xF))) else s.rwBlk off ben data

/-- A write of FLT_RING_CFG (R502). -/
def State.fltCfg (s : State) (ben : BitVec 4) (data : Word) : State :=
  let t := s.ringCfg 0x1C48 ben data
  if bitAt (t.blk 0x1C48) 8 ∧ !(bitAt (s.blk 0x1C48) 8) then { t with flt := { t.flt with ringTail := 0, ringHead := 0 } } else t

/-- FLT_RING_ENABLE (R502). -/
def execFltRingEnable (priv : Bool) (ben : BitVec 4) (data : Word) (s : State) : Result :=
  .next (s.portWrite priv 0x1C48 ben false (fun t => t.fltCfg ben (data ||| 0x100#32)))

end Sys2Proof.Machine
end

