-- ==== Sys2Proof/Machine/Background.lean ====
section
/-! DEFINITION. Background work and maintenance of units (spec/17): the meanings of SCRUB_TILE, CALIBRATION, TELEMETRY_WINDOW,
TELEM_DB, TELEM_ENABLE, UNIT_FENCE, UNIT_FENCE_EFFECT, UNIT_TEST, UNIT_TEST_DONE and UNIT_UNFENCE. -/

namespace Sys2Proof.Machine

/-! ### Scrubbing (R504 to R507) -/

/-- SCRUB_LAST.STORE (R545). -/
def storeCode : StoreId → Nat
  | .staging => 0 | .sealBuf => 1 | .context => 2 | .operand => 3 | .saveArea => 4 | .entryCache => 5 | .heartwood => 6

/-- The source and ADDR of a scrub failure (R478, R480); the seal buffer's is that of the stream's tap. -/
def State.scrubMsg (s : State) (store : StoreId) (sub tile : Nat) : Nat × Nat :=
  tileMsg store (if store = .sealBuf then (s.stream sub).elim 0 (·.tap) else sub) tile

/-- A failing Heartwood tile makes what it holds unusable (R507); a free secret tile that fails again is retired. -/
def State.scrubHeart (s : State) (tile : Nat) (again : Bool) : State :=
  let bad := fun (st : State) (g : Nat) =>
    ({ st with hw := { st.hw with slots := Store.upd st.hw.slots g (fun x => { x with bad := true }) } } : State)
  if tile < 4096 then bad s tile
  else if tile < 4608 then
    match s.hw.slots.find? (fun p => p.2.tiles.contains (tile - 4096)) with
    | some p => bad s p.1
    | none => if again then s else { s with hw := { s.hw with retiredTiles := addMem s.hw.retiredTiles (tile - 4096) } }
  else if (Store.find s.hw.keks (tile - 4608)).isSome then { s with hw := { s.hw with badKeks := addMem s.hw.badKeks (tile - 4608) } }
  else s

/-- A cached entry whose tile fails is fetched again; a pushed one completes (R505). -/
def State.scrubEntry (s : State) (part q i : Nat) : State :=
  match s.queue part q with
  | none => s
  | some x =>
    match x.cache[i]? with
    | none => s
    | some c =>
      if c.pushed then s.postNow part q c (eChain c.bytes) false St.tileCheck 0x04
      else (s.updQueue part q (fun y => { y with cache := y.cache.map (fun (e : CacheEntry) => if e.v = c.v then { e with dropped := true } else e) })).fetchMore
        part q 5

/-- The holder of a failing tile: a request ends, a frame is unsealed, an entry is fetched again (R505). `sub` names the holder: a
request of the staging buffer or context store, a stream of the seal buffer (log entry 29), a cluster, partition × 64 + queue of the entry cache. -/
def State.scrubHolder (s : State) (store : StoreId) (sub tile : Nat) : State :=
  let fail := fun (rid : Nat) => s.endReq rid St.tileCheck 0x04
  match store with
  | .staging => if (s.req sub).elim false (fun r => decide (0 < r.staging)) then fail sub else s
  | .context => if (s.req sub).elim false (fun r => decide (0 < r.ctxTiles)) then fail sub else s
  | .operand =>
    match (s.unit (0x30 + sub)).work with
    | .req rid => fail rid
    | .ckpt k => (s.freeUnit (0x30 + sub)).ckptLost k
    | _ => s
  | .saveArea => (s.unit (0x20 + tile / 4)).save.elim s fail
  | .sealBuf =>
    match s.stream sub with
    | some x => (tileOwner x.frames (tile % max 1 x.tilesUsed)).elim s (fun f => s.tileLost sub x f tile)
    | none => s
  | .entryCache => s.scrubEntry (sub / 64) (sub % 64) (tile % 16)
  | .heartwood => s

/-- The store is one whose tiles R506 retires here; Heartwood and the entry cache keep theirs. -/
def storeRetires : StoreId → Bool
  | .heartwood | .entryCache => false
  | _ => true

/-- Lanes left without room for a context report it (R506). -/
def State.roomCheck (s : State) (store : StoreId) (tile : Nat) : State :=
  match store with
  | .saveArea => s.send (0x20 + tile / 4) 7 0
  | .context =>
    if 192 - (s.bg.retired.filter (fun r => r.1 == .context)).length < 2 then (unitsOf .cipher).foldl (fun t u => t.send u 7 0) s else s
  | _ => s

/-- A tile is retired unless it is already (R506). -/
def State.retireTile (s : State) (store : StoreId) (sub tile : Nat) : State :=
  let n := if store = .operand then sub else 0
  if s.bg.retired.contains (store, n, tile) then s
  else
    (({ s with bg := { s.bg with retired := s.bg.retired ++ [(store, n, tile)], scrubRet := satAdd 0xFFFF s.bg.scrubRet 1 } } : State)).roomCheck
      store tile

/-- A scrub failure (R505, R545). -/
def State.scrubFailed (s : State) (store : StoreId) (sub tile : Nat) (again : Bool) : State :=
  let last := wordOf (storeCode store + (if store = .operand then 8 * (sub % 8) else 0) + 0x80 + 0x10000 * (tile % 0x10000))
  let t := (({ s with bg := { s.bg with scrubFails := satAdd 0xFFFF s.bg.scrubFails 1, scrubLast := last } } : State)).countG 52 1
  let m := t.scrubMsg store sub tile
  let t := if store = .sealBuf ∧ (t.stream sub).elim false (fun x => decide (0 < x.tilesUsed))
    then t else t.send m.1 0 m.2
  if store = .heartwood then t.scrubHeart tile again
  else
    let u := t.scrubHolder store sub tile
    if !again ∧ storeRetires store then u.retireTile store sub tile else u

/-- The tiles of each store (R504). The entry cache's are those that hold entries, so its scrubber has no position of its own. -/
def scrubSize (store : StoreId) : Nat :=
  match store with
  | .staging | .sealBuf => 65536 | .context => 192 | .operand => 256 | .saveArea => 64 | .entryCache => 0 | .heartwood => 4672

/-- Which scrubber visits a tile of a store: each cluster has its own. -/
def scrubKey (store : StoreId) (sub : Nat) : Nat := 8 * storeCode store + (if store = .operand then sub % 8 else 0)

/-- A tile is the one that its scrubber visits next (R504). -/
def State.scrubTurn (s : State) (store : StoreId) (sub tile : Nat) : Bool :=
  store == .entryCache || tile == (Store.find s.bg.scrubPos (scrubKey store sub)).getD 0

/-- A scrubber goes on to the tile after the one that it visits, and from the last to the first (R504). -/
def State.scrubStep (s : State) (store : StoreId) (sub tile : Nat) : State :=
  if store = .entryCache then s
  else { s with bg := { s.bg with scrubPos := Store.put s.bg.scrubPos (scrubKey store sub) ((tile + 1) % scrubSize store) } }

/-- SCRUB_TILE (R504): `ok` is the check's outcome, `again` that of the second check of a tile rewritten with zeros. A tile out of its
scrubber's turn is not visited. -/
def execScrubTile (store : StoreId) (sub tile : Nat) (ok again : Bool) (s : State) : Result :=
  .next (
    if !s.mode.fllLock ∨ s.mode.mode = .dormant ∨ s.scrubTurn store sub tile = false then s
    else
      let t := (s.scrubStep store sub tile).countG 48 1
      if ok then t else t.scrubFailed store sub tile again)

/-! ### Calibration (R508, R542) -/

/-- CLK_LANE at an operating point, in units of 10 kHz. -/
def pointFreq (p : Nat) : Nat := if p = 2 then 160000 else if p = 1 then 120000 else 80000

/-- CALIBRATION (R508): `count` CLK_LANE cycles passed in 1024 CLK_AON. -/
def execCalibration (count : Nat) (s : State) : Result :=
  .next (
    if !s.mode.fllLock ∨ s.mode.mode = .dormant then s
    else
      let f := count * s.pins.aonFreq
      let goal := 1024 * pointFreq s.mode.active
      let step := if f * 4000 + goal < 4000 * goal then 1 else if 4000 * goal + goal < f * 4000 then -1 else 0
      let off := decide (f * 100 < 99 * goal ∨ 101 * goal < f * 100)
      let t := { s with bg := { s.bg with
        trim := max (-128) (min 127 (s.bg.trim + step)), lane100k := f / 10240 % 0x10000, calErr := s.bg.calErr || off } }
      if off then t.send 0x80 2 0 else t)

/-! ### Telemetry (R510 to R513) -/

/-- A counter of the window. -/
def State.gTel (s : State) (field : Nat) : Nat := (Store.find s.bg.gCount field).getD 0
def State.pTel (s : State) (p field : Nat) : Nat := (Store.find s.bg.pCount (p * 64 + field)).getD 0

/-- A counter saturated at its width, little-endian. -/
def satBytes (n v : Nat) : Bytes := leBytes n (min v (256 ^ n - 1))

/-- The bytes that both record types share. -/
def State.telHead (s : State) (rtype phase third : Nat) : Bytes :=
  [byteOf rtype, byteOf phase, byteOf third, byteOf s.mode.mode.code] ++ satBytes 4 s.bg.wseq ++ leBytes 8 s.time.ns

/-- Telemetry bytes that depend on elapsed cycles (R511). -/
def State.telFree (s : State) (from_ n : Nat) : Bytes := (List.range n).map (fun i => Config.telemByte (from_ + i) s.bg.wseq)

/-- The GLOBAL record (R511). -/
def State.telGlobal (s : State) (phase : Nat) : Bytes :=
  s.telHead 1 phase 0 ++ s.telFree 16 16 ++ satBytes 4 (s.gTel 32) ++ satBytes 4 (s.gTel 36) ++ satBytes 4 (s.gTel 40)
  ++ satBytes 4 (s.gTel 44) ++ satBytes 4 (s.gTel 48) ++ satBytes 2 (s.gTel 52) ++ satBytes 2 s.bg.scrubRet
  ++ leBytes 4 (s.fenceMask (fun u => u.fltFence || u.testFence) 0) ++ satBytes 2 s.bg.recSkip ++ satBytes 2 s.bg.recLost

/-- The PART record (R511). -/
def State.telPart (s : State) (phase p : Nat) : Bytes :=
  s.telHead 2 phase p ++ satBytes 4 (s.pTel p 16 / 64) ++ satBytes 4 (s.pTel p 20 / 64) ++ satBytes 4 (s.pTel p 24)
  ++ satBytes 2 (s.pTel p 28) ++ satBytes 2 (s.pTel p 30) ++ satBytes 4 (s.pTel p 32) ++ s.telFree (100 + p * 4) 4
  ++ satBytes 4 (s.pTel p 40) ++ satBytes 4 (s.pTel p 44) ++ satBytes 4 (s.pTel p 48) ++ zeros 12

/-- The partitions that receive PART records. -/
def State.telParts (s : State) : List Nat :=
  (s.parts.map (·.1)).filter (fun p => bitAt (s.blk (if p < 32 then 0x210C else 0x2110)) (p % 32))

/-- Write one record at the telemetry ring's tail: none names the GLOBAL record. -/
def State.telPut (s : State) (r : Option Nat) : State :=
  let n := s.telN
  let phase := if s.bg.telTail / n % 2 = 0 then 1 else 0
  let bs := match r with
    | none => s.telGlobal phase
    | some p => s.telPart phase p
  let t := { s with bg := { s.bg with telTail := (s.bg.telTail + 1) % (2 * n) } }
  t.writes 0x40 7 (s.blk 0x2100 + 2 ^ 32 * s.blk 0x2104 + 64 * (s.bg.telTail % n)) bs .telem

/-- TELEMETRY_WINDOW (R510, R512). -/
def execTelemetryWindow (s : State) : Result :=
  .next (
    if !(bitAt (s.blk 0x2108) 8) ∨ bitsAt (s.blk 0x2108) 16 8 = 0 ∨ !s.running ∨ s.mode.safe then s
    else
      let n := s.telN
      let all := none :: s.telParts.map some
      let fit := min all.length (n - occ n s.bg.telTail s.bg.telHead)
      let skip := all.length - fit
      let t := (all.take fit).foldl State.telPut s
      { t with bg := { t.bg with
        wseq := (t.bg.wseq + 1) % 2 ^ 32, telSkip := satAdd 0xFFFF t.bg.telSkip skip
        recSkip := (if fit = 0 then t.bg.recSkip else 0) + skip, recLost := if fit = 0 then t.bg.recLost else 0, gCount := [], pCount := [] } })

/-- The response to a telemetry record's write (R512). -/
def State.telWritten (s : State) (ok : Bool) : State :=
  if ok then s else { s with bg := { s.bg with telLost := satAdd 255 s.bg.telLost 1, recLost := s.bg.recLost + 1 } }

/-- TELEM_DB (R510). -/
def execTelemDb (priv : Bool) (ben : BitVec 4) (data : Word) (s : State) : Result :=
  .next (s.portWrite priv 0x2114 ben true (fun t =>
    match dbIndex t.telN data with
    | some v =>
      if occ t.telN t.bg.telTail v ≤ occ t.telN t.bg.telTail t.bg.telHead then { t with bg := { t.bg with telHead := v } }
      else { t with bg := { t.bg with telDbErr := true } }
    | none => { t with bg := { t.bg with telDbErr := true } }))

/-- A write of TELEM_CFG (R513). -/
def State.telCfg (s : State) (ben : BitVec 4) (data : Word) : State :=
  let t := s.ringCfg 0x2108 ben data
  if bitAt (t.blk 0x2108) 8 ∧ !(bitAt (s.blk 0x2108) 8) then { t with bg := { t.bg with telTail := 0, telHead := 0 } } else t

/-- TELEM_ENABLE (R513). -/
def execTelemEnable (priv : Bool) (ben : BitVec 4) (data : Word) (s : State) : Result :=
  .next (s.portWrite priv 0x2108 ben false (fun t => t.telCfg ben (data ||| 0x100#32)))

/-! ### Unit commands (R516 to R519) -/

/-- UNIT_CMD is refused (R518). -/
def State.unitReject (s : State) (reason u : Nat) : State :=
  { s with bg := { s.bg with unitRej := true, unitReason := reason, lastUnit := u } }

/-- An operation of UNIT_CMD completes. -/
def State.unitOpDone (s : State) (u : Nat) : State :=
  { s with bg := { s.bg with unitBusy := none, unitDone := true, lastUnit := u } }

/-- A write of UNIT_CMD whose OP, in byte 1, starts an operation on a unit (R516, R551). -/
def State.unitWrite (s : State) (priv : Bool) (ben : BitVec 4) (data : Word) (f : State → Nat → State) : State :=
  s.portWrite priv 0x2000 ben false (fun t =>
    let busy := t.bg.unitBusy.isSome
    let t := t.cmdRw 0x2000 busy 0x40000000 ben data
    let u := t.blk 0x2000 % 256
    if !(ben.getLsbD 1) then t else if busy then t.unitReject 6 u else f t u)

/-- Refusals 1 to 3 of R518. -/
def State.unitBar (s : State) (u : Nat) : Option Nat :=
  if !s.maintaining then some 1
  else if !(unitNumbers.contains u) then some 2
  else if (s.unit u).fltFence then some 3
  else none

/-- FENCE would leave none of the unit's kind unfenced (R518). -/
def State.fenceEmpties (s : State) (u : Nat) : Bool :=
  match kindOf u with
  | some k => (unitsOf k).all (fun v => v == u || (s.unit v).fltFence || (s.unit v).testFence || (s.unit v).fencePend)
  | none => false

/-- The fence for test takes effect (R517). -/
def State.fenceNow (s : State) (u : Nat) : State :=
  let t := s.updUnit u (fun x => { x with fencePend := false, testFence := true, testFail := false, power := .gated, charge := none })
  let t := if isTapSrc u then
      ((t.boundStreams.filter (fun p => tapUnit p.2.tap == u)).map (·.1)).foldl (fun t k => (t.goPassive k false).afterSeal k)
        (t.noOpen (u - 0x70))
    else t
  t.unitOpDone u

/-- UNIT_FENCE (R517): a tap at once, another unit when its work ends. -/
def execUnitFence (priv : Bool) (ben : BitVec 4) (data : Word) (s : State) : Result :=
  .next (s.unitWrite priv ben data (fun t u =>
    match t.unitBar u with
    | some n => t.unitReject n u
    | none =>
      if t.fenceEmpties u then t.unitReject 4 u
      else if (t.unit u).testFence then t.unitReject 5 u
      else if isTapSrc u then t.fenceNow u
      else
        let t := t.updUnit u (fun x => { x with fencePend := true })
        { t with bg := { t.bg with unitBusy := some (1, u) } }))

/-- UNIT_FENCE_EFFECT (R517). -/
def execUnitFenceEffect (s : State) : Result :=
  .next (match s.bg.unitBusy with
    | some (1, u) => if (s.unit u).work = .idle ∧ (s.unit u).save = none then s.fenceNow u else s
    | _ => s)

/-- UNIT_TEST (R519). -/
def execUnitTest (priv : Bool) (ben : BitVec 4) (data : Word) (s : State) : Result :=
  .next (s.unitWrite priv ben data (fun t u =>
    match t.unitBar u with
    | some n => t.unitReject n u
    | none =>
      if !(t.unit u).testFence then t.unitReject 5 u
      else
        let v := { t with bg := { t.bg with unitBusy := some (2, u), unitResult := 0 } }
        (v.addGrant .unitTest [u] none 0 3).issueNew v.nextId))

/-- UNIT_TEST_DONE (R519): a failing unit stays fenced. -/
def execUnitTestDone (pass : Bool) (s : State) : Result :=
  .next (match s.bg.unitBusy with
    | some (2, u) =>
      if (s.unit u).work = .unitTest ∧ (s.unit u).power = .awake then
        let t := s.updUnit u (fun x => { x.eraseKey with work := .idle, power := .gated, testFail := !pass })
        (({ t with bg := { t.bg with unitResult := if pass then 1 else 2 } } : State).unitOpDone u).tryLeave
      else s
    | _ => s)

/-- UNIT_UNFENCE (R519). -/
def execUnitUnfence (priv : Bool) (ben : BitVec 4) (data : Word) (s : State) : Result :=
  .next (s.unitWrite priv ben data (fun t u =>
    match t.unitBar u with
    | some n => t.unitReject n u
    | none => if !(t.unit u).testFence then t.unitReject 5 u else (t.updUnit u UnitSt.unfence).unitOpDone u))

end Sys2Proof.Machine
end

