-- ==== Sys2Proof/Machine/Entropy.lean ====
section
/-! DEFINITION. The entropy source and the seeding of the DRBG (spec/11 R369 to R374). The samples are free values (log entry 10); the
DRBG's key and V are computed from them. -/

namespace Sys2Proof.Machine

/-- The startup tests begin, in phase A1, at step 2 of a warm wake, and after a failed test, which discards the DRBG's state (R369). -/
def State.startEntropy (s : State) : State :=
  { s with rng := { s.rng with key := [], v := [], count := 0, ready := false, startup := true, reseeding := false } }

/-- The entropy source runs: its tests or its output are under way. -/
def State.entropyRuns (s : State) : Bool := s.rng.ready || s.rng.startup

/-- RESEED (R374): ignored while a reseed or the startup tests run, and while there is no DRBG state to reseed. -/
def execReseed (priv : Bool) (ben : BitVec 4) (data : Word) (s : State) : Result :=
  .next (s.portWrite priv 0xB04 ben false (fun t =>
    if (benMask ben &&& data).getLsbD 0 && t.rng.ready && !t.rng.reseeding then { t with rng := { t.rng with reseeding := true } } else t))

/-- ENTROPY_HEALTH_FAIL (R369): the repetition count test or, with `apt`, the adaptive proportion test. -/
def execEntropyHealthFail (apt : Bool) (s : State) : Result :=
  .next (
    if !s.entropyRuns then s
    else
      let t := s.startEntropy.send 0x81 5 (if apt then 2 else 1)
      { t with rng := { t.rng with rctFail := t.rng.rctFail || !apt, aptFail := t.rng.aptFail || apt, fails := satAdd 0xFF t.rng.fails 1 } })

/-- ENTROPY_STARTUP_DONE (R370, R371): the DRBG is instantiated, RAND_RDY sets, and the requests that wait for it go on. -/
def execEntropyStartupDone (s : State) : Result :=
  .next (
    if !s.rng.startup then s
    else
      let t := s.instantiate
      ({ t with rng := { t.rng with startup := false, ready := true } } : State).serveRandom)

/-- RESEED_DUE (R370). -/
def execReseedDue (s : State) : Result :=
  .next (if s.rng.ready && !s.rng.reseeding then { s with rng := { s.rng with reseeding := true } } else s)

/-- RESEED_SAMPLES_DONE (R370): the new samples are applied in one step. -/
def execReseedSamplesDone (s : State) : Result :=
  .next (if s.rng.reseeding then (let t := s.reseed; { t with rng := { t.rng with reseeding := false } }) else s)

end Sys2Proof.Machine
end

