-- ==== Sys2Proof/Machine/Mailboxes.lean ====
section
/-! DEFINITION. The mailboxes, the management services, the firmware patch area and the doorbell bits (spec/15 R461 to R476). -/

namespace Sys2Proof.Machine

/-! ### Mailboxes -/

/-- A mailbox. -/
def State.box (s : State) (k : Nat) : Mbox := s.mbx.boxes.getD k Mbox.reset

/-- Change a mailbox. -/
def State.updBox (s : State) (k : Nat) (f : Mbox → Mbox) : State := { s with mbx := { s.mbx with boxes := s.mbx.boxes.set k (f (s.box k)) } }

/-- The messages of a pair that firmware has taken and not replied to. -/
def State.takenOf (s : State) (k : Nat) : List Taken := s.mbx.taken.getD k []

/-- The reply queue of a pair. -/
def State.repliesOf (s : State) (k : Nat) : List (Bytes × Bool) := s.mbx.replies.getD k []

def State.setTaken (s : State) (k : Nat) (l : List Taken) : State := { s with mbx := { s.mbx with taken := s.mbx.taken.set k l } }
def State.setReplies (s : State) (k : Nat) (l : List (Bytes × Bool)) : State :=
  { s with mbx := { s.mbx with replies := s.mbx.replies.set k l } }

/-- The mailbox becomes EMPTY: its words are 0 and its ORIGIN_RESET clears (R462, R464, R465). -/
def Mbox.emptied (m : Mbox) : Mbox := { m with data := zeros 64, full := false, origin := false }

/-- M1 serves the mailboxes (R466). -/
def State.mbxServed (s : State) : Bool :=
  match s.mode.mode with
  | .waking => s.mode.fllLock
  | .attest => s.mode.phase == .a2Wait || s.mode.phase == .a2Read || s.mode.phase == .a2Done
  | .service | .drain | .follower | .maintenance => true
  | _ => false

/-- What a write to MBk_CTL does with its GO and DONE bits (R464, R465). -/
def State.mbCtl (s : State) (k : Nat) (data : Word) : State :=
  let t := if !data.getLsbD 0 then s
    else if k < 4 ∧ !(s.box k).full then s.updBox k (fun m => { m with full := true })
    else s.updBox k (fun m => { m with goRej := true })
  if !data.getLsbD 1 then t
  else if 4 ≤ k ∧ (t.box k).full then t.updBox k Mbox.emptied
  else t.updBox k (fun m => { m with goRej := true })

/-- MB_GO (R464). -/
def execMbGo (priv : Bool) (ben : BitVec 4) (mb : Nat) (data : Word) (s : State) : Result :=
  .next (s.portWrite priv (0x1040 + 0x80 * (mb % 8)) ben true (fun t => t.mbCtl (mb % 8) data))

/-- MB_DONE (R465). -/
def execMbDone (priv : Bool) (ben : BitVec 4) (mb : Nat) (data : Word) (s : State) : Result :=
  .next (s.portWrite priv (0x1040 + 0x80 * (mb % 8)) ben true (fun t => t.mbCtl (mb % 8) data))

/-! ### Services (R472, R473) -/

/-- The service code of a message. -/
def mSvc (b : Bytes) : Nat := fld b 0 1

/-- A reply (R463): ARGS count only with STATUS 0. -/
def reply (b : Bytes) (origin : Bool) (status : Nat) (args : Bytes) : Bytes :=
  [byteOf (mSvc b), byteOf (2 + b2n origin)] ++ slice b 2 2 ++ [byteOf status, 0, 0, 0]
    ++ slice (if status = 0 then args else []) 0 56

/-- The header fields that requests leave 0, and the argument bytes from `off` on that the service does not use (R463, R473). -/
def unusedOk (b : Bytes) (off : Nat) : Bool := zeroAt b 1 1 && zeroAt b 4 4 && zeroAt b off (64 - off)

/-- The execution of a pair's oldest message not yet executed, when it asks for this service: the reply is held, or dropped for a
message that was taken before a manager restart (R471). -/
def State.serve (s : State) (k svc : Nat) (f : State → Bytes → Nat × Bytes × State) : State :=
  let l := s.takenOf k
  match l.findIdx? (fun t => t.reply.isNone) with
  | none => s
  | some i =>
    match l[i]? with
    | none => s
    | some m =>
      if !s.mbxServed ∨ mSvc m.bytes ≠ svc then s
      else
        let (st, args, t) := f s m.bytes
        if m.dropped then t.setTaken k (l.eraseIdx i)
        else t.setTaken k (l.set i { m with reply := some (reply m.bytes m.origin st args) })

/-- ECHO (R472). -/
def execEcho (pair : Nat) (s : State) : Result :=
  .next (s.serve pair 0x01 (fun t b => if unusedOk b 64 then (0, slice b 8 56, t) else (2, [], t)))

/-- PATCH_VER of the active patch, 0 for none. -/
def State.patchVer (s : State) : Nat := fld s.mbx.active 4 4

/-- FW_INFO (R472). -/
def execFwInfo (pair : Nat) (s : State) : Result :=
  .next (s.serve pair 0x02 (fun t b =>
    if unusedOk b 8 then
      (0, leBytes 4 Config.romVer.toNat ++ leBytes 4 t.patchVer ++ leBytes 4 (t.mbx.staged.elim 0xFFFFFFFF (fun p => fld p 4 4)), t)
    else (2, [], t)))

/-- The account that ACCT_QUERY reports. -/
def State.queried (s : State) (part loc : Nat) : Option Acct :=
  match s.gslot part loc with
  | none => none
  | some g =>
    let x := s.slot g
    if x.attr.ledger ∧ (x.st = .valid ∨ x.st = .retired) then (s.acctOf x).bind (Store.find s.ledger.accts) else none

/-- ACCT_QUERY (R472). -/
def execAcctQuery (pair : Nat) (s : State) : Result :=
  .next (s.serve pair 0x10 (fun t b =>
    if !t.running then (3, [], t)
    else if !(unusedOk b 12) ∨ !(zeroAt b 9 1) then (2, [], t)
    else
      match t.queried (fld b 8 1) (fld b 10 2) with
      | some a => (0, leBytes 8 a.hwm0 ++ leBytes 8 a.hwm1 ++ [byteOf (b2n a.ret0 + 2 * b2n a.ret1)], t)
      | none => (2, [], t)))

/-- PART_USAGE's results (R472). -/
def State.usage (s : State) (p : Nat) (x : Partition) : Bytes :=
  leBytes 2 (x.slotMap.filter (fun g => s.slotCode g != 0)).length ++ leBytes 2 (s.stilesOf p)
    ++ leBytes 2 (s.ledger.leases.filter (fun l => l.part == p && l.live)).length ++ leBytes 1 (s.ctxTilesOf p) ++ [0]
    ++ leBytes 2 (s.stagingOf p) ++ leBytes 1 (s.boundStreams.filter (fun q => q.2.part == p)).length ++ [0]
    ++ leBytes 4 x.live.length

/-- PART_USAGE (R472). -/
def execPartUsage (pair : Nat) (s : State) : Result :=
  .next (s.serve pair 0x11 (fun t b =>
    if !t.running then (3, [], t)
    else if !(unusedOk b 9) then (2, [], t)
    else
      match t.part (fld b 8 1) with
      | some x => (0, t.usage (fld b 8 1) x, t)
      | none => (2, [], t)))

/-! ### The firmware patch (R474) -/

/-- The check of a complete image: STATUS of the reply. -/
def State.patchCheck (s : State) (img : Bytes) : Nat :=
  if !(Config.patchSigOk img) then 4
  else if slice img 0 4 ≠ ascii "PLPT" ∨ fld img 8 4 ≠ Config.romVer.toNat ∨ fld img 4 4 < s.patchVer then 2
  else 0

/-- A chunk that follows `sofar`: the image is complete, or staging goes on. -/
def State.patchChunk (s : State) (sofar : Bytes) (total : Nat) (chunk : Bytes) : Nat × Bytes × State :=
  let left := total - sofar.length
  if zeroAt chunk (min 48 left) (48 - min 48 left) = false then (2, [], s)
  else
    let img := sofar ++ chunk.take left
    if img.length < total then (0, [], { s with mbx := { s.mbx with staging := some (img, total) } })
    else
      let st := if total = 0 then 0 else s.patchCheck img
      (st, [], { s with mbx := { s.mbx with staging := none, staged := if st = 0 then some img else s.mbx.staged } })

/-- PATCH_STAGE (R474). -/
def execPatchStage (pair : Nat) (s : State) : Result :=
  .next (s.serve pair 0x20 (fun t b =>
    let off := fld b 8 4
    let total := fld b 12 4
    let chunk := slice b 16 48
    if t.mode.mode ≠ .maintenance ∨ t.leaving then (3, [], t)
    else if !(unusedOk b 64) ∨ ¬ (total = 0 ∨ (108 ≤ total ∧ total ≤ 131072)) then (2, [], t)
    else if off = 0 then t.patchChunk [] total chunk
    else
      match t.mbx.staging with
      | some (sofar, n) =>
        if off ≠ sofar.length then (5, [], { t with mbx := { t.mbx with staging := none } })
        else if total ≠ n then (2, [], t)
        else t.patchChunk sofar total chunk
      | none => (5, [], t)))

/-! ### Taking and posting (R464 to R468) -/

/-- Firmware can hold one more reply of the pair: the outbound mailbox, the four places of the reply queue and the replies still to
come count (R467, R468). -/
def State.canReply (s : State) (k : Nat) : Bool :=
  decide (b2n (s.box (k + 4)).full + (s.repliesOf k).length + ((s.takenOf k).filter (fun t => !t.dropped)).length < 5)

/-- The services of R472. -/
def services : List Nat := [0x01, 0x02, 0x10, 0x11, 0x20]

/-- MB_TAKE (R464, R468). A message whose service R472 does not name is answered at once (R473). -/
def execMbTake (pair : Nat) (s : State) : Result :=
  .next (
    let m := s.box pair
    if !s.mbxServed ∨ 4 ≤ pair ∨ !m.full then s
    else
      let t := (s.updBox pair Mbox.emptied).setDb (bit32 pair ||| (if m.origin then bit32 17 else 0))
      if s.canReply pair then
        t.setTaken pair (s.takenOf pair ++ [⟨m.data, if services.contains (mSvc m.data) then none
          else some (reply m.data m.origin 1 []), false, m.origin⟩])
      else
        (t.updBox pair (fun x => { x with overrun := true, ovrCnt := satAdd 0xFF x.ovrCnt 1 })).setDb (bit32 (12 + pair)))

/-- A reply appears in the outbound mailbox (R465); one posted before a firmware reset carries the mark of R471. -/
def State.deliver (s : State) (k : Nat) (bytes : Bytes) (mark : Bool) : State :=
  (s.updBox (k + 4) (fun m => { m with data := bytes, full := true, origin := mark })).setDb
    (bit32 (4 + k) ||| (if mark || bitAt (fld bytes 1 1) 0 then bit32 17 else 0))

/-- MB_REPLY_POST (R465, R467): the oldest queued reply, else the oldest executed message's reply; the latter waits in the reply queue
while the mailbox is FULL. -/
def execMbReplyPost (pair : Nat) (s : State) : Result :=
  .next (
    let full := (s.box (pair + 4)).full
    if !s.mbxServed ∨ 4 ≤ pair then s
    else
      match full, s.repliesOf pair, s.takenOf pair with
      | false, (b, o) :: rest, _ => (s.setReplies pair rest).deliver pair b o
      | false, [], ⟨_, some b, _, _⟩ :: rest => (s.setTaken pair rest).deliver pair b false
      | true, q, ⟨_, some b, _, _⟩ :: rest => if q.length < 4 then (s.setTaken pair rest).setReplies pair (q ++ [(b, false)]) else s
      | _, _, _ => s)

/-! ### Restarts (R470, R471) -/

/-- MBX_HOST.RESTART on one pair: replies discarded, waiting requests marked. -/
def State.restartPair (s : State) (k : Nat) : State :=
  let tk := s.takenOf k
  let n := b2n (s.box (k + 4)).full + (s.repliesOf k).length + (tk.filter (fun t => !t.dropped)).length
  let t := ((s.setReplies k []).setTaken k ((tk.filter (fun m => m.reply.isNone)).map (fun (m : Taken) => { m with dropped := true }))).updBox
    (k + 4) Mbox.emptied
  let t := t.updBox k (fun m => { m with origin := m.full })
  { t with mbx := { t.mbx with discards := satAdd 0xFFFF t.mbx.discards n } }

/-- MBX_HOST_RESTART (R471, R476). -/
def execMbxHostRestart (priv : Bool) (ben : BitVec 4) (data : Word) (s : State) : Result :=
  .next (s.portWrite priv 0x140C ben false (fun t =>
    if (benMask ben &&& data).getLsbD 0 then
      let u := [0, 1, 2, 3].foldl State.restartPair t
      { u with mbx := { u.mbx with epoch := (u.mbx.epoch + 1) % 256 } }
    else t))

/-- DB_SET (R476). -/
def execDbSet (priv : Bool) (ben : BitVec 4) (data : Word) (s : State) : Result :=
  .next (s.portWrite priv 0x1408 ben false (fun t => t.setDb (benMask ben &&& data &&& 0xFF000000#32)))

/-- A firmware reset on one pair (R470, R471). -/
def State.loseMail (s : State) (k : Nat) : State :=
  let m := s.box k
  let n := b2n m.full + (s.takenOf k).length
  let t := if n = 0 then s else
    (s.updBox k (fun (x : Mbox) => { (if m.full then x.emptied else x) with lost := true, lostCnt := satAdd 0xFF x.lostCnt n })).setDb
      (bit32 (8 + k) ||| (if m.full then bit32 k else 0))
  let out := t.box (k + 4)
  let t := if out.full then (t.updBox (k + 4) (fun x => { x with origin := true })).setDb (bit32 17) else t
  (t.setTaken k []).setReplies k ((t.repliesOf k).map (fun r => (r.1, true)))

/-- RST_BLK_N resets firmware: mail as R470 and R471 say, partial staging abandoned, a staged image in place of the active patch
(R474). -/
def State.fwReset (s : State) : State :=
  let t := [0, 1, 2, 3].foldl State.loseMail s
  { t with mbx := { t.mbx with staging := none, active := t.mbx.staged.getD t.mbx.active, staged := none } }

/-- Firmware begins to serve the mailboxes (R466, R475). -/
def State.fwStart (s : State) : State := s.setDb (bit32 16)

end Sys2Proof.Machine
end

