-- ==== Sys2Proof/Machine/Link.lean ====
section
/-! DEFINITION. The pair identity, the Ralder link's layers, authentication, acknowledgements and timers
(spec/14 R432 to R443, R445, R450, R456 to R460). Signals, blocks and frames of the peer arrive as commands; a frame of a session is
given by its content after decryption. -/

namespace Sys2Proof.Machine

/-! ### PAIR_CMD (R435) -/

def State.pairRefuse (s : State) (reason : Nat) : State :=
  let t := { s with pair := { s.pair with cmdRej := true, rejReason := reason } }
  if s.pair.cmdRej then t else t.pairRise

/-- A write of PAIR_CMD whose OP, in byte 0, starts an operation (R435, R457, R551). -/
def State.pairWrite (s : State) (priv : Bool) (ben : BitVec 4) (data : Word) (f : State → State) : State :=
  s.portWrite priv 0xE08 ben false (fun t =>
    let busy := t.pair.cmdWait.isSome
    let t := t.cmdRw 0xE08 busy 0 ben data
    if !(ben.getLsbD 0) then t
    else if busy then t.pairRefuse 3
    else f t)

/-- The pair identity has changed: leases of another instance bit end, an image is due, and the link follows (R420, R434, R439). -/
def State.setIdent (s : State) (i : PairId) (wait : Bool) : State :=
  let keep := s.inst == (if i.paired then i.inst else 0)
  let t := { s with
    ledger := { s.ledger with leases := if keep then s.ledger.leases else [], solo := s.ledger.solo && i.paired }
    pair := { s.pair with ident := i, acctWait := wait, instConflict := false, dualActive := false, cmdWait := some s.nextSeq } }
  let t := t.dirty 0
  if t.pair.link = .blocked then (if t.linkMayRun then t.linkReset else t.linkCheck) else t.linkCheck

/-- SET_IDENTITY (R435, R455). -/
def execSetIdentity (priv : Bool) (ben : BitVec 4) (data : Word) (s : State) : Result :=
  .next (s.pairWrite priv ben data (fun t =>
    if t.mode.mode ≠ .maintenance then t.pairRefuse 1
    else if t.session then t.pairRefuse 2
    else t.setIdent ⟨true, t.aon 0xE04, b2n (bitAt (t.blk 0xE08) 4), false⟩ (t.pair.acctWait || t.mode.fresh)))

/-- UNPAIR (R435). -/
def execUnpair (priv : Bool) (ben : BitVec 4) (data : Word) (s : State) : Result :=
  .next (s.pairWrite priv ben data (fun t =>
    if t.mode.mode ≠ .maintenance then t.pairRefuse 1 else t.setIdent ⟨false, t.pair.ident.pairId, 0, false⟩ false))

/-- RETRAIN (R435). -/
def execRetrain (priv : Bool) (ben : BitVec 4) (data : Word) (s : State) : Result :=
  .next (s.pairWrite priv ben data (fun t =>
    if !t.pair.ident.paired ∨ !(bitAt (t.aon 0xE00) 0) then t.pairRefuse 4
    else
      let u := if t.linkMayRun then t.linkReset else t
      let v := { u with pair := { u.pair with cmdDone := true } }
      if u.pair.cmdDone then v else v.pairRise))

/-! ### Lanes and training (R436 to R439) -/

/-- RLK_PHY_RDY_CHANGE (R439). -/
def execRlkPhyRdyChange (level : Bool) (s : State) : Result :=
  .next (({ s with pins := { s.pins with phyRdy := level } } : State).linkCheck)

/-- LINK_RESET_DONE (R439): RLK_PHY_RST has fallen and RLK_PHY_RDY is high. -/
def execLinkResetDone (s : State) : Result :=
  .next (
    if s.pair.link = .reset ∧ s.pins.phyRdy then
      let t := s.linkTo .align
      { t with pins := { t.pins with phyRst := false } }
    else s)

/-- The lock of a receive lane after a marker (R436). -/
def LinkLane.marker (l : LinkLane) (sync : Bool) : LinkLane :=
  if sync then
    let n := min 4 (l.good + 1)
    { l with good := n, bad := 0, locked := l.locked || n == 4 }
  else
    let n := min 4 (l.bad + 1)
    { l with good := 0, bad := n, locked := l.locked && n != 4, faults := 0 }

/-- The lanes of the link. -/
def State.rxLane (s : State) (k : Nat) : LinkLane := s.pair.rxLanes.getD k LinkLane.reset

def State.setLane (s : State) (k : Nat) (l : LinkLane) : State := { s with pair := { s.pair with rxLanes := s.pair.rxLanes.set k l } }

/-- The mask of this side's locked lanes, which its TRAIN blocks carry (R437). -/
def State.lockedMask (s : State) : Nat := maskBy 4 (fun k => (s.rxLane k).locked)

/-- READY of this side's TRAIN blocks (R439). -/
def State.linkReady (s : State) : Bool := (s.serving || s.mode.mode == .drain || s.mode.mode == .follower) && s.rng.ready

/-- The active lane set: the first of R437 within both masks. -/
def laneSet (a b : Nat) : Option Nat := [0xF, 0x3, 0xC, 0x1, 0x2, 0x4, 0x8].find? (fun m => m &&& a &&& b == m)

/-- A TRAIN block from the peer (R437, R439): with both sides READY on a common set, AUTH begins with a fresh NONCE (R441). -/
def State.train (s : State) (mask : Nat) (ready : Bool) : State :=
  if s.pair.link ≠ .align ∨ !ready ∨ !s.linkReady then s
  else
    match laneSet s.lockedMask mask with
    | none => s
    | some m =>
      let (nonce, t) := s.drbg 32
      ({ t with pair := { t.pair with lanes := m, myNonce := nonce } } : State).linkTo .auth

/-- TRAIN_RX (R437). -/
def execTrainRx (mask : BitVec 4) (ready : Bool) (s : State) : Result := .next (s.train mask.toNat ready)

/-- The fault symbol is received (R438). -/
def State.peerFaulted (s : State) : State :=
  let t := if s.pair.peerFault then s else ({ s with pair := { s.pair with peerFault := true } } : State).pairRise
  t.linkAlign.send 0x60 1 0

/-- RLK_BLOCK_RX (R80, R436 to R438): the marker moves the lane's lock, and one due with RLK_RX_VLDk low fails (`none`); a CRC that fails
is counted; a second FAULT marker in a row, while no other lane has shown one, is the fault symbol; a TRAIN block carries its word 1; the
loss of a lane of the set ends the session. -/
def execRlkBlockRx (lane : Nat) (marker : Option (BitVec 64)) (crcOk : Bool) (payload : List (BitVec 64)) (s : State) : Result :=
  .next (
    if 4 ≤ lane ∨ s.pair.link = .off ∨ s.pair.link = .reset then s
    else
      let m := (marker.getD 0).toNat
      let sync := m % 0x10000 == 0xE21D
      let typ := bitsAt m 20 4
      let was := s.rxLane lane
      let l := was.marker sync
      let fault := sync && typ == 0xF
      let known := (List.range 4).any (fun k => decide (2 ≤ (s.rxLane k).faults))
      let t := s.setLane lane { l with faults := if fault then min 2 (was.faults + 1) else 0 }
      let t := if was.locked && sync && !crcOk then { t with pair := { t.pair with crcErr := satAdd 0xFFFF t.pair.crcErr 1 } } else t
      let up := t.pair.link = .auth ∨ t.session
      if fault && was.faults == 1 && !known then t.peerFaulted
      else if was.locked && !l.locked && bitAt t.pair.lanes lane && decide up then t.linkAlign
      else if l.locked && typ == 2 && sync then
        let w := (payload.headD 0).toNat
        t.train (w % 16) (bitAt w 4)
      else t)

/-- ALIGN_TIMEOUT (R439). -/
def execAlignTimeout (s : State) : Result := .next (if s.pair.link = .align then s.linkReset else s)

/-- AUTH_TIMEOUT (R439): the attempt ends and the link trains anew. -/
def execAuthTimeout (s : State) : Result := .next (if s.pair.link = .auth then s.linkReset else s)

/-- BLOCKED_EXPIRY (R439). -/
def execBlockedExpiry (s : State) : Result := .next (if s.pair.link = .blocked then s.linkReset else s)

/-! ### Authentication (R441) -/

/-- A mode in which an instance is active (R441, R450). -/
def activeCode (m : Nat) : Bool := m == 3 || m == 4 || m == 6

/-- The snapshot is sent (R450): with the last GSEQ, SNAP and SNAP_END. -/
def State.sendSnap (s : State) : State :=
  let n := s.pair.txSeq
  { s with pair := { s.pair with
      txSeq := n + 2, sent := s.pair.sent ++ [(n + 1, GraftBody.snap), (n + 2, GraftBody.snapEnd)], shadow := none, snapAckRx := false,
        snapAckTx := false } }

/-- The session key (R441). -/
def State.sessionKey (s : State) (peerNonce : Bytes) : Bytes :=
  s.devKey "PRL" (if s.pair.ident.inst = 0 then s.pair.myNonce ++ peerNonce else peerNonce ++ s.pair.myNonce)

/-- An accepted AUTH frame: RESYNC begins, in DUAL_ACTIVE when both instances are active (R441, R450, R451). -/
def State.authed (s : State) (mode : Nat) (nonce : Bytes) : State :=
  let dual := s.sealing && activeCode mode
  let t := if dual && !s.pair.dualActive then s.pairRise else s
  let t := { t with pair := { t.pair with
    dualActive := dual, peerActive := activeCode mode, sk := some (s.sessionKey nonce), txSeq := 0, rxSeq := 0, acksSent := 0, sent := []
    owed := [], retx := 0 } }
  (t.linkTo .resync).sendSnap

/-- AUTH_FRAME_RX (R441): the checks in their order. A payload that is not 48 bytes long fails the first. -/
def execAuthFrameRx (header : Bytes) (payload : Bytes) (tag : Bytes) (s : State) : Result :=
  .next (
    if s.pair.link ≠ .auth then s
    else if payload.length ≠ 48 ∨ tag ≠ cmac (s.devKey "PRA" []) (header ++ payload) then
      let t := if s.pair.authErr then s else s.pairRise
      ({ t with pair := { t.pair with authErr := true } } : State).linkTo .blocked
    else
      let mode := fld payload 6 1 % 16
      let s := { s with pair := { s.pair with peerMode := mode } }
      if fld payload 10 2 ≠ 3 then
        let t := if s.pair.authErr then s else s.pairRise
        (({ t with pair := { t.pair with authErr := true } } : State).linkTo .blocked).send 0x60 1 0
      else if fld payload 0 4 ≠ s.pair.ident.pairId then
        let t := if s.pair.idMismatch then s else s.pairRise
        ({ t with pair := { t.pair with idMismatch := true } } : State).linkTo .blocked
      else if fld payload 4 1 = s.pair.ident.inst then
        let t := if s.pair.instConflict then s else s.pairRise
        let t := (({ t with pair := { t.pair with instConflict := true } } : State).linkTo .blocked).send 0x60 1 0
        t.barWaiters 0x06
      else s.authed mode (payload.drop 16))

/-! ### Acknowledgements, heartbeats and timers (R440, R443, R445) -/

/-- The link stands in SYNCED. -/
def State.inSync (s : State) : Bool := decide (s.pair.link = .synced)

/-- ACK_FRAME_RX (R443): every graft up to a GSEQ is acknowledged. -/
def execAckFrameRx (gseq : Nat) (s : State) : Result :=
  .next (
    if !s.session then s
    else
      let done := s.pair.sent.filter (fun g => decide (g.1 ≤ gseq))
      let back := done.any (fun g => g.2.isLease)
      let gone := fun (o : Option Nat) => o.bind (fun n => if n ≤ gseq then none else some n)
      let t := { s with
        reqs := Store.mapAll s.reqs (fun _ r => { r with waitGraft := gone r.waitGraft })
        parts := Store.mapAll s.parts (fun _ p => { p with reset := p.reset.map (fun (x : PartReset) => { x with waitGraft := gone x.waitGraft }) })
        hw := { s.hw with op := match s.hw.op with
          | some (.erase n g) => some (.erase n (gone g))
          | some (.zeroise f bs g) => some (.zeroise f bs (gone g))
          | o => o }
        ledger := { s.ledger with solo := s.ledger.solo && !(back && s.inSync), leases := s.ledger.leases.map (fun (l : Lease) =>
          { l with grafted := l.grafted || l.graft.elim false (fun n => decide (n ≤ gseq)) }) }
        pair := { s.pair with
          sent := s.pair.sent.filter (fun g => decide (gseq < g.1))
          retx := if done.isEmpty then s.pair.retx else 0
          peerPdown := s.pair.peerPdown && !back
          snapAckRx := s.pair.snapAckRx || done.any (fun g => g.2 == GraftBody.snapEnd) } }
      t.settleAcks.tryLeave.trySync)

/-- NAK_FRAME_RX (R445): the peer cannot persist the lease that a graft carries. -/
def execNakFrameRx (gseq : Nat) (s : State) : Result :=
  .next (
    if !s.session ∨ !(s.pair.sent.any (fun g => g.1 == gseq && g.2.isLease)) then s
    else
      let t := { s with
        pair := { s.pair with sent := s.pair.sent.filter (fun g => g.1 != gseq), peerPdown := true }
        ledger := { s.ledger with
          solo := s.ledger.solo || !s.strictPair
          leases := s.ledger.leases.map (fun (l : Lease) => if l.graft = some gseq then { l with graft := none } else l) } }
      if t.strictPair then t.barWaiters 0x07 else t)

/-- HEARTBEAT_RX (R440): the frame passed its tag check; it carries nothing else. -/
def execHeartbeatRx (s : State) : Result := .next s

/-- HEARTBEAT_DUE (R440). -/
def execHeartbeatDue (s : State) : Result :=
  .next (if s.pair.link = .synced then { s with pair := { s.pair with heartbeats := s.pair.heartbeats + 1 } } else s)

/-- GRAFT_RETX_EXPIRY (R440, R443): the unacknowledged grafts are resent, eight times at most. -/
def execGraftRetxExpiry (s : State) : Result :=
  .next (
    if !s.session ∨ s.pair.sent.isEmpty then s
    else if 8 ≤ s.pair.retx then s.linkAlign
    else { s with pair := { s.pair with retx := s.pair.retx + 1, retxCnt := satAdd 0xFFFF s.pair.retxCnt s.pair.sent.length } })

/-- LINK_TMO_EXPIRY (R440). -/
def execLinkTmoExpiry (s : State) : Result := .next (if s.pair.link = .synced then s.linkAlign else s)

end Sys2Proof.Machine
end

