-- ==== Sys2Proof/Machine/Grafts.lean ====
section
/-! DEFINITION. Received grafts (spec/14 R444 to R453). A command carries a graft's GSEQ and its decrypted content. -/

namespace Sys2Proof.Machine

/-! ### Order and acknowledgement (R443, R444) -/

/-- A graft is applied in GSEQ order while a session runs and this instance takes grafts of its kind; a repeated one is discarded and
acknowledged again. -/
def State.rxGraft (s : State) (gseq : Nat) (takes : Bool) (f : State → State) : State :=
  if s.session && takes && gseq == s.pair.rxSeq + 1 then (f { s with pair := { s.pair with rxSeq := gseq } }).ackUp.trySync else s

/-- The acknowledgement of a graft waits for the image that carries its change: the next one, or the outstanding one that already
does (R444). -/
def State.oweAck (s : State) (gseq : Nat) (snap : Bool) : State :=
  let owe := fun (n : Nat) => { s with pair := { s.pair with owed := s.pair.owed ++ [⟨gseq, n, snap⟩] } }
  if s.persist.change then owe s.nextSeq
  else
    match s.persist.out with
    | some o => owe o.seq
    | none => if snap then { s with pair := { s.pair with snapAckTx := true } } else s

/-- This instance takes configuration from its peer (R449). -/
def State.follows (s : State) : Bool := s.mode.mode == .follower

/-- The region cannot be written (R445). -/
def State.cannotPersist (s : State) : Bool := s.ledger.persistDown || !(bitAt (s.blk 0xD08) 0)

/-- A LEASE graft is answered with a NAK (R445). -/
def State.nak (s : State) (gseq : Nat) : State := { s with pair := { s.pair with naksSent := s.pair.naksSent ++ [gseq] } }

/-! ### Accounts (R282) -/

/-- An account is received: merged into the one with its identity, or added. -/
def State.mergeAcct (s : State) (a : Acct) : State :=
  let put := fun (n : Nat) (x : Acct) (t : State) =>
    { t with ledger := { t.ledger with known := addMem t.ledger.known n } } |> fun (t : State) =>
      if Store.find t.ledger.accts n = some x then t else t.putAcct n x
  match s.acctFind a.fp a.epoch a.lgid with
  | some n => put n (acctMerge ((Store.find s.ledger.accts n).getD a) a) s
  | none => if s.ledger.accts.length < 8192 then put s.acctFree a s else s

/-- An account's identity with nothing in it. -/
def acctNew (fp : Bytes) (epoch lgid : Nat) : Acct := ⟨fp, epoch, lgid, 0, 0, false, false⟩

/-- LEASE_GRAFT (R444, R445). -/
def execLeaseGraft (gseq : Nat) (fp : Bytes) (epoch lgid inst hwm : Nat) (s : State) : Result :=
  .next (
    if s.session ∧ gseq ≤ s.pair.rxSeq ∧ s.cannotPersist ∧ s.pair.owed.any (fun w => w.gseq == gseq) then
      (({ s with pair := { s.pair with owed := s.pair.owed.filter (fun w => w.gseq != gseq) } } : State).nak gseq).ackUp
    else
      s.rxGraft gseq s.running (fun t =>
        let u := t.mergeAcct (acctSetHwm (acctNew fp epoch lgid) inst hwm)
        if u.cannotPersist ∨ (u.acctFind fp epoch lgid).isNone then u.nak gseq else u.oweAck gseq false))

/-- RETIRE_GRAFT (R444). -/
def execRetireGraft (gseq : Nat) (fp : Bytes) (epoch lgid inst : Nat) (s : State) : Result :=
  .next (s.rxGraft gseq s.running (fun t => t.mergeAcct (acctSetRet (acctNew fp epoch lgid) inst)))

/-- Remove an account. -/
def State.dropAcct (s : State) (n : Nat) : State :=
  ({ s with ledger := { s.ledger with accts := Store.del s.ledger.accts n, known := s.ledger.known.filter (· != n) } } : State).acctDirty n

/-- PURGE_GRAFT (R444). -/
def execPurgeGraft (gseq : Nat) (ids : List (Bytes × Nat × Nat)) (s : State) : Result :=
  .next (s.rxGraft gseq s.follows (fun t =>
    ids.foldl (fun u i => (u.acctFind i.1 i.2.1 i.2.2).elim u u.dropAcct) t))

/-! ### Keys -/

/-- A slot takes a received record; its account exists from then on (R268, R444). -/
def State.takeSlot (s : State) (g : Nat) (x : HwSlot) : State :=
  if x.st = .empty then s.eraseSlots [g]
  else
    let t := s.install g x.part x.st x.attr x.mat
    if x.attr.ledger ∧ x.st ≠ .noHistory ∧ (t.acctOf x).isSome = false ∧ t.ledger.accts.length < 8192 then t.bindAcct x.attr x.mat else t

/-- SLOT_GRAFT (R444). -/
def execSlotGraft (gseq slot : Nat) (rec : HwSlot) (s : State) : Result :=
  .next (s.rxGraft gseq s.follows (fun t => t.takeSlot slot rec))

/-- ERASE_GRAFT (R444). -/
def execEraseGraft (gseq : Nat) (scope : EraseScope) (s : State) : Result :=
  .next (s.rxGraft gseq s.follows (fun t =>
    (match scope with
      | .slots gs => t.eraseSlots gs
      | .part p => t.wipePart p
      | .all => t.wipeAll).oweAck gseq false))

/-- Install a partition's KEK. -/
def State.takeKek (s : State) (p : Nat) (kek : Bytes) : State :=
  (({ s with hw := { s.hw with keks := Store.put s.hw.keks p kek, badKeks := s.hw.badKeks.filter (· != p) } } : State).markStale (4608 + p)).dirty 0

/-- KEK_GRAFT (R444). -/
def execKekGraft (gseq part : Nat) (kek : Bytes) (s : State) : Result :=
  .next (s.rxGraft gseq s.follows (fun t => t.takeKek part kek))

/-! ### Configuration -/

/-- A queue takes a configuration; one that exists keeps its indices. -/
def Partition.takeQueue (x : Partition) (q : Nat) (c : QueueCfg) : Partition :=
  { x with queues := Store.put x.queues q (match Store.find x.queues q with
      | some old => { old with cfg := c }
      | none => Queue.fresh c) }

/-- A partition takes a received record: its assignments, slots and I/O queues are replaced, its registers stay. -/
def takePart (old : Option Partition) (r : PartRec) : Partition :=
  let x := old.getD (Partition.fresh r.assign r.slotMap)
  let y := { x with assign := r.assign, slotMap := r.slotMap
                    queues := x.queues.filter (fun q => q.1 == 0 || r.queues.any (fun c => c.1 == q.1)) }
  r.queues.foldl (fun z c => z.takeQueue c.1 c.2) y

/-- PART_GRAFT (R444): creation, or destruction with its slots. -/
def execPartGraft (gseq part : Nat) (rec : Option PartRec) (s : State) : Result :=
  .next (s.rxGraft gseq s.follows (fun t =>
    match rec with
    | some r =>
      let u := { t with parts := Store.put t.parts part (takePart (t.part part) r) }
      ((u.resetV part).dirty 0).dirty 1
    | none =>
      let u := ((t.wipePart part).dirty 0).dirty 1
      ({ u with parts := Store.del u.parts part } : State).oweAck gseq false))

/-- QUEUE_GRAFT (R444): creation, SET_QOS or destruction. -/
def execQueueGraft (gseq : Nat) (rec : QueueRec) (s : State) : Result :=
  .next (s.rxGraft gseq s.follows (fun t =>
    (t.updPart rec.part (fun x =>
      match rec.cfg with
      | some c => x.takeQueue rec.qid c
      | none => { x with queues := Store.del x.queues rec.qid })).dirty 1))

/-- IDENT_GRAFT (R434, R444): the peer's identity. This instance keeps its own INST and ROLE. -/
def execIdentGraft (gseq : Nat) (ident : PairId) (s : State) : Result :=
  .next (s.rxGraft gseq s.running (fun t => { t with pair := { t.pair with peerActive := !ident.standby } }))

/-! ### Resynchronisation (R450) -/

/-- SNAP_GRAFT (R450): accounts are merged; a standby builds its shadow copy. -/
def execSnapGraft (gseq : Nat) (snap : Snapshot) (s : State) : Result :=
  .next (s.rxGraft gseq (s.pair.link == .resync) (fun t =>
    let u := snap.accts.foldl State.mergeAcct t
    if u.follows ∧ u.pair.peerActive ∧ snap.config.isSome then { u with pair := { u.pair with shadow := some snap } } else u))

/-- The commit: configuration and Heartwood table become those of the shadow copy (R450 step 4). -/
def State.commit (s : State) (img : Image) : State :=
  let held := s.hw.slots.map (·.1)
  let kept := img.slots.filter (fun p => p.2.st != .empty)
  let t := s.eraseSlots (held.filter (fun g => !(kept.any (fun p => p.1 == g))))
  let t := kept.foldl (fun (t : State) p =>
    let x := t.slot p.1
    if x.st = p.2.st ∧ x.attr = p.2.attr ∧ x.mat = p.2.mat ∧ x.part = p.2.part then t else t.takeSlot p.1 p.2) t
  let t := t.eraseKeks ((t.hw.keks.map (·.1)).filter (fun p => !(img.keks.any (fun k => k.1 == p))))
  let t := img.keks.foldl (fun t k => if Store.find t.hw.keks k.1 = some k.2 then t else t.takeKek k.1 k.2) t
  let t := { t with parts := img.parts.foldl (fun (ps : Store Partition) (r : PartRec) => Store.put ps r.part (takePart (t.part r.part) r)) [] }
  let t := { t with pair := { t.pair with shadow := none, acctWait := false } }
  (t.dirty 0).dirty 1

/-- SNAP_END_GRAFT (R450): a standby commits and acknowledges after its image; an instance with nothing to commit acknowledges. -/
def execSnapEndGraft (gseq _count : Nat) (s : State) : Result :=
  .next (s.rxGraft gseq (s.pair.link == .resync) (fun t =>
    match t.pair.shadow.bind (·.config) with
    | some img => if t.follows then (t.commit img).oweAck gseq true else { t with pair := { t.pair with snapAckTx := true } }
    | none => { t with pair := { t.pair with snapAckTx := true } }))

/-- DUAL_ACTIVE ends: the link returns to RESYNC within its session, and a snapshot is sent (R451). -/
def State.resyncAgain (s : State) : State :=
  let t := { s with pair := { s.pair with dualActive := false } }
  if t.pair.link = .synced then
    (({ t with pair := { t.pair with link := .resync } } : State).linkChanged.unsynced).sendSnap
  else t

/-- HANDOVER_GRAFT (R451, R453). -/
def execHandoverGraft (gseq : Nat) (s : State) : Result :=
  .next (s.rxGraft gseq s.running (fun t =>
    let u := if t.pair.handover then t else t.pairRise
    let u := { u with pair := { u.pair with handover := true, peerActive := false } }
    if u.pair.dualActive then u.resyncAgain else u))

end Sys2Proof.Machine
end

