-- ==== Sys2Proof/Machine/Dormant.lean ====
section
/-! DEFINITION. What every way into and out of a mode shares: the loss of the core domain, the retained state image, entry to DORMANT,
FOLLOWER and SERVICE, the ATTEST unit stages, and the drain condition (spec/02 R56, spec/03 R94 to R112, spec/14 R449 to R453). -/

namespace Sys2Proof.Machine

/-! ### The core domain (R56, R104) -/

/-- Everything outside the always-on island takes its reset value. Ring records whose writes were never answered are written again. -/
def State.coreReset (s : State) : State :=
  { s with
    port := ⟨0, false⟩
    regsBlk := []
    gov := { Gov.reset with high := s.gov.high, granted := s.gov.granted }
    units := Store.mapAll s.units (fun _ _ => UnitSt.reset)
    parts := []
    reqs := []
    hw := { s.hw with op := none, done := false, rej := false, reason := 0, retUsed := false }
    ledger := Ledger.reset
    persist := Persist.reset
    seals := Seal.reset
    pair := Pair.reset
    flt := { s.flt with
      log := Store.mapAll s.flt.log (fun _ e => { e with closed := false }), recDrops := 0, recLost := 0, ringHead := 0, ringTail := 0 }
    bg := Bg.reset
    rng := Rng.reset
    pm := Pm.reset
    irq := Irq.reset
    sheds := 0 }

/-! ### The retained state image (R106) -/

/-- A queue as the image keeps it (R106, R563): its configuration, its indices, CMPL_ERR and the pushes that wait for QUEUE_DRAINED. -/
def Queue.asleep (q : Queue) : Queue :=
  { q with fetchErr := false, dbErr := false, invalErr := false, pushRej := false, inv := 0, fetch := q.head, parse := q.head
           cache := (q.cache.filter (fun c => c.pushed)).map (fun (c : CacheEntry) => { c with drained := true })
           slots := [], reserved := 0, chain := none, vt := [] }

/-- A partition as the image keeps it: assignments, queues, PART_CTL, the admin ring and vector registers, URG_STAT.DENIED. The
result FIFO is emptied, its status bits with it (R391, R392). -/
def Partition.asleep (p : Partition) : Partition :=
  { p with regs := p.regs.filter (fun r => decide (r.1 < 0x600)), intrErr := false, admCfgErr := false, urgDeny := false
           urgLeft := p.assign.urgQuota, reset := none, queues := Store.mapAll p.queues (fun _ q => q.asleep), vecs := []
           expFull := false, expFail := false, expCfgErr := false, live := [], ctxEpoch := p.ctxEpoch + 1, rf := ResultFifo.empty, windows := []
           vt := [] }

/-- The persistence state as the image keeps it (R106): the last SEQ, the newest acknowledged bank, the sections that differ and the
changes not carried. The registers of R430 and R431 but PERSIST_CTL are lost. -/
def Persist.asleep (p : Persist) : Persist :=
  { Persist.reset with
    lastSeq := p.lastSeq, ackBank := p.ackBank, dirtyA := p.dirtyA, dirtyB := p.dirtyB, writeA := p.writeA, writeB := p.writeB
    change := p.change, boot := p.boot }

/-- A stream as the image and FOLLOWER keep it (R106, R338, R449): a checkpoint whose job the parking ends is due again. -/
def Stream.asleep (x : Stream) : Stream :=
  { x with ckptDue := x.ckptDue || x.ckptJob.isSome, ckptJob := none, ckptUnit := none }

/-- The retained state image (R106). -/
def State.retain (s : State) : Retained :=
  { parts := Store.mapAll s.parts (fun _ p => p.asleep)
    accts := s.ledger.accts
    streams := Store.mapAll s.seals.streams (fun _ x => x.asleep)
    ident := s.pair.ident
    acctWait := s.pair.acctWait
    persist := s.persist.asleep
    persCtl := wordOf (s.blk 0xD08)
    units := s.units.map (fun u => ⟨u.1, u.2.fltFence, u.2.testFence && u.2.testFail, u.2.passed⟩) }

/-- Leases end, the last permitted one of a key with the key's retirement (R278, R280). -/
def State.endLeases (s : State) : State := s.ledger.leases.foldl (fun t l => t.endLease l) s

/-- Entry to DORMANT (R103, R104): the image is written after the streams' chain positions are fixed, and everything outside the
always-on island is lost. The device key stays in the retention domain. -/
def State.sleep (s : State) : State :=
  let t := (s.seals.streams.map (·.1)).foldl (fun t k => t.goPassive k true) s.endLeases
  let t := if t.persist.out.isSome then t.imageLost else t
  let t := t.setMode .dormant
  let t := t.linkCheck
  let img := t.retain
  let known := t.ledger.known
  let u := t.coreReset
  { u with
    ledger := { u.ledger with known := known }
    mode := { u.mode with fllOn := false, fllLock := false, drainForced := false }
    pins := { u.pins with coreIso := true }
    retained := some img }

/-- The retained state image is restored (R106, R107 step 3). -/
def State.restore (s : State) (r : Retained) : State :=
  let unit := fun (n : Nat) => r.units.find? (fun u => u.unit == n)
  let t := { s with
    parts := r.parts
    units := Store.mapAll s.units (fun n x => (unit n).elim x (fun u =>
      { x with passed := u.passed, fltFence := u.fence, testFence := u.test, testFail := u.test }))
    ledger := { s.ledger with accts := r.accts, histRdy := true }
    seals := { s.seals with streams := r.streams }
    persist := r.persist
    pair := { s.pair with ident := r.ident, acctWait := r.acctWait } }
  t.setBlk 0xD08 r.persCtl

/-! ### The ATTEST unit stages (R109 to R112) -/

/-- The units of a stage. -/
def stageUnits (k : Nat) : List Nat := [3 * k, 3 * k + 1, 3 * k + 2, 0x20 + 2 * k, 0x20 + 2 * k + 1, 0x30 + k]

/-- The unit's test of its stage is over. -/
def UnitSt.tested (u : UnitSt) : Bool := u.passed || u.fltFence

/-- Stage U7 has ended: a kind without a unit that passed leads to QUARANTINE (R111). -/
def State.stagesOver (s : State) : State :=
  if [UnitKind.cipher, .digest, .cluster].all (fun k => (unitsOf k).any (fun u => (s.unit u).passed)) then s else s.quarantine

/-- The next stage that has a unit to test: its tests ask for their grants. -/
def State.stageStart (s : State) : Nat → State
  | 0 => s.stagesOver
  | fuel + 1 =>
    if 8 ≤ s.mode.stage then s.stagesOver
    else
      let us := (stageUnits s.mode.stage).filter (fun u => !(s.unit u).tested)
      if us.isEmpty then State.stageStart { s with mode := { s.mode with stage := s.mode.stage + 1 } } fuel
      else (us.foldl (fun t u => t.addGrant .stageTest [u] none 0 0) s).issueNew s.nextId

/-! ### Entering SERVICE, FOLLOWER and DRAIN -/

/-- Queues are served again: fetching goes on. -/
def State.resumeQueues (s : State) : State :=
  (s.parts.flatMap (fun p => p.2.queues.map (fun q => (p.1, q.1)))).foldl (fun t x => t.refill x.1 x.2) s

/-- Each bound stream resumes with the record of its PASSIVE gap; then sealing and checkpoints go on (R108, R338). -/
def State.resumeSeals (s : State) : State :=
  ((s.seals.streams.map (·.1)).foldl (fun t k => (t.sealGap k).afterSeal k) s).issueNew s.nextId

/-- The mode that starts and wakes end in (R94): FOLLOWER for an instance named standby. -/
def State.enterServed (s : State) : State :=
  let t := { s with mode := { s.mode with served := true, phase := .none, safe := false } }
  if t.pair.ident.standby then t.setMode .follower else ((t.setMode .service).resumeSeals).resumeQueues

/-- A TARGET write that is refused (R95). -/
def State.badReq (s : State) : State := { s with mode := { s.mode with badReq := true } }

def State.setTarget (s : State) (t : Target) : State := { s with mode := { s.mode with target := t } }

/-- A start or a wake has ended and Pleod proceeds towards TARGET (R95). -/
def State.pursue (s : State) : State :=
  match s.mode.mode, s.mode.target with
  | .service, .maintenance => s.setMode .maintenance
  | .service, .drain | .service, .dormant | .service, .follower => s.startDrain
  | .follower, .drain | .follower, .maintenance => (s.setTarget .follower).badReq
  | _, _ => s

/-- Entry to FOLLOWER (R434, R449, R451, R453): the unit stages go on (R111). -/
def State.enterFollower (s : State) : State :=
  let t := s.setMode .follower
  let t := ({ t with pair := { t.pair with ident := { t.pair.ident with standby := true } } } : State).dirty 0
  let t := (t.seals.streams.map (·.1)).foldl (fun t k => t.goPassive k false) t
  let t := { t with
    gov := { t.gov with grants := t.gov.grants.filter (fun (g : Grant) => g.what == GrantFor.stageTest) }
    units := Store.mapAll t.units (fun _ (u : UnitSt) => if u.work = Work.stageTest then u else { u with power := .gated, work := .idle, charge := none })
    seals := { t.seals with streams := Store.mapAll t.seals.streams (fun _ x => x.asleep) }
    mode := { t.mode with drainForced := false } }
  let t := if t.session then t.graft .handover else t
  if t.pair.dualActive then t.resyncAgain else t

/-- A queue as promotion leaves it (R452, R563): as after ATTEST, with its recorded tail; CIE and Q_STAT are kept. -/
def Queue.promoted (q : Queue) : Queue :=
  { Queue.fresh q.cfg with
    tail := q.tail, cie := q.cie, fetchErr := q.fetchErr, cmplErr := q.cmplErr, dbErr := q.dbErr, invalErr := q.invalErr
    pushRej := q.pushRej, inv := q.inv }

/-- A partition as promotion leaves it (R454, R563). -/
def Partition.promoted (p : Partition) : Partition :=
  { p with queues := Store.mapAll p.queues (fun _ q => q.promoted), live := [], ctxEpoch := p.ctxEpoch + 1, rf := p.rf.wiped }

/-- The peer serves, and the link is up: promotion is refused (R452). -/
def State.peerServes (s : State) : Bool := s.pair.link == .synced && s.pair.peerActive

/-- Promotion (R452, R454): no stream stays bound. -/
def State.promote (s : State) : State :=
  let t := { s with
    parts := Store.mapAll s.parts (fun _ p => p.promoted)
    seals := { s.seals with streams := [], opened := [] }
    pair := { s.pair with ident := { s.pair.ident with standby := false }, shadow := none } }
  ((t.dirty 0).setMode .service).cfgGraft .ident

/-! ### The drain (R101, R102) -/

/-- A drain towards DORMANT or FOLLOWER. -/
def State.draining (s : State) : Bool := s.mode.mode == .drain && (s.mode.target == .dormant || s.mode.target == .follower)

/-- A queue still has work that DRAIN runs: links of a chain begun, or a held entry that can be admitted (R98). -/
def State.heldWork (s : State) (p q : Nat) (x : Queue) : Bool := x.chain.isSome || decide (s.admitNext p q none ≠ s)

/-- The transition may complete: the drain condition of R101 with no work held under R98, or after its limit that of R102. A partition
reset runs to its end. -/
def State.drained (s : State) : Bool :=
  s.reqs.isEmpty && s.parts.all (fun p => p.2.queues.all (fun q => !(s.heldWork p.1 q.1 q.2))) && s.fabIdle && s.parts.all (fun p => p.2.reset.isNone)
    && (s.mode.drainForced || (s.persist.out.isNone && !s.ledger.persistDown && (s.pair.link != .synced || s.pair.sent.isEmpty)))

/-- A chain under way ends: its remaining links complete with CHAIN_ABORTED (R102, log entry 28). -/
def Queue.cutChain (q : Queue) : Queue := { q with chain := q.chain.map (fun (k : ChainRun) => { k with failed := true }) }

/-- The drain limit is reached (R102): a BIND_TAP that it ends leaves nothing bound. -/
def State.drainExpire (s : State) : State :=
  let t := { s with
    mode := { s.mode with drainExp := true, drainForced := true }
    parts := Store.mapAll s.parts (fun _ p => { p with queues := Store.mapAll p.queues (fun _ q => q.cutChain) }) }
  let t := ((t.reqs.filter (fun r => r.2.owner == .queue && r.2.phase != .resetting)).map (·.1)).foldl
    (fun t rid => (t.dropBind rid).abortReq rid St.queueDrained) t
  if t.persist.out.isSome then t.imageLost else t

end Sys2Proof.Machine
end

