-- ==== Sys2Proof/Machine/Resets.lean ====
section
/-! DEFINITION. Resets, clocks, supplies, test mode, tamper inputs and the root key (spec/02 R43 to R58, R85 to R88): the meanings of
RST_AON_N_ASSERT, RST_AON_N_RELEASE, RST_BLK_N_ASSERT, RST_BLK_N_RELEASE, FLL_LOCK, FLL_LOCK_TIMEOUT, TEST_MODE_RISE, TEST_MODE_FALL,
TAMPER_REGISTERED, ROOT_KEY_VLD_RISE, ROOT_KEY_VLD_FALL, ROOT_KEY_TIMEOUT, CORE_PWR_GOOD_RISE, CORE_PWR_GOOD_FALL, POWER_LOSS,
CLK_FAB_STOP and CLK_FAB_RESTART. -/

namespace Sys2Proof.Machine

/-! ### Resets (R54 to R58) -/

/-- Commands not yet transferred are withdrawn; the others stay until answered (R58). -/
def State.stopFabric (s : State) : State := { s with fab := s.fab.filter (fun t => t.phase != .presented) }

/-- The state with both resets low and the inputs as they stand. While TEST_MODE is high the test state is not left (R87, R94). -/
def State.cold (s : State) : State :=
  { State.reset with
    pins := { Pins.reset with
      testMode := s.pins.testMode, corePwrGood := s.pins.corePwrGood, pwrGnt := s.pins.pwrGnt, rootKeyVld := s.pins.rootKeyVld
      rootKey := s.pins.rootKey
      phyRdy := s.pins.phyRdy, fabClk := s.pins.fabClk, tamperLevel := s.pins.tamperLevel }
    mode := { ModeCtl.reset 0 with
      mode := if s.pins.testMode ∧ s.mode.mode = .test then .test else .inReset
      safe := s.pins.testMode && s.mode.mode == .test }
    jtag := s.jtag
    units := Store.mapAll s.units (fun _ _ => UnitSt.reset)
    free := s.free
    nextId := s.nextId
    now := s.now
    pending := s.pending }

/-- RST_AON_N_ASSERT (R54, R56): everything is reset; outstanding transactions follow R58, so that FAB_IDLE is 1, the value that R83
gives while RST_AON_N is low, once none is outstanding (log entry 16). -/
def execRstAonNAssert (s : State) : Result := .next { s.cold with fab := s.stopFabric.fab }

/-- RST_AON_N_RELEASE (R57 step 3): the static inputs are sampled; TEST_MODE high is the test state (R87). -/
def execRstAonNRelease (aonFreq : BitVec 13) (opptBoot : BitVec 2) (testMfr : BitVec 11) (s : State) : Result :=
  .next (
    if s.pins.aonRel then s
    else
      let t := { s with
        pins := { s.pins with aonRel := true, aonFreq := aonFreq.toNat, opptBoot := opptBoot.toNat, testMfr := testMfr.toNat }
        mode := { ModeCtl.reset opptBoot.toNat with mode := s.mode.mode, safe := s.mode.safe } }
      if t.pins.testMode then
        let u := t.keyAlarm.setMode .test
        { u with mode := { u.mode with safe := true } }
      else t)

/-- RST_BLK_N_ASSERT (R56, R58, R92, R470). The test state is not left by it (R94). -/
def execRstBlkNAssert (s : State) : Result :=
  .next (
    if !s.pins.aonRel ∨ !s.pins.blkRel then s
    else
      let t := s.fwReset.coreReset.stopFabric
      let t := if t.mode.mode = .test then t else t.setMode .inReset
      let t := { t with
        pins := { t.pins with blkRel := false, chipRstReq := false, coreIso := false, phyRst := true }
        hw := { t.hw with dk := none, badSlots := [] }
        mode := { t.mode with
          target := .service, phase := .none, safe := t.mode.mode == Mode.test, served := false, fllOn := false, fllLock := false
          drainForced := false }
        retained := none }
      t.dropReqPin)

/-- RST_BLK_N_RELEASE (R44, R57, R58, R490): every tag is free, the forced safe state begins, and the FLL starts unless AON_FREQ is
out of range. -/
def execRstBlkNRelease (s : State) : Result :=
  .next (
    if !s.pins.aonRel ∨ s.pins.blkRel then s
    else
      let t := { s with pins := { s.pins with blkRel := true }, fab := [], mode := { s.mode with safe := true } }
      if t.pins.aonFreq < 1920 ∨ 7680 < t.pins.aonFreq then t.failStart.send 0x80 1 t.pins.aonFreq
      else { t with mode := { t.mode with fllOn := true } })

/-! ### The FLL (R46) -/

/-- The device key from the sampled root key (R400). -/
def deviceKey (root : BitVec 256) : Bytes := kdf256 (beBytes 32 root.toNat) (ascii "DEV") []

/-- ROOT_KEY is sampled, once in each phase A1, while ROOT_KEY_VLD is high; a key of all zeros or ones fails ATTEST (R86). -/
def State.sampleKey (s : State) : State :=
  if s.mode.phase ≠ .a1 ∨ s.mode.keySampled ∨ !s.pins.rootKeyVld then s
  else
    let u := { s with pins := { s.pins with rootKeyAck := true }, mode := { s.mode with keySampled := true } }
    if s.pins.rootKey = 0 ∨ s.pins.rootKey = BitVec.allOnes 256 then u.send 0x48 1 0
    else { u with hw := { u.hw with dk := some (deviceKey s.pins.rootKey) } }

/-- ATTEST begins with phase A1 in the forced safe state (R89, R109, R415); the root key is sampled anew (R86). -/
def State.attestStart (s : State) : State :=
  let t := s.dropReqPin.setMode .attest
  ({ t with
    mode := { t.mode with phase := .a1, safe := true, stage := 0, keySampled := false }
    hw := { t.hw with alarmBoot := t.hw.alarmBoot || t.hw.alarm, dk := none } } : State).sampleKey.startEntropy

/-- FLL_LOCK (R46, R105, R107): ATTEST at a cold start. At a warm wake the retained state image is checked, `imageOk` being the outcome,
and restored, firmware and the entropy source start, and the first cipher lane asks for its grant; an image that fails is discarded. -/
def execFllLock (imageOk : Bool) (s : State) : Result :=
  .next (
    if !s.mode.fllOn ∨ s.mode.fllLock then s
    else
      let t := { s with mode := { s.mode with fllLock := true } }
      match t.mode.mode, t.retained with
      | .inReset, _ => t.attestStart
      | .waking, some r =>
        if imageOk then
          let u := ({ t.restore r with retained := none } : State).startEntropy.fwStart.linkCheck
          (u.addGrant .firstLane [] none 0 0).issueNew u.nextId
        else
          let u := { t with retained := none, mode := { t.mode with warmFail := true }, ledger := { t.ledger with known := [] } }
          u.attestStart.send 0x4A 0 0
      | .waking, none => t.attestStart
      | _, _ => t)

/-- FLL_LOCK_TIMEOUT (R46). -/
def execFllLockTimeout (s : State) : Result :=
  .next (
    if s.mode.fllOn ∧ !s.mode.fllLock then
      let t := s.failStart.send 0x80 2 0
      { t with mode := { t.mode with fllOn := false } }
    else s)

/-! ### Test mode and tamper inputs (R85, R87, R414) -/

/-- Test entered from DORMANT ends the isolation, since CORE_ISO is high only in DORMANT (R51), and the link leaves OFF under the
retained pair identity, since none of the conditions of OFF holds (R439; log entry 16). -/
def State.leaveIso (s : State) : State :=
  match s.retained with
  | some r => ({ s with pins := { s.pins with coreIso := false }, pair := { s.pair with ident := r.ident } } : State).linkCheck
  | none => { s with pins := { s.pins with coreIso := false } }

/-- TEST_MODE_RISE (R87). -/
def execTestModeRise (s : State) : Result :=
  .next (
    let t := { s with pins := { s.pins with testMode := true } }
    if !t.pins.aonRel ∨ t.mode.mode = .test then t
    else
      let u := t.haltCore.keyAlarm.dropReqPin.setMode .test
      if u.pair.link = .off then u.leaveIso else u.linkAlign)

/-- TEST_MODE_FALL (R87): the test state stays until RST_AON_N is low with TEST_MODE low (R94). -/
def execTestModeFall (s : State) : Result :=
  .next (
    let t := { s with pins := { s.pins with testMode := false } }
    if s.pins.aonRel then t else { t with mode := { t.mode with mode := .inReset, safe := false } })

/-- TAMPER_REGISTERED (R85, R414): the latch sets, the message leaves and the key alarm is raised, also where the latch is set already;
QUARANTINE follows the message. -/
def execTamperRegistered (k : Nat) (s : State) : Result :=
  .next (
    if !s.pins.aonRel ∨ 4 ≤ k then s
    else
      let t := { s with pins := { s.pins with tamperLevel := addMem s.pins.tamperLevel k } }
      ({ t with pins := { t.pins with tamperLatch := addMem t.pins.tamperLatch k } } : State).keyAlarm.send (0x88 + k) 6 0)

/-! ### The root key (R86, R400) -/

/-- ROOT_KEY_VLD_RISE (R86). -/
def execRootKeyVldRise (key : BitVec 256) (s : State) : Result :=
  .next (({ s with pins := { s.pins with rootKeyVld := true, rootKey := key } } : State).sampleKey)

/-- ROOT_KEY_VLD_FALL (R86). -/
def execRootKeyVldFall (s : State) : Result :=
  .next { s with pins := { s.pins with rootKeyVld := false, rootKey := 0, rootKeyAck := false } }

/-- ROOT_KEY_TIMEOUT (R86). -/
def execRootKeyTimeout (s : State) : Result :=
  .next (if s.mode.phase = .a1 ∧ !s.mode.keySampled ∧ !s.pins.rootKeyVld then s.send 0x48 2 0 else s)

/-! ### Supplies and CLK_FAB (R45, R51, R53, R547) -/

/-- The wake begins (R50, R94, R107): the operating point in force is the one selected. -/
def State.wake (s : State) : State :=
  let t := s.setMode .waking
  { t with
    mode := { t.mode with fllOn := true, fllLock := false, active := if t.mode.point = 3 then 0 else t.mode.point }
    pins := { t.pins with coreIso := false } }

/-- A wake that TARGET asks for starts while CORE_PWR_GOOD is high (R51, R95). -/
def State.tryWake (s : State) : State :=
  if s.mode.mode = .dormant ∧ s.mode.target ≠ .dormant ∧ s.pins.corePwrGood then s.wake else s

/-- CORE_PWR_GOOD_RISE (R51, R95). -/
def execCorePwrGoodRise (s : State) : Result := .next (({ s with pins := { s.pins with corePwrGood := true } } : State).tryWake)

/-- CORE_PWR_GOOD_FALL (R51). -/
def execCorePwrGoodFall (s : State) : Result := .next { s with pins := { s.pins with corePwrGood := false } }

/-- POWER_LOSS (R53): what follows starts cold from RST_AON_N; the fabric's transactions are lost with the rest. -/
def execPowerLoss (s : State) : Result := .next s.cold

/-- CLK_FAB may stop (R45). -/
def State.mayStopFab (s : State) : Bool := (s.mode.mode == .dormant || !s.pins.blkRel) && s.fabIdle

/-- CLK_FAB_STOP (R45, R547): GLB_IRQ holds its level. -/
def execClkFabStop (s : State) : Result :=
  .next (if s.pins.fabClk ∧ s.mayStopFab then { s with pins := { s.pins with fabClk := false, irqHeld := s.glbIrq } } else s)

/-- CLK_FAB_RESTART (R547): GLB_IRQ follows its summary again. -/
def execClkFabRestart (s : State) : Result := .next { s with pins := { s.pins with fabClk := true, irqHeld := false } }

end Sys2Proof.Machine
end

