-- ==== Sys2Proof/Machine/ModeCtl.lean ====
section
/-! DEFINITION. Mode control (spec/03 R91 to R112, spec/13 R426 to R429, spec/14 R452): the meanings of TARGET_SERVICE, TARGET_DORMANT,
TARGET_DRAIN, TARGET_MAINTENANCE, TARGET_FOLLOWER, TARGET_RESERVED, DRAIN_COMPLETE, DRAIN_TMO_EXPIRY, DRAIN_TMO_WRITE, WAKE_LANE_READY,
ATTEST_A1_DONE, BANK_SELECT, UNIT_STAGE_TEST_DONE and TEST_ACCESS (spec/02 R88). -/

namespace Sys2Proof.Machine

/-! ### TARGET (R92, R94, R95) -/

/-- A TARGET that is accepted in the mode of the moment (R94, R95). -/
def State.aim (s : State) (g : Target) : State :=
  let t := s.setTarget g
  match s.mode.mode with
  | .service =>
    match g with
    | .service => t
    | .maintenance => t.setMode .maintenance
    | .dormant | .drain | .follower => t.startDrain
  | .drain =>
    match g with
    | .service => (t.setMode .service).resumeQueues
    | .maintenance => (t.setMode .maintenance).resumeQueues
    | .dormant | .drain | .follower => t
  | .maintenance => t.tryLeave
  | .dormant => t.tryWake
  | .follower =>
    match g with
    | .service => if s.peerServes then s.badReq else t.promote
    | .dormant => if t.fabIdle then t.sleep else t
    | .drain | .maintenance => s.badReq
    | .follower => t
  | .waking | .attest => t
  | .quarantine | .inReset | .test => s

/-- A write of MODE_CTL (R92): TARGET and CHG_IE lie in byte 0; in reset only CHG_IE takes effect (R95). -/
def State.modeWrite (s : State) (priv : Bool) (ben : BitVec 4) (chgIe : Bool) (f : State → State) : State :=
  s.portWrite priv 0x100 ben false (fun t =>
    if !(ben.getLsbD 0) then t
    else
      let u := { t with mode := { t.mode with chgIe := chgIe } }
      if u.mode.mode = .inReset then u else f u)

/-- TARGET_SERVICE (R94, R452). -/
def execTargetService (priv : Bool) (ben : BitVec 4) (chgIe : Bool) (s : State) : Result :=
  .next (s.modeWrite priv ben chgIe (fun t => t.aim .service))

/-- TARGET_DORMANT (R94). -/
def execTargetDormant (priv : Bool) (ben : BitVec 4) (chgIe : Bool) (s : State) : Result :=
  .next (s.modeWrite priv ben chgIe (fun t => t.aim .dormant))

/-- TARGET_DRAIN (R94, R95). -/
def execTargetDrain (priv : Bool) (ben : BitVec 4) (chgIe : Bool) (s : State) : Result :=
  .next (s.modeWrite priv ben chgIe (fun t => t.aim .drain))

/-- TARGET_MAINTENANCE (R94, R95). -/
def execTargetMaintenance (priv : Bool) (ben : BitVec 4) (chgIe : Bool) (s : State) : Result :=
  .next (s.modeWrite priv ben chgIe (fun t => t.aim .maintenance))

/-- TARGET_FOLLOWER (R94). -/
def execTargetFollower (priv : Bool) (ben : BitVec 4) (chgIe : Bool) (s : State) : Result :=
  .next (s.modeWrite priv ben chgIe (fun t => t.aim .follower))

/-- TARGET_RESERVED (R95). -/
def execTargetReserved (priv : Bool) (ben : BitVec 4) (chgIe : Bool) (s : State) : Result :=
  .next (s.modeWrite priv ben chgIe State.badReq)

/-! ### Drain (R97 to R103) -/

/-- DRAIN_COMPLETE (R101 to R103); FOLLOWER left for DORMANT completes once the fabric is idle. -/
def execDrainComplete (s : State) : Result :=
  .next (
    if s.draining ∧ s.drained then (if s.mode.target = .dormant then s.sleep else s.enterFollower)
    else if s.mode.mode = .follower ∧ s.mode.target = .dormant ∧ s.fabIdle then s.sleep
    else s)

/-- DRAIN_TMO_EXPIRY (R97, R102). -/
def execDrainTmoExpiry (s : State) : Result :=
  .next (if s.draining ∧ !s.mode.drainForced ∧ s.aon 0x10C % 2 ^ 24 ≠ 0 then s.drainExpire else s)

/-- DRAIN_TMO_WRITE (R97): a limit at or before the time elapsed since entry to DRAIN is reached at once. -/
def execDrainTmoWrite (priv : Bool) (ben : BitVec 4) (data : Word) (s : State) : Result :=
  .next (s.portWrite priv 0x10C ben false (fun t =>
    let u := t.rwAon 0x10C ben data
    let us := u.aon 0x10C % 2 ^ 24
    if u.draining ∧ !u.mode.drainForced ∧ us ≠ 0 ∧ us * 1000 ≤ u.now - u.mode.drainStart then u.drainExpire else u))

/-! ### Warm wake (R107, R111) -/

/-- WAKE_LANE_READY (R107): a cipher lane is ready; the unit stages go on with the units not yet tested. -/
def execWakeLaneReady (s : State) : Result :=
  .next (
    if s.mode.mode = .waking ∧ s.mode.fllLock ∧ (unitsOf .cipher).any (fun u => (s.unit u).power == .awake && (s.unit u).passed) then
      (s.enterServed.stageStart 9).pursue
    else s)

/-! ### ATTEST (R109 to R111, R426 to R429) -/

/-- ATTEST_A1_DONE (R109, R111): the forced safe state ends and phase A2 waits for the region, or reads it. `badSlots` and `badKeks` are
the retained records that failed their tile check. -/
def execAttestA1Done (pass : Bool) (badSlots badKeks : List Nat) (s : State) : Result :=
  .next (
    if s.mode.phase ≠ .a1 ∨ !s.mode.keySampled ∨ s.hw.dk.isNone then s
    else if !pass then s.quarantine
    else
      let t := { s with
        mode := { s.mode with phase := .a2Wait, safe := false }
        hw := { s.hw with badSlots := badSlots, badKeks := badKeks }
        persist := { s.persist with regionWait := true } }
      let t := t.fwStart
      if bitAt (t.blk 0xD08) 0 then t.readBanks else t)

/-- A bank as an instance with another device key finds it: CHECK does not match and no record unwraps (R400). -/
def State.seen (s : State) (b : BankRead) : BankRead :=
  { b with
    checkOk := b.checkOk && kdf256 b.dk (ascii "BNK") [] == s.devKey "BNK" []
    bodyOk := b.bodyOk && kdf256 b.dk (ascii "HWS") [] == s.hwsKey }

/-- The header of a bank is valid (R426). -/
def headed (b : BankRead) : Bool := b.readOk && b.checkOk && b.headerOk

/-- The bank selected (R426): the valid one with the higher SEQ; true is bank B. -/
def selectBank (a b : BankRead) : Option Bool :=
  let okA := headed a && a.bodyOk
  let okB := headed b && b.bodyOk
  if okA && okB then some (decide (a.seq < b.seq)) else if okA then some false else if okB then some true else none

/-- The highest SEQ of a header whose CHECK matched (R427). -/
def highSeq (a b : BankRead) : Option Nat :=
  match a.checkOk, b.checkOk with
  | true, true => some (max a.seq b.seq)
  | true, false => some a.seq
  | false, true => some b.seq
  | false, false => none

/-- SEQ before the first image (R427). -/
def seqBase (a b : BankRead) : Nat := (highSeq a b).elim (2 ^ 40 - 1) (fun n => 2 ^ 40 + n - 1)

def noImage : Image := ⟨PairId.reset, false, [], [], [], []⟩

/-- Slots of a bank with fresh identities. -/
def State.putSlots (s : State) (l : List (Nat × HwSlot)) : State :=
  l.foldl (fun t p =>
    if p.2.st = .empty then t
    else ({ t with hw := { t.hw with slots := Store.put t.hw.slots p.1 { p.2 with keyId := t.nextId, bad := false } } } : State).bump) s

/-- The Heartwood table of R428. -/
def State.restoreKeys (s : State) (img : Image) : State :=
  let empty := { s.hw with slots := [], keks := [], badSlots := [], badKeks := [] }
  if s.hw.alarm ∨ s.mode.fresh then { s with hw := empty }
  else if s.mode.afterAon then
    let t := ({ s with hw := empty } : State).putSlots img.slots
    { t with hw := { t.hw with keks := img.keks } }
  else
    let owned := img.parts.flatMap (·.slotMap)
    let bad := s.hw.badSlots
    let badKeks := s.hw.badKeks
    let held := fun (p : Nat) => img.parts.any (fun r => r.part == p)
    let t := { s with hw := { s.hw with
      slots := s.hw.slots.filter (fun x => owned.contains x.1 && !(bad.contains x.1))
      keks := (s.hw.keks.filter (fun k => held k.1 && !(badKeks.contains k.1)))
      retUsed := true, badSlots := [], badKeks := [] } }
    let t := t.putSlots (img.slots.filter (fun x => bad.contains x.1))
    let t := (img.keks.filter (fun k => badKeks.contains k.1)).foldl (fun (t : State) k =>
      { t with hw := { t.hw with keks := Store.put t.hw.keks k.1 k.2 } }) t
    badKeks.foldl (fun t p => t.send 0x48 0 (0x20000 + p)) (bad.foldl (fun t g => t.send 0x48 0 g) t)

/-- Ledger-bound slots whose account the history does not hold are marked (R279). -/
def State.markHistory (s : State) : State :=
  { s with hw := { s.hw with slots := Store.mapAll s.hw.slots (fun _ x =>
      if x.attr.ledger ∧ x.st = .valid ∧ (s.acctOf x).isNone then { x with st := .noHistory } else x) } }

/-- One of two banks is selected and restored, two images are due, and the unit stages begin (R426 to R429). -/
def State.takeBank (s : State) (a b : BankRead) : State :=
  let sel := selectBank a b
  let img := sel.elim noImage (fun k => if k then b.image else a.image)
  let t := { s with
    mode := { s.mode with phase := .a2Done, fresh := sel.isNone }
    parts := img.parts.foldl (fun (ps : Store Partition) (r : PartRec) => Store.put ps r.part (takePart none r)) []
    pair := { s.pair with ident := img.ident, acctWait := img.acctWait }
    ledger := { s.ledger with accts := img.accts.zipIdx.map (fun (x : Acct × Nat) => (x.2, x.1)), histRdy := true }
    persist := { s.persist with
      lastSeq := seqBase a b, ackSeq := sel.elim 0 (fun k => if k then b.seq else a.seq), ackBank := sel.getD true, selB := sel.getD false,
        boot := 2, dirtyA := allSections, dirtyB := allSections
      writeA := allSections, writeB := allSections, change := true } }
  let t := (t.restoreKeys img).markHistory
  let t := ({ t with mode := { t.mode with afterAon := false } } : State).linkCheck
  t.stageStart 9

/-- BANK_SELECT (R426): both banks have been read. -/
def execBankSelect (a b : BankRead) (s : State) : Result :=
  .next (
    if s.mode.phase ≠ .a2Read ∨ s.fab.any (fun t => t.purpose == .bankRead && t.phase != .held) then s
    else s.takeBank (s.seen a) (s.seen b))

/-- SERVICE or FOLLOWER is entered with the first cipher lane that passes (R94, R111). -/
def State.tryServe (s : State) : State :=
  if s.mode.mode = .attest ∧ s.mode.phase = .a2Done ∧ (unitsOf .cipher).any (fun u => (s.unit u).passed) then s.enterServed.pursue else s

/-- UNIT_STAGE_TEST_DONE (R110, R111): a unit of the running stage that passes enters service, one that fails is fenced; a stage whose
units are all tested is followed by the next. -/
def execUnitStageTestDone (unit : Nat) (pass : Bool) (s : State) : Result :=
  .next (
    let x := s.unit unit
    if !((stageUnits s.mode.stage).contains unit) ∨ 8 ≤ s.mode.stage ∨ ¬ (x.fltFence ∨ (x.work = .stageTest ∧ x.power = .awake)) then s
    else
      let t := if x.fltFence then s
        else if pass then s.updUnit unit (fun u => { u with passed := true, work := .idle, power := .gated, charge := none })
        else (s.updUnit unit (fun u => { u.eraseKey with fltFence := true, work := .idle, power := .gated, charge := none })).send unit 5 3
      let t := t.tryServe
      if (stageUnits t.mode.stage).all (fun u => (t.unit u).tested) then
        State.stageStart { t with mode := { t.mode with stage := t.mode.stage + 1 } } 9
      else t)

/-! ### The test access port (R88) -/

/-- The IEEE 1149.1 controller's next state. -/
def TapState.next (t : TapState) (tms : Bool) : TapState :=
  match t, tms with
  | .testLogicReset, true => .testLogicReset
  | .testLogicReset, false => .runTestIdle
  | .runTestIdle, false => .runTestIdle
  | .runTestIdle, true => .selectDr
  | .selectDr, false => .captureDr
  | .selectDr, true => .selectIr
  | .captureDr, false => .shiftDr
  | .captureDr, true => .exit1Dr
  | .shiftDr, false => .shiftDr
  | .shiftDr, true => .exit1Dr
  | .exit1Dr, false => .pauseDr
  | .exit1Dr, true => .updateDr
  | .pauseDr, false => .pauseDr
  | .pauseDr, true => .exit2Dr
  | .exit2Dr, false => .shiftDr
  | .exit2Dr, true => .updateDr
  | .updateDr, false => .runTestIdle
  | .updateDr, true => .selectDr
  | .selectIr, false => .captureIr
  | .selectIr, true => .testLogicReset
  | .captureIr, false => .shiftIr
  | .captureIr, true => .exit1Ir
  | .shiftIr, false => .shiftIr
  | .shiftIr, true => .exit1Ir
  | .exit1Ir, false => .pauseIr
  | .exit1Ir, true => .updateIr
  | .pauseIr, false => .pauseIr
  | .pauseIr, true => .exit2Ir
  | .exit2Ir, false => .shiftIr
  | .exit2Ir, true => .updateIr
  | .updateIr, false => .runTestIdle
  | .updateIr, true => .selectDr

/-- The bits of a number, least significant first. -/
def bitList (n len : Nat) : List Bool := (List.range len).map (bitAt n)

def bitsNat (l : List Bool) : Nat := l.foldr (fun b n => b2n b + 2 * n) 0

/-- IDCODE (R88). -/
def State.idcode (s : State) : Nat := 1 + 2 * (s.pins.testMfr % 2 ^ 11) + 2 ^ 12 * 0x0D48 + 2 ^ 28

/-- INSTR_ACCESS selects the instrument network (R88). -/
def State.instr (s : State) : Bool := s.jtag.ir == 8 && s.pins.testMode

/-- What Capture-DR loads. -/
def State.captured (s : State) : List Bool := if s.jtag.ir = 1 then bitList s.idcode 32 else if s.instr then [] else [false]

/-- The rising edge of TCK in a state: capture and shift. -/
def State.tckRise (s : State) (tdi : Bool) : Jtag :=
  let j := s.jtag
  match j.st with
  | .captureDr => { j with drSh := s.captured }
  | .shiftDr => { j with drSh := if s.instr then j.drSh ++ [tdi] else j.drSh.drop 1 ++ [tdi] }
  | .captureIr => { j with irSh := bitList 1 4 }
  | .shiftIr => { j with irSh := j.irSh.drop 1 ++ [tdi] }
  | _ => j

/-- TEST_ACCESS (R88): one cycle of TCK; TRST_N low resets the controller. TDO changes on the falling edge. -/
def execTestAccess (trstN tms tdi : Bool) (s : State) : Result :=
  .next (
    if !trstN then { s with jtag := { Jtag.reset with tdo := s.jtag.tdo } }
    else
      let j := s.tckRise tdi
      let st := j.st.next tms
      let ir := if st = .updateIr then bitsNat j.irSh % 16 else if st = .testLogicReset then 1 else j.ir
      let tdo := match st with
        | .shiftDr => if s.instr then Config.instrumentTdo j.drSh else j.drSh.headD false
        | .shiftIr => j.irSh.headD false
        | _ => j.tdo
      { s with jtag := { j with st := st, ir := ir, tdo := tdo } })

end Sys2Proof.Machine
end

