-- ==== Sys2Proof/Machine/Fabric.lean ====
section
/-! DEFINITION. The fabric ports (spec/02 R59 to R72): the meanings of FABRIC_COMMAND_TRANSFER, READ_RETURN_BEAT, WRITE_COMPLETION and
FABRIC_TIMEOUT, and what a read's data, a write's response or a failure does for the unit that issued it. -/

namespace Sys2Proof.Machine

/-! ### Tags and transactions -/

/-- Transactions on the port's tags, reads or writes. -/
def State.outstanding (s : State) (port : Nat) (w : Bool) : List Txn :=
  s.fab.filter (fun t => t.port == port && t.isWrite == w && t.phase != .presented)

/-- The lowest tag that no transaction of its kind uses on the port (R66). -/
def State.freeTag (s : State) (port : Nat) (w : Bool) : Option Nat :=
  let used := (s.outstanding port w).map (·.tag)
  (List.range (if w then 128 else 256)).find? (fun n => !(used.contains n))

/-- Transfer the first presented command of a list that has a tag. -/
def State.transfer (s : State) (port : Nat) : List Txn → Option (List Txn)
  | [] => none
  | t :: ts =>
    if t.port = port ∧ t.phase = .presented then
      match s.freeTag port t.isWrite with
      | some n => some ({ t with tag := n, phase := .issued } :: ts)
      | none => (s.transfer port ts).map (t :: ·)
    else (s.transfer port ts).map (t :: ·)

/-- FABRIC_COMMAND_TRANSFER (R60, R66): no new command is issued in reset, in the forced safe state or while CLK_FAB stands. -/
def execFabricCommandTransfer (port : Nat) (s : State) : Result :=
  .next (
    if !s.pins.fabClk ∨ !s.pins.blkRel ∨ s.mode.safe then s
    else (s.transfer port s.fab).elim s (fun f => { s with fab := f }))

/-- The transaction of a tag. -/
def State.txn (s : State) (port : Nat) (w : Bool) (tag : Nat) : Option Txn :=
  s.fab.find? (fun t => t.port == port && t.isWrite == w && t.tag == tag && t.phase != .presented)

/-- Replace or remove the transaction of a tag. -/
def State.setTxn (s : State) (port : Nat) (w : Bool) (tag : Nat) (f : Txn → Option Txn) : State :=
  { s with fab := s.fab.filterMap (fun t =>
      if t.port = port ∧ t.isWrite = w ∧ t.tag = tag ∧ t.phase ≠ .presented then f t else some t) }

/-- The mark, among a read's beats, that its failure has been reported. -/
def failMark : Nat := 1000

def Txn.marked (t : Txn) : Bool := t.got.any (fun b => b.1 == failMark)

def Txn.mark (t : Txn) : Txn := { t with got := Store.put t.got failMark [] }

/-- A beat carries this index already. -/
def Txn.has (t : Txn) (idx : Nat) : Bool := t.got.any (fun b => b.1 == idx)

/-- Every beat has arrived. -/
def Txn.full (t : Txn) : Bool := (List.range t.beats).all t.has

/-- The bytes that the read asked for (R61, R62). -/
def Txn.bytes (t : Txn) : Bytes := slice ((t.got.filter (fun b => b.1 != failMark)).map (·.2)).flatten (t.addr % 128) t.len

/-! ### What a read delivers, and what its failure does (R68) -/

/-- A queue's ring has failed: EN clears and the error vector is raised. In the forced safe state no completion and no message follows
(R89, R113). -/
def State.ringFail (s : State) (p q : Nat) (f : Queue → Queue) : State :=
  match s.queue p q with
  | none => s
  | some x =>
    if s.mode.safe then s.updQueue p q (fun y => f { y with en := false })
    else (((if x.en then s.disable p q else s).updQueue p q f).errEvent p)

/-- A read's bytes reach the unit that asked for them. -/
def State.readData (s : State) (pf : Purpose) (bs : Bytes) : State :=
  match pf with
  | .fetch p q v n => s.updQueue p q (fun x => x.gotSlots v n bs)
  | .srcList rid off => (s.updReq rid (fun r => { r with srcList := Store.put r.srcList off bs })).advance rid
  | .dstList rid off => (s.updReq rid (fun r => { r with dstList := Store.put r.dstList off bs })).advance rid
  | .src rid off => ((s.updReq rid (fun r => { r with src := Store.put r.src off bs })).produce rid).advance rid
  | .recd rid off =>
    let t := s.updReq rid (fun r => { r with recd := Store.put r.recd off bs })
    if (t.req rid).elim false (fun r => r.phase == .resuming) then t.recordRead rid true else t.advance rid
  | _ => s

/-- A request's read has failed: LOAD_KEK is refused, a CONTEXT_RESUME leaves its export live, any other request ends. -/
def State.readFail (s : State) (rid : Nat) : State :=
  match s.req rid with
  | none => s
  | some r =>
    if r.owner = .kek then (({ s.freeUnits r.units with reqs := Store.del s.reqs rid } : State).dropGrants rid).hwReject 4
    else if r.phase = .resuming then s.recordRead rid false
    else s.endReq rid St.accessFault 0x01

/-- A read has failed. -/
def State.readLost (s : State) (pf : Purpose) : State :=
  match pf with
  | .fetch p q _ _ => s.ringFail p q (fun x => { x with fetchErr := true })
  | .srcList rid _ | .dstList rid _ | .recd rid _ | .src rid _ => s.readFail rid
  | _ => s

/-! ### What a write's response does (R30, R64, R68) -/

/-- A failed output write takes the place of SUCCESS and of a failed tag check; a failed zero-fill that of any status (R68, R227, R229).
A request that ends for another cause keeps that cause (log entry 32). -/
def Req.writeFailed (r : Req) (detail : Nat) : Req :=
  if r.failed ∧ r.status ≠ St.authFail ∧ detail = 0x02 then r
  else { r with failed := true, status := St.accessFault, detail := detail, result := 0, tagBytes := [] }

/-- A request's output write is answered. One that fails ahead of the request's last cycle ends it at its next suspension point or command
boundary (R68, R229, R384). -/
def State.outWritten (s : State) (rid : Nat) (ok : Bool) (detail : Nat) : State :=
  let ending := (s.req rid).elim false (fun r => r.phase == .writing || r.phase == .tagWriting || r.phase == .zeroing)
  let t := if ok then s else if ending then s.updReq rid (·.writeFailed detail) else s.stopReq rid St.accessFault 0x02
  match t.req rid with
  | none => t
  | some r =>
    if !ending then t
    else if r.origOp = Opc.random ∧ !r.failed ∧ r.wrote < rndLen r.entry then (if t.writesOut rid then t else t.randomNext rid)
    else t.writesDone rid

/-- A write is answered, or has failed. -/
def State.written (s : State) (t : Txn) (ok : Bool) : State :=
  match t.purpose with
  | .out rid | .tagOut rid => s.outWritten rid ok 0x02
  | .zero rid => s.outWritten rid ok 0x03
  | .exp rid => s.exportWritten rid ok
  | .cmpl p q rid =>
    let u := if ok then s else s.ringFail p q (fun x => { x with cmplErr := true })
    rid.elim u (fun n => u.finishReq n ok)
  | .intr p _ => if ok then s else s.updPart p (fun x => { x with intrErr := true })
  | .sect seq _ => if ok then s.sectionWritten seq else s.imageFailed seq
  | .header seq => if ok then s.headerWritten seq else s.imageFailed seq
  | .sealRec k rseq =>
    match t.payload with
    | .bytes bs => (s.sealWritten k rseq (fld bs 0 1) ok).resetOn t.part
    | .internal _ _ _ _ _ => s
  | .fltRec eid => s.recordWritten eid ok
  | .telem => s.telWritten ok
  | _ => s

/-! ### The channels -/

/-- The data of a return is discarded while RST_BLK_N is low and in the forced safe state (R58, R89). With RST_BLK_N high a failure
sends its message and has the consequence of its class in the forced safe state too (R58, R68 to R70). -/
def State.discards (s : State) : Bool := !s.pins.blkRel || s.mode.safe

/-- A return for a tag that is not outstanding: discarded, and reported unless RST_BLK_N is low (R58, R69). -/
def State.stray (s : State) (port : Nat) : State := if s.pins.blkRel then s.send (0x40 + port) 1 0 else s

/-- One more beat of a read. -/
def State.beat (s : State) (port tag idx : Nat) (bs : Bytes) (bad : Bool) (t : Txn) : State :=
  let late := t.phase == .held
  let wrong := decide (t.beats ≤ idx) || t.has idx
  let told := late || t.marked || !s.pins.blkRel
  let u := if wrong then t else { t with got := Store.put t.got idx bs }
  let u := if (wrong || bad) && !late then u.mark else u
  let r := if (wrong || bad) && !told then s.send (0x40 + port) (if wrong then 1 else 4) t.addr else s
  if !u.full then r.setTxn port false tag (fun _ => some u)
  else
    let r := r.setTxn port false tag (fun _ => none)
    if late || !s.pins.blkRel then r
    else if u.marked then r.readLost u.purpose
    else if s.discards then r else r.readData u.purpose u.bytes

/-- READ_RETURN_BEAT (R62, R67 to R70). -/
def execReadReturnBeat (port tag idx : Nat) (data : BitVec 1024) (sts : BitVec 2) (s : State) : Result :=
  .next (
    if !s.pins.fabClk then s
    else
      match s.txn port false tag with
      | some t => s.beat port tag idx (leBytes 128 data.toNat) (sts != 0) t
      | none => s.stray port)

/-- WRITE_COMPLETION (R64, R67 to R70). -/
def execWriteCompletion (port tag : Nat) (sts : BitVec 2) (s : State) : Result :=
  .next (
    if !s.pins.fabClk then s
    else
      match s.txn port true tag with
      | none => s.stray port
      | some t =>
        let u := s.setTxn port true tag (fun _ => none)
        if t.phase = .held ∨ !s.pins.blkRel then u
        else if sts = 0 then (if s.discards then u else u.written t true)
        else (u.send (0x40 + port) 4 t.addr).written t false)

/-- FABRIC_TIMEOUT (R58, R70): the transaction fails and its tag is held. While RST_BLK_N is low the message alone follows; the fault
collector is in reset while RST_AON_N is low. -/
def execFabricTimeout (port : Nat) (isWrite : Bool) (tag : Nat) (s : State) : Result :=
  .next (match s.txn port isWrite tag with
    | none => s
    | some t =>
      if t.phase ≠ .issued then s
      else
        let u := s.setTxn port isWrite tag (fun x => some { x with phase := .held })
        let u := if t.marked ∨ !s.pins.aonRel then u else u.send (0x40 + port) 2 t.addr
        if !s.pins.blkRel then u else if isWrite then u.written t false else u.readLost t.purpose)

end Sys2Proof.Machine
end

