-- ==== Sys2Proof/Machine/RegWrite.lean ====
section
/-! DEFINITION. REG_WRITE: a write of the register port at any offset of the aperture (spec/01 R14, R16, spec/02 R73 to R77,
spec/19 R538 to R552, spec/20 R554 to R563). A register that has a row of its own is written as that row says; what is written out
here are the other registers: their RW fields, their W1C fields and the writes they ignore. -/

namespace Sys2Proof.Machine

/-- A flag with a W1C write (R14). -/
def w1c (b : Bool) (data : Word) (i : Nat) : Bool := b && !(data.getLsbD i)

/-! ### Global registers with W1C fields -/

/-- GLB_IRQ_SUM (R546): the latches. -/
def State.w1cIrq (s : State) (d : Word) : State :=
  { s with irq := { ledger := w1c s.irq.ledger d 2, persist := w1c s.irq.persist d 6, pair := w1c s.irq.pair d 7 } }

/-- INTR_ERR_LO and INTR_ERR_HI (R548): bit k of the word that begins at partition `base`. -/
def State.w1cIntr (s : State) (base : Nat) (d : Word) : State :=
  { s with parts := Store.mapAll s.parts (fun p (x : Partition) =>
      if base ≤ p ∧ p < base + 32 then { x with intrErr := w1c x.intrErr d (p - base) } else x) }

/-- MODE_STAT (R93). -/
def State.w1cMode (s : State) (d : Word) : State :=
  { s with mode := { s.mode with
      warmFail := w1c s.mode.warmFail d 10, chg := w1c s.mode.chg d 11, drainExp := w1c s.mode.drainExp d 12
      badReq := w1c s.mode.badReq d 13 } }

/-- GOV_STAT (R127). -/
def State.w1cGov (s : State) (d : Word) : State :=
  { s with gov := { s.gov with
      budgetRej := w1c s.gov.budgetRej d 2, timeout := w1c s.gov.timeout d 3, negTmo := w1c s.gov.negTmo d 4 } }

/-- LEDGER_STAT (R285). -/
def State.w1cLedger (s : State) (d : Word) : State :=
  { s with ledger := { s.ledger with
      exhaust := w1c s.ledger.exhaust d 2, acctFull := w1c s.ledger.acctFull d 3, leaseTmo := w1c s.ledger.leaseTmo d 4 } }

/-- LEDGER_PURGE (R287). -/
def State.w1cPurge (s : State) (d : Word) : State :=
  { s with ledger := { s.ledger with purgeRej := w1c s.ledger.purgeRej d 29, purgeDone := w1c s.ledger.purgeDone d 30 } }

/-- PERSIST_STAT (R431). -/
def State.w1cPersist (s : State) (d : Word) : State :=
  { s with persist := { s.persist with
      acked := w1c s.persist.acked d 0, lost := w1c s.persist.lost d 1, late := w1c s.persist.late d 2 } }

/-- PAIR_STAT (R459). -/
def State.w1cPair (s : State) (d : Word) : State :=
  { s with pair := { s.pair with
      linkChg := w1c s.pair.linkChg d 0, peerFault := w1c s.pair.peerFault d 1, authErr := w1c s.pair.authErr d 2
      idMismatch := w1c s.pair.idMismatch d 3, handover := w1c s.pair.handover d 5, cmdDone := w1c s.pair.cmdDone d 6
      cmdRej := w1c s.pair.cmdRej d 7 } }

/-- FLT_STAT (R499). -/
def State.w1cFlt (s : State) (d : Word) : State :=
  { s with flt := { s.flt with
      new := w1c s.flt.new d 0, errLatch := w1c s.flt.errLatch d 1, drop := w1c s.flt.drop d 4
      ringLost := w1c s.flt.ringLost d 5, dbErr := w1c s.flt.dbErr d 6 } }

/-- MBk_STAT (R462). -/
def Mbox.w1cStat (m : Mbox) (d : Word) : Mbox :=
  { m with lost := w1c m.lost d 2, overrun := w1c m.overrun d 3, goRej := w1c m.goRej d 4, wrRej := w1c m.wrRej d 5 }

/-- MBk_DATAj (R462): the words of an outbound mailbox are read-only, those of a FULL inbound one refuse the write. -/
def State.mbData (s : State) (k r : Nat) (ben : BitVec 4) (d : Word) : State :=
  if 4 ≤ k then s
  else if (s.box k).full then s.updBox k (fun m => { m with wrRej := true })
  else s.updBox k (fun m =>
    { m with data := (m.data.take r ++ leBytes 4 (mergeWord (wordOf (leNat (slice m.data r 4))) 0xFFFFFFFF ben d).toNat) ++ m.data.drop (r + 4) })

/-- The effect of a served write on a register without a row of its own. A register with RW fields alone needs no line: its fields
take the data, and an RO register or an unassigned offset takes nothing (R14, R16). -/
def State.globalEffect (s : State) (off : Nat) (ben : BitVec 4) (d : Word) : State :=
  match off with
  | 0x10 => s.w1cIrq d
  | 0x14 => s.w1cIntr 0 d
  | 0x18 => s.w1cIntr 32 d
  | 0x30 => { s with bg := { s.bg with calErr := w1c s.bg.calErr d 1 } }
  | 0x104 => s.w1cMode d
  | 0x108 => { s with mode := { s.mode with point := (mergeWord (wordOf s.mode.point) 3 ben d).toNat } }
  | 0x208 => (s.rwAon 0x208 ben d).negotiate
  | 0x20C => s.w1cGov d
  | 0x400 => s.cmdRw 0x400 s.pm.busy.isSome 0x10000 ben d
  | 0x420 => { s with pm := { s.pm with done := w1c s.pm.done d 0, rej := w1c s.pm.rej d 1 } }
  | 0x804 => (s.rwBlk 0x804 ben d).w1cLedger d
  | 0x80C => (s.cmdRw 0x80C s.ledger.purge.isSome 2 ben d).w1cPurge d
  | 0xA00 => { s with time := { s.time with held := mergeWord s.time.held 0xFFFFFFFF ben d } }
  | 0xA08 => { s with seals := { s.seals with ownRej := w1c s.seals.ownRej d 16 } }
  | 0xB00 =>
    let t := s.rwBlk 0xB00 ben d
    { t with rng := { t.rng with rctFail := w1c t.rng.rctFail d 3, aptFail := w1c t.rng.aptFail d 4 } }
  | 0xB14 => { s with bg := { s.bg with pkaCheckFail := w1c s.bg.pkaCheckFail d 8 } }
  | 0xC00 => s.cmdRw 0xC00 s.hw.op.isSome 0x40000000 ben d
  | 0xC0C => { s with hw := { s.hw with done := w1c s.hw.done d 0, rej := w1c s.hw.rej d 1 } }
  | 0xD00 | 0xD04 => if bitAt (s.blk 0xD08) 0 then s else s.rwAon off ben d
  | 0xD24 => s.w1cPersist d
  | 0xE00 => (s.rwAon 0xE00 ben d).linkCheck
  | 0xE08 => s.cmdRw 0xE08 s.pair.cmdWait.isSome 0 ben d
  | 0xE14 => s.w1cPair d
  | 0x1400 => { s with mbx := { s.mbx with dbStat := s.mbx.dbStat &&& ~~~d } }
  | 0x1C08 => s.w1cFlt d
  | 0x1C40 | 0x1C44 => if bitAt (s.blk 0x1C48) 8 then s else s.rwBlk off ben d
  | 0x1C48 => s.fltCfg ben d
  | 0x2000 => s.cmdRw 0x2000 s.bg.unitBusy.isSome 0x40000000 ben d
  | 0x2004 => { s with bg := { s.bg with unitDone := w1c s.bg.unitDone d 0, unitRej := w1c s.bg.unitRej d 1 } }
  | 0x2100 | 0x2104 => if bitAt (s.blk 0x2108) 8 then s else s.rwBlk off ben d
  | 0x2108 => s.telCfg ben d
  | 0x211C => { s with bg := { s.bg with telDbErr := w1c s.bg.telDbErr d 0 } }
  | _ =>
    if 0x1000 ≤ off ∧ off < 0x1400 then
      let k := (off - 0x1000) / 0x80
      let r := off % 0x80
      if r < 0x40 then s.mbData k r ben d
      else if r = 0x44 then s.updBox k (fun m => m.w1cStat d)
      else s
    else if 0x1800 ≤ off ∧ off < 0x1C00 then s.rctWrite ((off - 0x1800) / 4) ben d
    else if isAonReg off then s.rwAon off ben d
    else s.rwBlk off ben d

/-- A write to MODE_CTL by the value of its TARGET (R92). -/
def State.writeModeCtl (s : State) (priv : Bool) (ben : BitVec 4) (d : Word) : Result :=
  let ie := d.getLsbD 4
  match d.toNat % 8 with
  | 0 => execTargetService priv ben ie s
  | 1 => execTargetDormant priv ben ie s
  | 2 => execTargetDrain priv ben ie s
  | 3 => execTargetMaintenance priv ben ie s
  | 4 => execTargetFollower priv ben ie s
  | _ => execTargetReserved priv ben ie s

/-- A write at an offset of the global page. A write of a command register with OP 0 starts nothing (R173, R411, R457, R516). -/
def State.globalWrite (s : State) (priv : Bool) (ben : BitVec 4) (off : Nat) (d : Word) : Result :=
  let plain : Result := .next (s.portWrite priv off ben (isW1c off) (fun t => t.globalEffect off ben d))
  let n := d.toNat
  match off with
  | 0x100 => s.writeModeCtl priv ben d
  | 0x10C => execDrainTmoWrite priv ben d s
  | 0x200 => execGovBudgetWrite priv ben d s
  | 0x400 =>
    match bitsAt n 8 2 with
    | 1 => execPmCreate priv ben d s
    | 2 => execPmDestroy priv ben d s
    | 3 => execPmReset priv ben d s
    | _ => plain
  | 0x80C => if d.getLsbD 0 then execLedgerPurgeGo priv ben d s else plain
  | 0xA04 => execSealTimeHiWrite priv ben d s
  | 0xB04 => execReseed priv ben d s
  | 0xC00 =>
    match n % 8 with
    | 0 => plain
    | 1 => execLoadKek priv ben d s
    | 2 => execEraseSlot priv ben d s
    | 3 => execZeroisePart priv ben d s
    | 4 => execZeroise priv ben d s
    | _ => execHwCmdUndefinedOp priv ben d s
  | 0xD08 => execPersistCtlEnWrite priv ben d s
  | 0xD1C => execPersistAck priv ben d s
  | 0xD20 => execPersistNak priv ben d s
  | 0xE08 =>
    match n % 4 with
    | 1 => execSetIdentity priv ben d s
    | 2 => execUnpair priv ben d s
    | 3 => execRetrain priv ben d s
    | _ => plain
  | 0x1408 => execDbSet priv ben d s
  | 0x140C => execMbxHostRestart priv ben d s
  | 0x1C04 => execFltLockWrite priv ben d s
  | 0x1C14 => if d.getLsbD 0 then execFaultLogRelease priv ben d s else plain
  | 0x1C4C => execFltRingDb priv ben d s
  | 0x2000 =>
    match bitsAt n 8 2 with
    | 1 => execUnitFence priv ben d s
    | 2 => execUnitTest priv ben d s
    | 3 => execUnitUnfence priv ben d s
    | _ => plain
  | 0x2114 => execTelemDb priv ben d s
  | _ =>
    if inRow off 0xA40 4 16 then execTapOwnWrite priv ben ((off - 0xA40) / 4) d s
    else if inRow off 0x1040 0x80 8 then execMbGo priv ben ((off - 0x1040) / 0x80) d s
    else plain

/-! ### Partition pages -/

/-- A write of an admin ring register (R184): ignored while queue 0 is enabled. -/
def State.admWrite (s : State) (p off : Nat) (ben : BitVec 4) (d : Word) : State :=
  if (s.queue p 0).elim false (·.en) then s
  else
    let t := s.updPart p (fun x => x.rw off ben d)
    t.updPart p (fun x => { x with queues := Store.upd x.queues 0 (fun q => { q with cfg := x.adminCfg q.cfg }) })

/-- An export of the partition is in progress. -/
def State.exportsOf (s : State) (p : Nat) : Bool := s.reqs.any (fun r => r.2.part == p && r.2.phase == ReqPhase.exporting)

/-- A write of an export register (R255). -/
def State.expWrite (s : State) (p off : Nat) (ben : BitVec 4) (d : Word) : State :=
  if s.exportsOf p ∨ (s.part p).elim false (fun x => !x.live.isEmpty) then s.updPart p (fun x => { x with expCfgErr := true })
  else s.updPart p (fun x => x.rw off ben d)

/-- Q_STAT (R165). -/
def Queue.w1cStat (q : Queue) (d : Word) : Queue :=
  { q with fetchErr := w1c q.fetchErr d 1, dbErr := w1c q.dbErr d 3, invalErr := w1c q.invalErr d 4, pushRej := w1c q.pushRej d 5 }

/-- The effect of a served write on a register of partition p's page without a row of its own. -/
def State.pageEffect (s : State) (p off : Nat) (ben : BitVec 4) (d : Word) : State :=
  match off with
  | 0x0 => s.updPart p (fun x => x.rw 0 ben d)
  | 0x4 => s.updPart p (fun x =>
      { x with intrErr := w1c x.intrErr d 0, admCfgErr := w1c x.admCfgErr d 2, urgDeny := w1c x.urgDeny d 3 })
  | 0x20 | 0x24 | 0x28 | 0x2C | 0x30 => s.admWrite p off ben d
  | 0x600 | 0x604 | 0x608 => s.expWrite p off ben d
  | 0x60C => s.updPart p (fun x =>
      { x with expFull := w1c x.expFull d 16, expFail := w1c x.expFail d 17, expCfgErr := w1c x.expCfgErr d 18 })
  | 0xC08 => s.updPart p (fun x =>
      { x with rf := { x.rf with underrun := w1c x.rf.underrun d 12, tileErr := w1c x.rf.tileErr d 13 } })
  | _ =>
    if inRow off 0x104 8 64 then s.updQueue p ((off - 0x104) / 8) (fun q => q.w1cStat d)
    else if 0x400 ≤ off ∧ off < 0x600 then
      if (s.part p).elim true (fun x => decide (x.assign.vectors ≤ (off - 0x400) / 16)) then s
      else s.updPart p (fun x => x.rw off ben d)
    else if inRow off 0x1004 16 64 then
      let k := (off - 0x1004) / 16
      if (s.streamOf p k).isSome then s.updStream k (fun t => { t with dbErr := w1c t.dbErr d 4 }) else s
    else s

/-- Whether a write at a page offset needs every byte enabled (R75): a register with a W1C field; a stream that the partition has not
bound ignores the write instead. -/
def State.pageNeedsAll (s : State) (p off : Nat) : Bool :=
  isPartW1c off || inRow off 0x104 8 64 || (inRow off 0x1004 16 64 && (s.streamOf p ((off - 0x1004) / 16)).isSome)

/-- A write at an offset of partition p's page. -/
def State.pageWrite (s : State) (ben : BitVec 4) (p off : Nat) (d : Word) : Result :=
  if inRow off 0x100 8 64 then execQCtlWrite p ((off - 0x100) / 8) ben d s
  else if inRow off 0x40C 16 32 then execVecCtlWrite p ((off - 0x40C) / 16) ben d s
  else if inRow off 0x800 16 64 then execSqDb p ((off - 0x800) / 16) ben d s
  else if inRow off 0x804 16 64 then execCqDb p ((off - 0x804) / 16) ben d s
  else if inRow off 0x808 16 64 then execInval p ((off - 0x808) / 16) ben d s
  else if inRow off 0x1000 16 64 then execSealDb p ((off - 0x1000) / 16) ben d s
  else if off = 0x38 then execVecMset p ben d s
  else if off = 0x3C then execVecMclr p ben d s
  else if off = 0xC04 then .next (s.rfCtl p ben d)
  else if 0x2000 ≤ off then .next (s.pushWrite p ((off - 0x2000) / 512) ((off - 0x2000) % 512 / 4) ben d)
  else .next (s.portWrite false (pageAt p off) ben (s.pageNeedsAll p off) (fun t => t.pageEffect p off ben d))

/-- REG_WRITE (R14). -/
def execRegWrite (priv : Bool) (ben : BitVec 4) (off : Nat) (data : Word) (s : State) : Result :=
  if off < 0x10000 then s.globalWrite priv ben off data
  else if off < 0x110000 then s.pageWrite ben (pageOf off) (pageOff off) data
  else .next (s.portWrite priv off ben false (fun t => t))

end Sys2Proof.Machine
end

