-- ==== Sys2Proof/Machine/Dispatch.lean ====
section
/-! DEFINITION. What each command does: one arm per constructor, each a direct call of its meaning. -/

namespace Sys2Proof.Machine

def exec (i : Instr) (s : State) : Host.Outcome State Fault Refusal :=
  match i with
  | .rstAonNAssert => Sys2Proof.Machine.execRstAonNAssert s
  | .rstAonNRelease aonFreq opptBoot testMfr => Sys2Proof.Machine.execRstAonNRelease aonFreq opptBoot testMfr s
  | .rstBlkNAssert => Sys2Proof.Machine.execRstBlkNAssert s
  | .rstBlkNRelease => Sys2Proof.Machine.execRstBlkNRelease s
  | .fllLock imageOk => Sys2Proof.Machine.execFllLock imageOk s
  | .fllLockTimeout => Sys2Proof.Machine.execFllLockTimeout s
  | .testModeRise => Sys2Proof.Machine.execTestModeRise s
  | .tamperRegistered k => Sys2Proof.Machine.execTamperRegistered k s
  | .rootKeyVldRise key => Sys2Proof.Machine.execRootKeyVldRise key s
  | .rootKeyVldFall => Sys2Proof.Machine.execRootKeyVldFall s
  | .rootKeyTimeout => Sys2Proof.Machine.execRootKeyTimeout s
  | .corePwrGoodRise => Sys2Proof.Machine.execCorePwrGoodRise s
  | .pwrGntRise => Sys2Proof.Machine.execPwrGntRise s
  | .pwrGntFall => Sys2Proof.Machine.execPwrGntFall s
  | .pwrNegTimeout => Sys2Proof.Machine.execPwrNegTimeout s
  | .pwrHoldExpiry => Sys2Proof.Machine.execPwrHoldExpiry s
  | .rlkPhyRdyChange level => Sys2Proof.Machine.execRlkPhyRdyChange level s
  | .readReturnBeat port tag idx data sts => Sys2Proof.Machine.execReadReturnBeat port tag idx data sts s
  | .writeCompletion port tag sts => Sys2Proof.Machine.execWriteCompletion port tag sts s
  | .fabricTimeout port isWrite tag => Sys2Proof.Machine.execFabricTimeout port isWrite tag s
  | .regWrite priv ben off data => Sys2Proof.Machine.execRegWrite priv ben off data s
  | .sealTimeLoRead priv => Sys2Proof.Machine.execSealTimeLoRead priv s
  | .sealTimeHiWrite priv ben data => Sys2Proof.Machine.execSealTimeHiWrite priv ben data s
  | .persistPendLoRead priv last => Sys2Proof.Machine.execPersistPendLoRead priv last s
  | .targetService priv ben chgIe => Sys2Proof.Machine.execTargetService priv ben chgIe s
  | .targetDormant priv ben chgIe => Sys2Proof.Machine.execTargetDormant priv ben chgIe s
  | .targetDrain priv ben chgIe => Sys2Proof.Machine.execTargetDrain priv ben chgIe s
  | .targetMaintenance priv ben chgIe => Sys2Proof.Machine.execTargetMaintenance priv ben chgIe s
  | .targetFollower priv ben chgIe => Sys2Proof.Machine.execTargetFollower priv ben chgIe s
  | .targetReserved priv ben chgIe => Sys2Proof.Machine.execTargetReserved priv ben chgIe s
  | .drainComplete => Sys2Proof.Machine.execDrainComplete s
  | .drainTmoExpiry => Sys2Proof.Machine.execDrainTmoExpiry s
  | .drainTmoWrite priv ben data => Sys2Proof.Machine.execDrainTmoWrite priv ben data s
  | .wakeLaneReady => Sys2Proof.Machine.execWakeLaneReady s
  | .attestA1Done pass badSlots badKeks => Sys2Proof.Machine.execAttestA1Done pass badSlots badKeks s
  | .persistCtlEnWrite priv ben data => Sys2Proof.Machine.execPersistCtlEnWrite priv ben data s
  | .bankSelect a b => Sys2Proof.Machine.execBankSelect a b s
  | .unitStageTestDone unit pass => Sys2Proof.Machine.execUnitStageTestDone unit pass s
  | .grantIssue => Sys2Proof.Machine.execGrantIssue s
  | .grantTimeoutExpiry gid => Sys2Proof.Machine.execGrantTimeoutExpiry gid s
  | .idleGateExpiry unit => Sys2Proof.Machine.execIdleGateExpiry unit s
  | .unitWakeReady unit => Sys2Proof.Machine.execUnitWakeReady unit s
  | .govBudgetWrite priv ben data => Sys2Proof.Machine.execGovBudgetWrite priv ben data s
  | .sqDb part q ben data => Sys2Proof.Machine.execSqDb part q ben data s
  | .cqDb part q ben data => Sys2Proof.Machine.execCqDb part q ben data s
  | .inval part q ben data => Sys2Proof.Machine.execInval part q ben data s
  | .pushWordWrite part win word ben data => Sys2Proof.Machine.execPushWordWrite part win word ben data s
  | .pushTake part win pos data => Sys2Proof.Machine.execPushTake part win pos data s
  | .qCtlWrite part q ben data => Sys2Proof.Machine.execQCtlWrite part q ben data s
  | .entryFetchDone part q => Sys2Proof.Machine.execEntryFetchDone part q s
  | .admitEntry part q => Sys2Proof.Machine.execAdmitEntry part q s
  | .placeRequest kind => Sys2Proof.Machine.execPlaceRequest kind s
  | .urgentWindowExpiry part => Sys2Proof.Machine.execUrgentWindowExpiry part s
  | .stagingReserved => Sys2Proof.Machine.execStagingReserved s
  | .requestUnitDone rid cycles bad => Sys2Proof.Machine.execRequestUnitDone rid cycles bad s
  | .cipher rid => Sys2Proof.Machine.execCipher rid s
  | .aead rid => Sys2Proof.Machine.execAead rid s
  | .xts rid => Sys2Proof.Machine.execXts rid s
  | .mac rid => Sys2Proof.Machine.execMac rid s
  | .groveFormed rid => Sys2Proof.Machine.execGroveFormed rid s
  | .segmentDone rid lane => Sys2Proof.Machine.execSegmentDone rid lane s
  | .suspendCapture rid blocks cycles => Sys2Proof.Machine.execSuspendCapture rid blocks cycles s
  | .exportDone rid => Sys2Proof.Machine.execExportDone rid s
  | .contextResume rid => Sys2Proof.Machine.execContextResume rid s
  | .contextDiscard rid => Sys2Proof.Machine.execContextDiscard rid s
  | .contextUnwrapDone rid => Sys2Proof.Machine.execContextUnwrapDone rid s
  | .digest rid => Sys2Proof.Machine.execDigest rid s
  | .hmac rid => Sys2Proof.Machine.execHmac rid s
  | .keyUnwrap rid => Sys2Proof.Machine.execKeyUnwrap rid s
  | .keyUnwrapErase rid => Sys2Proof.Machine.execKeyUnwrapErase rid s
  | .keyDerive rid => Sys2Proof.Machine.execKeyDerive rid s
  | .keyExport rid => Sys2Proof.Machine.execKeyExport rid s
  | .pkaSign rid => Sys2Proof.Machine.execPkaSign rid s
  | .pkaVerify rid => Sys2Proof.Machine.execPkaVerify rid s
  | .pkaAgree rid => Sys2Proof.Machine.execPkaAgree rid s
  | .pkaPubkey rid => Sys2Proof.Machine.execPkaPubkey rid s
  | .pkaEncrypt rid => Sys2Proof.Machine.execPkaEncrypt rid s
  | .pkaDecrypt rid => Sys2Proof.Machine.execPkaDecrypt rid s
  | .drbgDrawDone rid => Sys2Proof.Machine.execDrbgDrawDone rid s
  | .wmacList rid => Sys2Proof.Machine.execWmacList rid s
  | .random rid => Sys2Proof.Machine.execRandom rid s
  | .fence rid => Sys2Proof.Machine.execFence rid s
  | .sealClose rid => Sys2Proof.Machine.execSealClose rid s
  | .pageSeal rid => Sys2Proof.Machine.execPageSeal rid s
  | .pageSealVerify rid => Sys2Proof.Machine.execPageSealVerify rid s
  | .createQueue rid => Sys2Proof.Machine.execCreateQueue rid s
  | .destroyQueue rid => Sys2Proof.Machine.execDestroyQueue rid s
  | .destroyQueueIdle rid => Sys2Proof.Machine.execDestroyQueueIdle rid s
  | .queueInfo rid => Sys2Proof.Machine.execQueueInfo rid s
  | .setQos rid => Sys2Proof.Machine.execSetQos rid s
  | .bindTap rid => Sys2Proof.Machine.execBindTap rid s
  | .unbindTap rid => Sys2Proof.Machine.execUnbindTap rid s
  | .slotInfo rid => Sys2Proof.Machine.execSlotInfo rid s
  | .partitionReset rid => Sys2Proof.Machine.execPartitionReset rid s
  | .partResetFabricIdle part => Sys2Proof.Machine.execPartResetFabricIdle part s
  | .pmCreate priv ben data => Sys2Proof.Machine.execPmCreate priv ben data s
  | .pmDestroy priv ben data => Sys2Proof.Machine.execPmDestroy priv ben data s
  | .pmReset priv ben data => Sys2Proof.Machine.execPmReset priv ben data s
  | .loadKek priv ben data => Sys2Proof.Machine.execLoadKek priv ben data s
  | .eraseSlot priv ben data => Sys2Proof.Machine.execEraseSlot priv ben data s
  | .zeroisePart priv ben data => Sys2Proof.Machine.execZeroisePart priv ben data s
  | .zeroise priv ben data => Sys2Proof.Machine.execZeroise priv ben data s
  | .hwCmdUndefinedOp priv ben data => Sys2Proof.Machine.execHwCmdUndefinedOp priv ben data s
  | .ledgerPurgeGo priv ben data => Sys2Proof.Machine.execLedgerPurgeGo priv ben data s
  | .unitFence priv ben data => Sys2Proof.Machine.execUnitFence priv ben data s
  | .unitFenceEffect => Sys2Proof.Machine.execUnitFenceEffect s
  | .unitTest priv ben data => Sys2Proof.Machine.execUnitTest priv ben data s
  | .unitTestDone pass => Sys2Proof.Machine.execUnitTestDone pass s
  | .unitUnfence priv ben data => Sys2Proof.Machine.execUnitUnfence priv ben data s
  | .setIdentity priv ben data => Sys2Proof.Machine.execSetIdentity priv ben data s
  | .unpair priv ben data => Sys2Proof.Machine.execUnpair priv ben data s
  | .retrain priv ben data => Sys2Proof.Machine.execRetrain priv ben data s
  | .reseed priv ben data => Sys2Proof.Machine.execReseed priv ben data s
  | .entropyHealthFail apt => Sys2Proof.Machine.execEntropyHealthFail apt s
  | .entropyStartupDone => Sys2Proof.Machine.execEntropyStartupDone s
  | .reseedDue => Sys2Proof.Machine.execReseedDue s
  | .reseedSamplesDone => Sys2Proof.Machine.execReseedSamplesDone s
  | .entropyWaitTimeout rid => Sys2Proof.Machine.execEntropyWaitTimeout rid s
  | .leaseLive acct => Sys2Proof.Machine.execLeaseLive acct s
  | .leaseWaitTimeout rid => Sys2Proof.Machine.execLeaseWaitTimeout rid s
  | .leaseIdleExpiry acct => Sys2Proof.Machine.execLeaseIdleExpiry acct s
  | .imageStart => Sys2Proof.Machine.execImageStart s
  | .persistAck priv ben data => Sys2Proof.Machine.execPersistAck priv ben data s
  | .persistNak priv ben data => Sys2Proof.Machine.execPersistNak priv ben data s
  | .persistAckTimeout => Sys2Proof.Machine.execPersistAckTimeout s
  | .persistRetryExpiry => Sys2Proof.Machine.execPersistRetryExpiry s
  | .batchExpiry => Sys2Proof.Machine.execBatchExpiry s
  | .tapHeaderBeat tap data mrk => Sys2Proof.Machine.execTapHeaderBeat tap data mrk s
  | .tapDataBeat tap data mrk => Sys2Proof.Machine.execTapDataBeat tap data mrk s
  | .tapEofBeat tap data mrk => Sys2Proof.Machine.execTapEofBeat tap data mrk s
  | .tapAbortBeat tap data mrk => Sys2Proof.Machine.execTapAbortBeat tap data mrk s
  | .frameChainStep stream badTile => Sys2Proof.Machine.execFrameChainStep stream badTile s
  | .frameSealTimeout stream => Sys2Proof.Machine.execFrameSealTimeout stream s
  | .checkpointDue stream => Sys2Proof.Machine.execCheckpointDue stream s
  | .checkpointDone stream => Sys2Proof.Machine.execCheckpointDone stream s
  | .sealDb part stream ben data => Sys2Proof.Machine.execSealDb part stream ben data s
  | .tapOwnWrite priv ben tap data => Sys2Proof.Machine.execTapOwnWrite priv ben tap data s
  | .rfDataRead part badTile => Sys2Proof.Machine.execRfDataRead part badTile s
  | .rfRewind part ben data => Sys2Proof.Machine.execRfRewind part ben data s
  | .rfRelease part ben data => Sys2Proof.Machine.execRfRelease part ben data s
  | .rfMark part ben data => Sys2Proof.Machine.execRfMark part ben data s
  | .vecCtlWrite part vec ben data => Sys2Proof.Machine.execVecCtlWrite part vec ben data s
  | .vecMset part ben data => Sys2Proof.Machine.execVecMset part ben data s
  | .vecMclr part ben data => Sys2Proof.Machine.execVecMclr part ben data s
  | .vectorCoalExpiry part vec => Sys2Proof.Machine.execVectorCoalExpiry part vec s
  | .mbGo priv ben mb data => Sys2Proof.Machine.execMbGo priv ben mb data s
  | .mbDone priv ben mb data => Sys2Proof.Machine.execMbDone priv ben mb data s
  | .mbTake pair => Sys2Proof.Machine.execMbTake pair s
  | .mbReplyPost pair => Sys2Proof.Machine.execMbReplyPost pair s
  | .echo pair => Sys2Proof.Machine.execEcho pair s
  | .fwInfo pair => Sys2Proof.Machine.execFwInfo pair s
  | .acctQuery pair => Sys2Proof.Machine.execAcctQuery pair s
  | .partUsage pair => Sys2Proof.Machine.execPartUsage pair s
  | .patchStage pair => Sys2Proof.Machine.execPatchStage pair s
  | .mbxHostRestart priv ben data => Sys2Proof.Machine.execMbxHostRestart priv ben data s
  | .dbSet priv ben data => Sys2Proof.Machine.execDbSet priv ben data s
  | .faultMessage src kind addr => Sys2Proof.Machine.execFaultMessage src kind addr s
  | .watchdogExpiry src addr => Sys2Proof.Machine.execWatchdogExpiry src addr s
  | .faultForce priv ben src data => Sys2Proof.Machine.execFaultForce priv ben src data s
  | .fltLockWrite priv ben data => Sys2Proof.Machine.execFltLockWrite priv ben data s
  | .faultLogRelease priv ben data => Sys2Proof.Machine.execFaultLogRelease priv ben data s
  | .faultRecordDue => Sys2Proof.Machine.execFaultRecordDue s
  | .fltRingDb priv ben data => Sys2Proof.Machine.execFltRingDb priv ben data s
  | .fltRingEnable priv ben data => Sys2Proof.Machine.execFltRingEnable priv ben data s
  | .scrubTile store sub tile ok again => Sys2Proof.Machine.execScrubTile store sub tile ok again s
  | .calibration count => Sys2Proof.Machine.execCalibration count s
  | .telemetryWindow => Sys2Proof.Machine.execTelemetryWindow s
  | .telemDb priv ben data => Sys2Proof.Machine.execTelemDb priv ben data s
  | .telemEnable priv ben data => Sys2Proof.Machine.execTelemEnable priv ben data s
  | .rlkBlockRx lane marker crcOk payload => Sys2Proof.Machine.execRlkBlockRx lane marker crcOk payload s
  | .trainRx mask ready => Sys2Proof.Machine.execTrainRx mask ready s
  | .linkResetDone => Sys2Proof.Machine.execLinkResetDone s
  | .alignTimeout => Sys2Proof.Machine.execAlignTimeout s
  | .authTimeout => Sys2Proof.Machine.execAuthTimeout s
  | .blockedExpiry => Sys2Proof.Machine.execBlockedExpiry s
  | .authFrameRx header payload tag => Sys2Proof.Machine.execAuthFrameRx header payload tag s
  | .leaseGraft gseq fp epoch lgid inst hwm => Sys2Proof.Machine.execLeaseGraft gseq fp epoch lgid inst hwm s
  | .retireGraft gseq fp epoch lgid inst => Sys2Proof.Machine.execRetireGraft gseq fp epoch lgid inst s
  | .purgeGraft gseq ids => Sys2Proof.Machine.execPurgeGraft gseq ids s
  | .slotGraft gseq slot rec => Sys2Proof.Machine.execSlotGraft gseq slot rec s
  | .eraseGraft gseq scope => Sys2Proof.Machine.execEraseGraft gseq scope s
  | .kekGraft gseq part kek => Sys2Proof.Machine.execKekGraft gseq part kek s
  | .partGraft gseq part rec => Sys2Proof.Machine.execPartGraft gseq part rec s
  | .queueGraft gseq rec => Sys2Proof.Machine.execQueueGraft gseq rec s
  | .identGraft gseq ident => Sys2Proof.Machine.execIdentGraft gseq ident s
  | .snapGraft gseq snap => Sys2Proof.Machine.execSnapGraft gseq snap s
  | .snapEndGraft gseq count => Sys2Proof.Machine.execSnapEndGraft gseq count s
  | .handoverGraft gseq => Sys2Proof.Machine.execHandoverGraft gseq s
  | .ackFrameRx gseq => Sys2Proof.Machine.execAckFrameRx gseq s
  | .nakFrameRx gseq => Sys2Proof.Machine.execNakFrameRx gseq s
  | .heartbeatRx => Sys2Proof.Machine.execHeartbeatRx s
  | .heartbeatDue => Sys2Proof.Machine.execHeartbeatDue s
  | .graftRetxExpiry => Sys2Proof.Machine.execGraftRetxExpiry s
  | .linkTmoExpiry => Sys2Proof.Machine.execLinkTmoExpiry s
  | .corePwrGoodFall => Sys2Proof.Machine.execCorePwrGoodFall s
  | .testModeFall => Sys2Proof.Machine.execTestModeFall s
  | .powerLoss => Sys2Proof.Machine.execPowerLoss s
  | .clkFabStop => Sys2Proof.Machine.execClkFabStop s
  | .clkFabRestart => Sys2Proof.Machine.execClkFabRestart s
  | .testAccess trstN tms tdi => Sys2Proof.Machine.execTestAccess trstN tms tdi s
  | .fabricCommandTransfer port => Sys2Proof.Machine.execFabricCommandTransfer port s

end Sys2Proof.Machine
end

