-- ==== Sys2Proof/Safety.lean ====
section
/-! DEFINITION. What a safe state is: the stores keep their canonical form, and the invariant that every step keeps. -/

namespace Sys2Proof.Machine

/-- Every store of the state has rising keys, and its RAMs list no zero byte. -/
def State.storesOk (s : State) : Bool :=
  Store.wf s.regsAon && Store.wf s.regsBlk && Store.wf s.units && Store.wf s.parts && Store.wf s.reqs
    && Store.wf s.hw.slots && Store.wf s.hw.keks && Store.wf s.ledger.accts && Store.wf s.seals.streams
    && Store.wf s.seals.opened && Store.wf s.flt.log

/-- The invariant of every step: the units are those that are built (spec/18 R538), RST_BLK_N is high only while RST_AON_N is
(spec/02 R54, R57), and SEAL_TIME is a 64-bit counter (spec/10 R339). -/
def State.Inv (s : State) : Prop :=
  s.units.map Prod.fst = unitNumbers ∧ (s.pins.blkRel = true → s.pins.aonRel = true) ∧ s.time.ns < 2 ^ 64

end Sys2Proof.Machine
end

