-- ==== Sys2Proof/Certificates/Slice0/Obligations.lean ====
section
/-! DEFINITION. The statements about the model: whole-machine rules first, then for every family of commands where each command
completes, what it does and what it leaves alone. `s.pins.fabClk` and `s.portErr …` are the conditions of R45, R77 and R490 under
which the register port serves an access; `s.pins.aonRel` says that RST_AON_N is high, while it is low the registers stay in reset. -/

open Sys2Proof Sys2Proof.Machine

/-! ### The block as a whole -/

/-- The command at the front of the queue takes effect on the state with the queue's rest. -/
def Obligations.StepRunsFrontCommand : Prop :=
  ∀ (c : Instr) (cs : List Instr) (s : State), s.pending = c :: cs → step s = exec c { s with pending := cs }

/-- An empty queue lets one CLK_AON cycle pass: SEAL_TIME advances by 10^5 / AON_FREQ ns with the fraction carried forward (R339), and
nothing else changes but the model's own elapsed time; with RST_AON_N low nothing changes. That a cycle passes on an empty queue is the
model's choice (log entry 2). -/
def Obligations.IdleStepCountsSealTime : Prop :=
  ∀ s : State, s.pending = [] →
    (s.pins.aonRel = true → s.pins.aonFreq ≠ 0 → ∃ t, step s = .next t ∧
      t.time.ns = (s.time.ns + (100000 + s.time.frac) / s.pins.aonFreq) % 2 ^ 64 ∧
      t.time.frac = (100000 + s.time.frac) % s.pins.aonFreq ∧
      t = { s with time := { s.time with ns := t.time.ns, frac := t.time.frac }, now := t.now }) ∧
    (s.pins.aonRel = false → step s = .next s)

/-- Every command completes with a next state and leaves the queue of waiting commands alone. -/
def Obligations.EveryCommandCompletesAndKeepsQueue : Prop :=
  ∀ (c : Instr) (s : State), ∃ t, exec c s = .next t ∧ t.pending = s.pending

/-- Every step, from any state that meets the invariant, gives a state that meets it. -/
def Obligations.StepKeepsInvariant : Prop :=
  ∀ s t : State, s.Inv → step s = .next t → t.Inv

/-- The state with both resets asserted meets the invariant. -/
def Obligations.ResetMeetsInvariant : Prop := State.reset.Inv

/-- Only the reset commands and the loss of the supplies move the reset pins (R54 to R57). No command but a write of SEAL_TIME_HI (under
either of its commands), RST_AON_N and the loss of the supplies sets SEAL_TIME (R339). No command but TEST_ACCESS moves the test access
port (R88). -/
def Obligations.OnlyNamedCommandsMove : Prop :=
  (∀ (c : Instr) (s t : State), c ≠ .rstAonNAssert → (∀ f o m, c ≠ .rstAonNRelease f o m) → c ≠ .rstBlkNAssert →
    c ≠ .rstBlkNRelease → c ≠ .powerLoss → exec c s = .next t →
    t.pins.aonRel = s.pins.aonRel ∧ t.pins.blkRel = s.pins.blkRel) ∧
  (∀ (c : Instr) (s t : State), c ≠ .rstAonNAssert → c ≠ .powerLoss → (∀ p b d, c ≠ .sealTimeHiWrite p b d) →
    (∀ p b d, c ≠ .regWrite p b 0xA04 d) → exec c s = .next t → t.time.ns = s.time.ns) ∧
  (∀ (c : Instr) (s t : State), (∀ r m i, c ≠ .testAccess r m i) → exec c s = .next t → t.jtag = s.jtag)

/-! ### Resets and start -/

/-- The registers read their reset values while both resets are asserted: BLK_ID, BLK_CAP, SCRATCH, FAB_TMO, MODE_CTL, MODE_STAT,
DRAIN_TMO, GOV_BUDGET, GOV_CFG, GOV_NEG, GROVE_CFG, LEDGER_CFG, SEAL_TIME, RAW_CFG, RAW_PERM, HW_CFG, PERSIST_CFG, PAIR_CFG, DB_MASK,
FLT_CTL, the FLT_RCT registers of eight sources, SEAL_POOL, PM_QUEUES, PM_QOS, PM_VEC, FLT_RING_CFG, TELEM_CFG and PAIR_INFO. -/
def Obligations.ResetRegisterValues : Prop :=
  ∀ p ∈ ([(0x0, 0x00030100), (0x4, 0x06042218), (0x8, 0), (0x40, 0x100000), (0x100, 0), (0x104, 0x8), (0x10C, 20000),
      (0x200, 8000), (0x204, 0x320A00C8), (0x208, 0x640000), (0x300, 0x1008), (0x800, 0x646401F4), (0xA00, 0), (0xA04, 0),
      (0xB20, 0xFF), (0xB24, 0xFFFFFFFF), (0xB28, 0xFFFFFFFF), (0xC10, 0x200), (0xD0C, 0x3203E8), (0xE00, 0x64140A00),
      (0x1404, 0xFFFFFFFF), (0x1C00, 0x6400), (0x1800, 0x01), (0x1920, 0x03), (0x1940, 0x27), (0x1960, 0x23), (0x19C0, 0x00),
      (0x1A00, 0x23), (0x1A04, 0x01), (0x1A20, 0x26), (0xA0C, 0x4040), (0x404, 1), (0x414, 0x201), (0x41C, 1), (0x1C48, 6),
      (0x2108, 6), (0xE10, 0x8000)] : List (Nat × Nat)), State.reset.regVal p.1 = p.2

/-- RST_AON_N resets everything: the registers of both domains, SEAL_TIME, the retention arrays, the tamper latches, the fault log, every
unit, request and partition; the input pins keep their levels, and fabric commands not yet transferred are withdrawn (R54, R56, R58). The
test state stays while TEST_MODE is high (R87, R94). The loss of the supplies does the same and loses the transactions too (R53). -/
def Obligations.AlwaysOnResetAndPowerLoss : Prop :=
  ∀ s : State,
    (∃ t, exec .rstAonNAssert s = .next t ∧ t.fab = s.fab.filter (fun x => x.phase != .presented) ∧
      exec .powerLoss s = .next { t with fab := [] } ∧
      t.pins.aonRel = false ∧ t.pins.blkRel = false ∧ t.pins.tamperLatch = [] ∧
      t.pins.testMode = s.pins.testMode ∧ t.pins.corePwrGood = s.pins.corePwrGood ∧ t.pins.rootKeyVld = s.pins.rootKeyVld ∧
      t.pins.rootKey = s.pins.rootKey ∧ t.pins.rootKeyAck = false ∧
      t.mode.mode = (if s.pins.testMode ∧ s.mode.mode = .test then .test else .inReset) ∧
      t.regsAon = [] ∧ t.regsBlk = [] ∧ t.time = ⟨0, 0, 0, 0⟩ ∧
      t.hw = Heart.reset ∧ t.flt = Flt.reset ∧ t.ledger = Ledger.reset ∧ t.persist = Persist.reset ∧ t.seals = Seal.reset ∧
      t.pair = Pair.reset ∧ t.mbx = Mbx.reset ∧ t.bg = Bg.reset ∧ t.rng = Rng.reset ∧ t.pm = Pm.reset ∧
      t.parts = [] ∧ t.reqs = [] ∧ t.retained = none ∧ (∀ u ∈ t.units, u.2 = UnitSt.reset) ∧ t.jtag = s.jtag)

/-- RST_BLK_N keeps the always-on registers, the keys of the retention arrays, SEAL_TIME, the tamper latches and the fault log, and resets
the units, partitions, queues, requests and ledger; MODE is in reset, TARGET is SERVICE, the FLL stops, and fabric commands not yet
transferred are withdrawn (R56, R58, R92). -/
def Obligations.BlockResetKeepsAlwaysOnIsland : Prop :=
  ∀ s : State, s.pins.aonRel = true → s.pins.blkRel = true → s.mode.mode ≠ .test → ∃ t, exec .rstBlkNAssert s = .next t ∧
    t.pins.blkRel = false ∧ t.pins.aonRel = true ∧ t.mode.mode = .inReset ∧ t.mode.target = .service ∧
    t.mode.fllOn = false ∧ t.regsAon = s.regsAon ∧ t.time = s.time ∧ t.hw.slots = s.hw.slots ∧ t.hw.keks = s.hw.keks ∧
    t.hw.alarm = s.hw.alarm ∧ t.pins.tamperLatch = s.pins.tamperLatch ∧
    t.flt.log.map (fun e => (e.1, e.2.msg, e.2.count)) = s.flt.log.map (fun e => (e.1, e.2.msg, e.2.count)) ∧
    t.flt.inFlight = s.flt.inFlight ∧
    t.regsBlk = [] ∧ t.parts = [] ∧ t.reqs = [] ∧ t.ledger = Ledger.reset ∧ t.persist = Persist.reset ∧ t.pair = Pair.reset ∧
    t.seals = Seal.reset ∧ t.rng = Rng.reset ∧ t.bg = Bg.reset ∧ (∀ u ∈ t.units, u.2 = UnitSt.reset) ∧
    t.fab = s.fab.filter (fun x => x.phase != .presented) ∧ t.jtag = s.jtag

/-- The release of RST_AON_N samples AON_FREQ, OPPT_BOOT and TEST_MFR; TEST_MODE high at that moment is the test state, with the keys
erased. The release of RST_BLK_N frees every tag, begins the forced safe state and starts the FLL; an AON_FREQ outside 1920 to 7680 starts
QUARANTINE with a message from source 0x80 (R44, R57, R58, R87, R490). -/
def Obligations.ResetReleases : Prop :=
  ∀ (s : State) (f : BitVec 13) (o : BitVec 2) (m : BitVec 11),
    (s.pins.aonRel = false → s.pins.testMode = false → exec (.rstAonNRelease f o m) s = .next { s with
      pins := { s.pins with aonRel := true, aonFreq := f.toNat, opptBoot := o.toNat, testMfr := m.toNat }
      mode := { ModeCtl.reset o.toNat with mode := s.mode.mode, safe := s.mode.safe } }) ∧
    (s.pins.aonRel = false → s.pins.testMode = true → ∃ t, exec (.rstAonNRelease f o m) s = .next t ∧
      t.pins.aonRel = true ∧ t.mode.mode = .test ∧ t.mode.safe = true ∧ t.hw.slots = [] ∧ t.hw.keks = [] ∧ t.hw.alarm = true) ∧
    (s.pins.aonRel = true → s.pins.blkRel = false → 1920 ≤ s.pins.aonFreq → s.pins.aonFreq ≤ 7680 →
      exec .rstBlkNRelease s = .next { s with
        pins := { s.pins with blkRel := true }, fab := [], mode := { s.mode with safe := true, fllOn := true } }) ∧
    (s.pins.aonRel = true → s.pins.blkRel = false → s.mode.mode = .inReset → s.pins.aonFreq < 1920 ∨ 7680 < s.pins.aonFreq →
      ∃ t, exec .rstBlkNRelease s = .next t ∧ t.pins.blkRel = true ∧ t.mode.mode = .quarantine ∧ t.mode.fllOn = s.mode.fllOn ∧
        t.hw.alarm = true ∧ t.flt.inFlight = s.flt.inFlight ++ [⟨0x80, 1, s.pins.aonFreq⟩])

/-- The lock of the FLL starts ATTEST with phase A1 after a reset, which samples the root key anew; on a wake it restores the retained
state image that passed its checks, or discards one that failed, reports it from source 0x4A and starts ATTEST. A lock that does not come
in reset or on a wake is reported from source 0x80 and is QUARANTINE; the test state stays as it is (R46, R86, R94, R105 to R107, R109). -/
def Obligations.FllLockStartsAttestOrWake : Prop :=
  ∀ (s : State) (ok : Bool), s.mode.fllOn = true → s.mode.fllLock = false →
    (s.mode.mode = .inReset → ∃ t, exec (.fllLock ok) s = .next t ∧ t.mode.mode = .attest ∧ t.mode.phase = .a1 ∧
      t.mode.safe = true ∧ t.mode.stage = 0 ∧ t.mode.fllLock = true ∧ t.mode.chg = true ∧ t.rng.startup = true ∧
      t.mode.keySampled = s.pins.rootKeyVld ∧ t.pins.rootKeyAck = (s.pins.rootKeyAck || s.pins.rootKeyVld) ∧
      (s.pins.rootKeyVld = false → t.hw.dk = none ∧ t.flt = s.flt) ∧ t.hw.slots = s.hw.slots ∧ t.hw.keks = s.hw.keks ∧
      t = { s with mode := t.mode, hw := t.hw, rng := t.rng, pins := t.pins, gov := t.gov, flt := t.flt }) ∧
    (∀ r, s.mode.mode = .waking → s.retained = some r → s.gov.grants = [] → s.pair.link = .off →
      ∃ t, exec (.fllLock true) s = .next t ∧ t.mode.mode = .waking ∧ t.retained = none ∧ t.mode.fllLock = true ∧
      t.ledger.accts = r.accts ∧ t.parts = r.parts ∧ t.seals.streams = r.streams) ∧
    (∀ r, s.mode.mode = .waking → s.retained = some r → ∃ t, exec (.fllLock false) s = .next t ∧ t.mode.mode = .attest ∧
      t.retained = none ∧ t.mode.warmFail = true ∧
      (s.pins.rootKeyVld = false → t.hw.dk = none ∧ t.flt.inFlight = s.flt.inFlight ++ [⟨0x4A, 0, 0⟩])) ∧
    (s.mode.mode = .test → exec .fllLockTimeout s = .next { s with
      mode := { s.mode with fllOn := false }, flt := { s.flt with inFlight := s.flt.inFlight ++ [⟨0x80, 2, 0⟩] } }) ∧
    (s.mode.mode = .inReset ∨ s.mode.mode = .waking → ∃ t, exec .fllLockTimeout s = .next t ∧ t.mode.mode = .quarantine ∧ t.mode.fllOn = false ∧
      t.hw.slots = [] ∧ t.hw.alarm = true ∧ t.flt.inFlight = s.flt.inFlight ++ [⟨0x80, 2, 0⟩])

/-! ### Pins -/

/-- A rise of TEST_MODE halts the core, erases every key, raises the key alarm and enters the test state, the link returning to ALIGN
unless it is OFF, where the isolation of DORMANT ends; its fall leaves the test state as it is, but for a fall while RST_AON_N is low, after
which the block is in reset (R51, R87, R89, R94, R414; log entry 16 for the link and the isolation). -/
def Obligations.TestModePin : Prop :=
  ∀ s : State,
    (s.pins.aonRel = true → s.mode.mode ≠ .test → ∃ u : State, exec .testModeRise s = .next (if u.pair.link = .off then u.leaveIso else u.linkAlign) ∧
      (s.retained = none → u.leaveIso = { u with pins := { u.pins with coreIso := false } }) ∧
        (u.pair.link = .off → u.leaveIso.pins.coreIso = false) ∧
      u.pair = s.pair ∧ u.pins.testMode = true ∧ u.mode.mode = .test ∧ u.mode.safe = true ∧ u.mode.chg = true ∧
      u.hw.slots = [] ∧ u.hw.keks = [] ∧ u.hw.dk = none ∧ u.hw.alarm = true ∧
      u.reqs = [] ∧ u.seals.streams = [] ∧ u.gov.grants = [] ∧ u.ledger.leases = [] ∧
      (∀ x ∈ u.units, x.2.key = none ∧ x.2.power = .gated ∧ x.2.work = .idle ∧ x.2.tiles = []) ∧
      u.regsAon = s.regsAon ∧ u.regsBlk = s.regsBlk ∧ u.time = s.time ∧ u.flt = s.flt) ∧
    (s.pins.aonRel = true → exec .testModeFall s = .next { s with pins := { s.pins with testMode := false } }) ∧
    (s.pins.aonRel = false → exec .testModeFall s = .next { s with
      pins := { s.pins with testMode := false }, mode := { s.mode with mode := .inReset, safe := false } })

/-- CORE_PWR_GOOD, and CLK_FAB standing still: a rise of CORE_PWR_GOOD in DORMANT with another TARGET starts the wake at the selected
operating point (R50, R51, R95, R107); CLK_FAB stops only in DORMANT or while RST_BLK_N is low with no transaction outstanding, and
GLB_IRQ then holds its level until the clock runs again (R45, R547). -/
def Obligations.CorePowerAndFabricClock : Prop :=
  ∀ s : State,
    (s.mode.mode = .dormant → s.mode.target ≠ .dormant → exec .corePwrGoodRise s = .next { s with
      pins := { s.pins with corePwrGood := true, coreIso := false }
      mode := { s.mode with mode := .waking, chg := true, fllOn := true, fllLock := false
                            active := if s.mode.point = 3 then 0 else s.mode.point } }) ∧
    (s.mode.mode ≠ .dormant ∨ s.mode.target = .dormant →
      exec .corePwrGoodRise s = .next { s with pins := { s.pins with corePwrGood := true } }) ∧
    exec .corePwrGoodFall s = .next { s with pins := { s.pins with corePwrGood := false } } ∧
    (s.pins.fabClk = true → s.mode.mode = .dormant ∨ s.pins.blkRel = false → s.fabIdle = true →
      exec .clkFabStop s = .next { s with pins := { s.pins with fabClk := false, irqHeld := s.glbIrq } }) ∧
    exec .clkFabRestart s = .next { s with pins := { s.pins with fabClk := true, irqHeld := false } }

/-- The root key is sampled once in each phase A1 and gives the device key; a key of all zeros or all ones and a key that does not come are
reported from source 0x48; ROOT_KEY_ACK falls with ROOT_KEY_VLD (R86, R400). A tamper input that is registered sets its latch, erases every
key in every domain, raises the key alarm and sends a message of kind 6, whether or not its latch is set already (R85, R414, R541). -/
def Obligations.RootKeyAndTamper : Prop :=
  (∀ (s : State) (key : BitVec 256),
    (s.mode.phase = .a1 → s.mode.keySampled = false → key ≠ 0 → key ≠ BitVec.allOnes 256 →
      exec (.rootKeyVldRise key) s = .next { s with
        pins := { s.pins with rootKeyVld := true, rootKey := key, rootKeyAck := true }, mode := { s.mode with keySampled := true }
        hw := { s.hw with dk := some (kdf256 (beBytes 32 key.toNat) (ascii "DEV") []) } }) ∧
    (s.mode.phase = .a1 → s.mode.keySampled = false → key = 0 ∨ key = BitVec.allOnes 256 →
      exec (.rootKeyVldRise key) s = .next { s with
        pins := { s.pins with rootKeyVld := true, rootKey := key, rootKeyAck := true }, mode := { s.mode with keySampled := true }
        flt := { s.flt with inFlight := s.flt.inFlight ++ [⟨0x48, 1, 0⟩] } }) ∧
    (s.mode.phase ≠ .a1 ∨ s.mode.keySampled = true →
      exec (.rootKeyVldRise key) s = .next { s with pins := { s.pins with rootKeyVld := true, rootKey := key } }) ∧
    exec .rootKeyVldFall s = .next { s with pins := { s.pins with rootKeyVld := false, rootKey := 0, rootKeyAck := false } } ∧
    (s.mode.phase = .a1 → s.mode.keySampled = false → s.pins.rootKeyVld = false →
      exec .rootKeyTimeout s = .next { s with flt := { s.flt with inFlight := s.flt.inFlight ++ [⟨0x48, 2, 0⟩] } })) ∧
  (∀ (s : State) (k : Nat), s.pins.aonRel = true → k < 4 →
    ∃ t, exec (.tamperRegistered k) s = .next t ∧
      k ∈ t.pins.tamperLatch ∧ k ∈ t.pins.tamperLevel ∧ (∀ j ∈ s.pins.tamperLatch, j ∈ t.pins.tamperLatch) ∧
      t.hw.slots = [] ∧ t.hw.keks = [] ∧ t.hw.dk = none ∧ t.hw.alarm = true ∧
      (∀ x ∈ t.units, x.2.key = none ∧ x.2.tiles = [] ∧ x.2.acc = 0) ∧
      t.flt.inFlight = s.flt.inFlight ++ [⟨0x88 + k, 6, 0⟩] ∧
      t = { s with pins := t.pins, units := t.units, hw := t.hw, flt := t.flt }) ∧
  (∀ (s : State) (k : Nat), s.pins.aonRel = false ∨ 4 ≤ k → exec (.tamperRegistered k) s = .next s)

/-- The negotiation handshake: a rise of PWR_GNT during a request puts GOV_NEG.HIGH_MW in force while a waiting grant needs it, and lowers
the request otherwise; its fall completes the handshake; edges out of order are ignored and reported as kind 1 from source 0x68; a rise
that does not come sets GOV_STAT.NEG_TMO and is reported as kind 2; the request falls once the budget suffices again (R84, R121). -/
def Obligations.PowerNegotiation : Prop :=
  ∀ s : State, s.pins.aonRel = true →
    (s.pins.pwrReq = true → s.gov.granted = false → s.mode.safe = false → s.wantsHigh = true →
      exec .pwrGntRise s = .next { s with
        pins := { s.pins with pwrGnt := true }, gov := { s.gov with high := true, granted := true } }) ∧
    (s.pins.pwrReq = true → s.gov.granted = false → s.mode.safe = true →
      exec .pwrGntRise s = .next { s with
        pins := { s.pins with pwrGnt := true, pwrReq := false }, gov := { s.gov with high := false, granted := true } }) ∧
    (s.pins.pwrReq = false ∨ s.gov.granted = true → exec .pwrGntRise s = .next { s with
        pins := { s.pins with pwrGnt := true }, flt := { s.flt with inFlight := s.flt.inFlight ++ [⟨0x68, 1, 0⟩] } }) ∧
    (s.pins.pwrReq = false → s.gov.granted = true → ∃ t, exec .pwrGntFall s = .next t ∧
      t.gov = { s.gov with granted := false } ∧ t = { s with gov := t.gov, pins := { s.pins with pwrGnt := false, pwrReq := t.pins.pwrReq } }) ∧
    (s.pins.pwrReq = true ∨ s.gov.granted = false → exec .pwrGntFall s = .next { s with
        pins := { s.pins with pwrGnt := false }, flt := { s.flt with inFlight := s.flt.inFlight ++ [⟨0x68, 1, 0⟩] } }) ∧
    (s.pins.pwrReq = true → s.gov.granted = false → exec .pwrNegTimeout s = .next { s with
        gov := { s.gov with negTmo := true }, flt := { s.flt with inFlight := s.flt.inFlight ++ [⟨0x68, 2, 0⟩] } }) ∧
    (s.pins.pwrReq = true → s.gov.granted = true → s.usedMw ≤ s.budgetMw → s.borrowMw ≤ s.pool s.budgetMw →
      exec .pwrHoldExpiry s = .next { s with
        pins := { s.pins with pwrReq := false }, gov := { s.gov with high := false, granted := s.pins.pwrGnt } })

/-- The test access port (R88): TRST_N low is Test-Logic-Reset with IDCODE selected; a cycle of TCK moves the controller by TMS and
changes nothing else; IDCODE loads the 32 bits of R88 in Capture-DR and shifts them out, least significant first; another instruction is a
one-bit bypass, INSTR_ACCESS with TEST_MODE high apart; Update-IR takes the four bits shifted in. -/
def Obligations.TestPortFollowsJtag : Prop :=
  ∀ (s : State) (tms tdi : Bool),
    exec (.testAccess false tms tdi) s = .next { s with jtag := ⟨.testLogicReset, 1, [], [], s.jtag.tdo⟩ } ∧
    (∃ t, exec (.testAccess true tms tdi) s = .next t ∧ t = { s with jtag := t.jtag } ∧ t.jtag.st = s.jtag.st.next tms ∧
      (t.jtag.st = .testLogicReset → t.jtag.ir = 1) ∧
      (s.jtag.st = .captureDr → s.jtag.ir = 1 → t.jtag.drSh.length = 32 ∧ ∀ i, i < 32 → t.jtag.drSh[i]? =
        some (bitAt (1 + 2 * (s.pins.testMfr % 2048) + 2 ^ 12 * 0x0D48 + 2 ^ 28) i)) ∧
      (s.jtag.st = .captureDr → s.jtag.ir ≠ 1 → s.jtag.ir ≠ 8 ∨ s.pins.testMode = false → t.jtag.drSh = [false]) ∧
      (s.jtag.st = .shiftDr → s.jtag.ir ≠ 8 ∨ s.pins.testMode = false → t.jtag.drSh = s.jtag.drSh.drop 1 ++ [tdi]) ∧
      (s.jtag.st = .shiftDr → tms = false → s.jtag.ir ≠ 8 ∨ s.pins.testMode = false → t.jtag.tdo = t.jtag.drSh.headD false) ∧
      (s.jtag.st = .captureIr → t.jtag.irSh = [true, false, false, false]) ∧
      (s.jtag.st = .shiftIr → t.jtag.irSh = s.jtag.irSh.drop 1 ++ [tdi]) ∧
      (t.jtag.st = .updateIr → ∀ a b c d, s.jtag.irSh = [a, b, c, d] → s.jtag.st ≠ .shiftIr →
        t.jtag.ir = b2n a + 2 * b2n b + 4 * b2n c + 8 * b2n d))

/-! ### Mode control -/

/-- A write of MODE_CTL with byte 0 enabled: the five TARGET values. In WAKING and ATTEST each is recorded for the end of that mode; in
SERVICE, DRAIN, DORMANT and FOLLOWER each starts the transition of R94 or is refused under R95; CHG_IE takes effect with each. -/
def Obligations.TargetWrites : Prop :=
  ∀ (s : State) (p ie : Bool) (ben : BitVec 4),
    s.pins.fabClk = true → s.pins.aonRel = true → s.portErr p false 0x100 = false → ben.getLsbD 0 = true →
    (s.mode.mode = .waking ∨ s.mode.mode = .attest →
      exec (.targetService p ben ie) s = .next { s with mode := { s.mode with target := .service, chgIe := ie }, port := ⟨0, false⟩ } ∧
      exec (.targetDormant p ben ie) s = .next { s with mode := { s.mode with target := .dormant, chgIe := ie }, port := ⟨0, false⟩ } ∧
      exec (.targetDrain p ben ie) s = .next { s with mode := { s.mode with target := .drain, chgIe := ie }, port := ⟨0, false⟩ } ∧
      exec (.targetMaintenance p ben ie) s =
        .next { s with mode := { s.mode with target := .maintenance, chgIe := ie }, port := ⟨0, false⟩ } ∧
      exec (.targetFollower p ben ie) s = .next { s with mode := { s.mode with target := .follower, chgIe := ie }, port := ⟨0, false⟩ }) ∧
    (s.mode.mode = .service →
      exec (.targetDormant p ben ie) s = .next { s with
        mode := { s.mode with mode := .drain, chg := true, target := .dormant, chgIe := ie, drainStart := s.now, drainForced := false }
        port := ⟨0, false⟩ } ∧
      exec (.targetDrain p ben ie) s = .next { s with
        mode := { s.mode with mode := .drain, chg := true, target := .drain, chgIe := ie, drainStart := s.now, drainForced := false }
        port := ⟨0, false⟩ } ∧
      exec (.targetFollower p ben ie) s = .next { s with
        mode := { s.mode with mode := .drain, chg := true, target := .follower, chgIe := ie, drainStart := s.now, drainForced := false }
        port := ⟨0, false⟩ }) ∧
    (s.mode.mode = .service → exec (.targetMaintenance p ben ie) s = .next { s with
      mode := { s.mode with mode := .maintenance, chg := true, target := .maintenance, chgIe := ie }, port := ⟨0, false⟩ }) ∧
    (s.mode.mode = .maintenance → s.maintBusy = false → ∃ t, exec (.targetService p ben ie) s = .next t ∧
      t.mode = { s.mode with mode := .service, chg := true, target := .service, chgIe := ie } ∧ t.mbx.staging = none ∧
      t = { s with mode := t.mode, port := ⟨0, false⟩, units := t.units, bg := { s.bg with unitBusy := t.bg.unitBusy }
                   mbx := { s.mbx with staging := none } }) ∧
    (s.mode.mode = .dormant → s.pins.corePwrGood = true → ∀ c g, (c, g) ∈ [(Instr.targetService p ben ie, Target.service),
        (.targetDrain p ben ie, .drain), (.targetMaintenance p ben ie, .maintenance), (.targetFollower p ben ie, .follower)] →
      ∃ t, exec c s = .next t ∧ t.mode.mode = .waking ∧ t.mode.target = g ∧ t.mode.chgIe = ie ∧ t.mode.fllOn = true ∧
        t.pins.coreIso = false ∧ t = { s with mode := t.mode, pins := { s.pins with coreIso := false }, port := ⟨0, false⟩ }) ∧
    (s.mode.mode = .follower → ∀ c ∈ [Instr.targetDrain p ben ie, .targetMaintenance p ben ie],
      exec c s = .next { s with mode := { s.mode with badReq := true, chgIe := ie }, port := ⟨0, false⟩ })

/-- A reserved TARGET value is refused: TARGET is unchanged and MODE_STAT.BAD_REQ sets; while Pleod is in reset only CHG_IE takes effect
(R92, R95). -/
def Obligations.ReservedTargetRefused : Prop :=
  ∀ (s : State) (p ie : Bool) (ben : BitVec 4),
    s.pins.fabClk = true → s.pins.aonRel = true → s.portErr p false 0x100 = false → ben.getLsbD 0 = true →
    (s.mode.mode ≠ .inReset → exec (.targetReserved p ben ie) s = .next { s with
      mode := { s.mode with badReq := true, chgIe := ie }, port := ⟨0, false⟩ }) ∧
    (s.mode.mode = .inReset → ∀ c ∈ [Instr.targetReserved p ben ie, .targetService p ben ie, .targetDormant p ben ie,
        .targetDrain p ben ie, .targetMaintenance p ben ie, .targetFollower p ben ie],
      exec c s = .next { s with mode := { s.mode with chgIe := ie }, port := ⟨0, false⟩ })

/-- The drain: it ends in DORMANT or FOLLOWER once R101, or after its limit R102, holds; DRAIN_TMO governs at once, and a limit that is
reached sets MODE_STAT.DRAIN_EXP and cuts the chains under way (R97, R101 to R104; log entry 28 for the chains). -/
def Obligations.DrainAndItsLimit : Prop :=
  ∀ s : State, s.mode.mode = .drain →
    (s.mode.target = .dormant → s.drained = true → exec .drainComplete s = .next s.sleep ∧
      s.sleep.pins.coreIso = true ∧ s.sleep.mode.fllOn = false ∧ s.sleep.retained ≠ none ∧ s.sleep.parts = [] ∧ s.sleep.reqs = [] ∧
      s.sleep.seals = Seal.reset ∧ s.sleep.regsBlk = [] ∧ (∀ u ∈ s.sleep.units, u.2 = UnitSt.reset)) ∧
    (s.mode.target = .follower → s.drained = true → exec .drainComplete s = .next s.enterFollower) ∧
    (s.mode.target = .dormant ∨ s.mode.target = .follower → s.mode.drainForced = false → s.aon 0x10C % 2 ^ 24 ≠ 0 →
      s.reqs = [] → s.persist.out = none → exec .drainTmoExpiry s = .next { s with
        mode := { s.mode with drainExp := true, drainForced := true }
        parts := Store.mapAll s.parts (fun _ y => { y with queues := Store.mapAll y.queues (fun _ q => q.cutChain) }) }) ∧
    (∀ (p : Bool) (ben : BitVec 4) (d : Word), s.pins.fabClk = true → s.pins.aonRel = true → s.portErr p false 0x10C = false →
      s.mode.target = .drain → exec (.drainTmoWrite p ben d) s = .next { s with
        regsAon := RegFile.set s.regsAon 20000 0x10C (mergeWord (wordOf (s.aon 0x10C)) 0xFFFFFF ben d), port := ⟨0, false⟩ })

/-- The start: phase A1 ends only once the root key has been sampled (R86); a failed one is QUARANTINE; one that passes ends the forced
safe state and waits for the persistence region, whose two banks are read at once when PERSIST_CTL.EN is 1, and when it becomes 1 (R109,
R111, R426, R430). -/
def Obligations.AttestReadsBanks : Prop :=
  ∀ (s : State) (bs bk : List Nat),
    (s.mode.phase = .a1 → s.mode.keySampled = false → ∀ pass, exec (.attestA1Done pass bs bk) s = .next s) ∧
    (s.mode.mode = .attest → s.mode.phase = .a1 → s.mode.keySampled = true → s.hw.dk ≠ none → s.pair.link = .off →
      ∃ t, exec (.attestA1Done false bs bk) s = .next t ∧ t.mode.mode = .quarantine ∧ t.mode.safe = true ∧
        t.hw.slots = [] ∧ t.hw.keks = [] ∧ t.hw.alarm = true ∧ t.reqs = []) ∧
    (s.mode.phase = .a1 → s.mode.keySampled = true → s.hw.dk ≠ none → bitAt (s.blk 0xD08) 0 = false →
      ∃ t, exec (.attestA1Done true bs bk) s = .next t ∧
      t.mode = { s.mode with phase := .a2Wait, safe := false } ∧ t.hw = { s.hw with badSlots := bs, badKeks := bk } ∧
      t.persist.regionWait = true ∧
      t = { s with mode := t.mode, hw := t.hw, persist := { s.persist with regionWait := true }, mbx := t.mbx }) ∧
    (s.mode.phase = .a1 → s.mode.keySampled = true → s.hw.dk ≠ none → bitAt (s.blk 0xD08) 0 = true →
      ∃ t, exec (.attestA1Done true bs bk) s = .next t ∧
      t.mode.phase = .a2Read ∧ t.persist.regionWait = false ∧
      t.fab = s.fab ++ s.readTxns 0x40 5 (s.bankBase false) 0xE1000 (fun _ => .bankRead)
        ++ s.readTxns 0x40 5 (s.bankBase true) 0xE1000 (fun _ => .bankRead)) ∧
    (∀ (p : Bool) (ben : BitVec 4) (d : Word), s.pins.fabClk = true → s.pins.aonRel = true → s.portErr p false 0xD08 = false →
      (s.mode.phase ≠ .a2Wait → exec (.persistCtlEnWrite p ben d) s = .next { s with
        regsBlk := RegFile.set s.regsBlk 0 0xD08 (mergeWord (wordOf (s.blk 0xD08)) 3 ben d ||| (wordOf (s.blk 0xD08) &&& 1))
        port := ⟨0, false⟩ }) ∧
      (s.mode.phase = .a2Wait → ben.getLsbD 0 = true → d.getLsbD 0 = true → ∃ t, exec (.persistCtlEnWrite p ben d) s = .next t ∧
        t.mode.phase = .a2Read ∧ bitAt (t.blk 0xD08) 0 = true ∧
        t.fab = s.fab ++ s.readTxns 0x40 5 (s.bankBase false) 0xE1000 (fun _ => .bankRead)
          ++ s.readTxns 0x40 5 (s.bankBase true) 0xE1000 (fun _ => .bankRead)))

/-- The choice between the banks: the valid one with the higher SEQ, a bank written under another device key being none (R400), and none
starting with an empty image (MODE_STAT.FRESH); two images are due, SEQ goes on from R427, the history is ready, and the unit stages begin
(R426 to R429, R111). -/
def Obligations.BankSelection : Prop :=
  ∀ (s : State) (x y a b : BankRead), a = s.seen x → b = s.seen y → s.mode.phase = .a2Read →
    s.fab.any (fun t => t.purpose == .bankRead && t.phase != .held) = false → s.pair.link = .off →
    (kdf256 x.dk (ascii "BNK") [] ≠ s.devKey "BNK" [] → kdf256 y.dk (ascii "BNK") [] ≠ s.devKey "BNK" [] → selectBank a b = none) ∧
    ∃ u : State, exec (.bankSelect x y) s = .next (u.stageStart 9) ∧
      u.mode.phase = .a2Done ∧ u.mode.fresh = (selectBank a b).isNone ∧ u.persist.lastSeq = seqBase a b ∧ u.persist.boot = 2 ∧
      u.persist.change = true ∧ u.persist.selB = (selectBank a b).getD false ∧ u.ledger.histRdy = true ∧
      (∀ k, selectBank a b = some k →
        u.pair.ident = (if k then b else a).image.ident ∧ u.pair.acctWait = (if k then b else a).image.acctWait ∧
        u.ledger.accts.map Prod.snd = (if k then b else a).image.accts ∧
        u.parts.map Prod.fst = ((if k then b else a).image.parts.foldl
          (fun (ps : Store Partition) r => Store.put ps r.part (takePart none r)) []).map Prod.fst) ∧
      (selectBank a b = none → u.parts = [] ∧ u.ledger.accts = [] ∧ u.hw.slots = [] ∧ u.hw.keks = [] ∧ u.pair.ident = PairId.reset) ∧
      (s.hw.alarm = true → u.hw.slots = [] ∧ u.hw.keks = [])

/-- A unit test of a running ATTEST stage: a unit that passes enters service gated, one that fails is fenced, loses its key and is
reported as kind 5 from its own source; the first cipher lane that passes in ATTEST begins SERVICE or FOLLOWER, and after a warm wake the
first lane that is awake does (R94, R107, R110, R111). The first cipher lane that is awake and passed ends a warm wake in SERVICE, or in
FOLLOWER for an instance named standby, and the unit stages go on (R94, R107, R111). -/
def Obligations.UnitStageTestsAndWakeEnd : Prop :=
  (∀ (s : State) (n m : Nat), n ∈ stageUnits s.mode.stage → s.mode.stage < 8 →
    m ∈ stageUnits s.mode.stage → m ≠ n → (s.unit m).tested = false →
    (s.unit n).work = .stageTest → (s.unit n).power = .awake → (s.unit n).fltFence = false →
    (s.mode.mode ≠ .attest → exec (.unitStageTestDone n true) s = .next { s with
      units := Store.upd s.units n (fun u => { u with passed := true, work := .idle, power := .gated, charge := none }) }) ∧
    (s.mode.mode ≠ .attest → exec (.unitStageTestDone n false) s = .next { s with
      units := Store.upd s.units n (fun u => { u.eraseKey with fltFence := true, work := .idle, power := .gated, charge := none })
      flt := { s.flt with inFlight := s.flt.inFlight ++ [⟨n, 5, 3⟩] } }) ∧
    (s.mode.mode = .attest → s.mode.phase = .a2Done → n < 24 → s.pair.ident.standby = true → s.mode.target = .service →
      ∃ t, exec (.unitStageTestDone n true) s = .next t ∧ t.mode.mode = .follower ∧ t.mode.safe = false ∧ t.mode.served = true ∧
        (t.unit n).passed = true)) ∧
  (∀ (s : State) (n : Nat), s.mode.mode = .waking → s.mode.fllLock = true → n < 24 → (s.unit n).power = .awake →
    (s.unit n).passed = true →
    exec .wakeLaneReady s = .next ((s.enterServed.stageStart 9).pursue) ∧
    (s.pair.ident.standby = true → s.enterServed = { s with
      mode := { s.mode with mode := .follower, chg := true, served := true, phase := .none, safe := false } }) ∧
    (s.pair.ident.standby = false → s.enterServed = ({ s with
      mode := { s.mode with mode := .service, chg := true, served := true, phase := .none, safe := false } } : State).resumeSeals.resumeQueues))

/-! ### The power governor -/

/-- A grant that meets the power condition of R117 is issued and its unit is clock-enabled: here the only waiting grant, for a unit-stage
test of one idle unit, which no partition is charged for and R112 leaves room for (R115, R116, R119). In the forced safe state no grant is
issued. A request whose grant has waited for GOV_CFG.TMO_US ends with GRANT_TIMEOUT, and so does a BIND_TAP, whose stream is dropped;
GOV_STAT.TIMEOUT sets (R120). An idle unit whose GOV_CFG.IDLE_US has passed is gated and keeps its key register; with IDLE_US 0 it is not.
A unit whose clock is ready starts its stage test, stays idle for the work to come, or dispatches the request that waited for it (R116,
R118). -/
def Obligations.GrantsAndUnitClocks : Prop :=
  (∀ (s : State) (g : Grant) (u : Nat),
    (s.mode.safe = false → s.gov.grants = [g] → g.what = .stageTest → g.units = [u] → g.part = none → (s.unit u).work = .idle →
      s.usedMw + s.addMw [u] ≤ s.effBudget → s.stageRoom = true → exec .grantIssue s = .next { s with
        gov := { s.gov with grants := [] }
        units := Store.upd s.units u (fun x => { x with
          power := if x.power = .gated then .waking else x.power, work := .stageTest, charge := none }) }) ∧
    (s.mode.safe = true → exec .grantIssue s = .next s)) ∧
  (∀ (s : State) (g : Grant) (rid : Nat), s.gov.grants.find? (fun x => x.gid == g.gid) = some g → s.aon 0x204 % 0x400 ≠ 0 →
    (g.what = .req rid → exec (.grantTimeoutExpiry g.gid) s =
      .next (({ s with gov := { s.gov with timeout := true } } : State).endReq rid St.grantTimeout 0)) ∧
    (g.what = .bind rid → exec (.grantTimeoutExpiry g.gid) s =
      .next ((({ s with gov := { s.gov with timeout := true } } : State).dropBind rid).reject rid St.grantTimeout 0))) ∧
  (∀ (s : State) (u : Nat),
    (bitsAt (s.aon 0x204) 16 8 ≠ 0 → (s.unit u).power = .awake → (s.unit u).work = .idle → kindOf u ≠ none →
      exec (.idleGateExpiry u) s = .next { s with
        units := Store.upd s.units u (fun x => { x with power := .gated, charge := none }) }) ∧
    (bitsAt (s.aon 0x204) 16 8 = 0 → exec (.idleGateExpiry u) s = .next s) ∧
    ((s.unit u).power = .waking → (s.unit u).work = .stageTest ∨ (s.unit u).work = .unitTest →
      exec (.unitWakeReady u) s = .next { s with units := Store.upd s.units u (fun x => { x with power := .awake }) }) ∧
    (∀ rid r, (s.unit u).power = .waking → (s.unit u).work = .req rid → s.req rid = some r → r.phase = .waking → r.units = [u] →
      exec (.unitWakeReady u) s =
        .next (({ s with units := Store.upd s.units u (fun x => { x with power := .awake }) } : State).dispatch rid)))

/-- GOV_BUDGET.MW takes a value of at least 1000 that covers the base reservation and the shares, held to 20,000; a lower value is refused
with GOV_STAT.BUDGET_REJ (R122). -/
def Obligations.BudgetWrite : Prop :=
  ∀ (s : State) (p : Bool) (d : Word), s.pins.fabClk = true → s.pins.aonRel = true → s.portErr p false 0x200 = false →
    (∀ ben : BitVec 4, (mergeWord (wordOf (s.aon 0x200)) 0xFFFF ben d).toNat < 1000 ∨
        (mergeWord (wordOf (s.aon 0x200)) 0xFFFF ben d).toNat < 400 + s.shares →
      exec (.govBudgetWrite p ben d) s = .next { s with gov := { s.gov with budgetRej := true }, port := ⟨0, false⟩ }) ∧
    (∀ ben : BitVec 4, 1000 ≤ (mergeWord (wordOf (s.aon 0x200)) 0xFFFF ben d).toNat →
        400 + s.shares ≤ (mergeWord (wordOf (s.aon 0x200)) 0xFFFF ben d).toNat →
      ∃ t, exec (.govBudgetWrite p ben d) s = .next t ∧
        t.budgetMw = min (mergeWord (wordOf (s.aon 0x200)) 0xFFFF ben d).toNat 20000 ∧
        t = { s with regsAon := t.regsAon, units := t.units, pins := { s.pins with pwrReq := t.pins.pwrReq }, port := ⟨0, false⟩ })

/-! ### The scheduler -/

/-- PLACE_REQUEST places the request that the scheduler picks for the kind; one that needs a counter of the nonce ledger takes it first and
goes on once it has it (R275); an urgent one for which no unit is at hand and whose partition has no quota left is denied and becomes
ordinary; the window's expiry gives the quota back (R200, R202, R203). The first request that fits
takes its staging tiles and waits for a unit (R226). -/
def Obligations.PlacementUrgencyAndStaging : Prop :=
  (∀ (s : State) (k : UnitKind) (part rid : Nat) (r : Req),
    ((k = .cipher → s.retryLeases = s) → s.rejoin k = s →
      s.pickOf k ((s.placeWaits k).filter (fun x => x.2.urgent && !(s.unitAtHand x.1 x.2))) = none →
      s.grantWaits k < s.freeOf k →
      s.pickOf k ((s.placeWaits k).filter (fun x => !(s.unitOrder x.1 x.2).isEmpty)) = some (rid, r) →
      (s.needsCounter r = false → exec (.placeRequest k) s = .next (s.placeOn rid r)) ∧
      (∀ x, s.needsCounter r = true → (s.waitLease rid).req rid = some x →
        (x.phase = .waitPlace → exec (.placeRequest k) s = .next ((s.waitLease rid).placeOn rid x)) ∧
        (x.phase ≠ .waitPlace → exec (.placeRequest k) s = .next (s.waitLease rid)))) ∧
    ((k = .cipher → s.retryLeases = s) → s.rejoin k = s → s.needsCounter r = false →
      s.pickOf k ((s.placeWaits k).filter (fun x => x.2.urgent && !(s.unitAtHand x.1 x.2))) = some (rid, r) →
      s.freeOf k ≤ s.grantWaits k → (s.part r.part).elim 0 (·.urgLeft) = 0 →
      exec (.placeRequest k) s = .next { s with
        parts := Store.upd s.parts r.part (fun p => { p with urgDeny := true, denied := satAdd 0xFFFF p.denied 1 })
        reqs := Store.upd s.reqs rid (fun x => { x with urgent := false, phase := .waitPlace }) }) ∧
    exec (.urgentWindowExpiry part) s = .next { s with
      parts := Store.upd s.parts part (fun p => { p with urgLeft := p.assign.urgQuota }) }) ∧
  (∀ (s : State) (rid : Nat) (r : Req), s.stagingPick = some (rid, r) → s.req rid = some r →
    ∃ t x, exec .stagingReserved s = .next t ∧ t.req rid = some x ∧ x.phase = .waitPlace ∧ x.staging = r.stagingNeed ∧
      t.fab = s.fab ∧ t.units = s.units ∧ t.gov = s.gov ∧ t.hw = s.hw ∧ t.flt = s.flt ∧ t.pins = s.pins ∧ t.mode = s.mode)

/-- The last cycle of a request on its unit: a failed check of a tile that it uses ends it with TILE_CHECK and a message, and so does a
failed result check of a PKA_OP job (R26, R359); otherwise the engine of its opcode gives the result, and the seal frames that waited for
a lane are served (R26, R30, R224, R305, R352, R384, R402, R405 to R407, R530). -/
def Obligations.LastCycleByOpcode : Prop :=
  ∀ (s u : State) (rid n : Nat) (r : Req), s.req rid = some r → r.phase = .ready → r.g0 < 2 → r.failed = false → r.owner = .queue →
    u = (s.chargeV r (n * r.units.length)).updReq rid (fun x =>
      { x with phase := .ready, victimOf := none, expIdx := 0, ctxTiles := 0, ending := none, shedding := [] }) →
    (∀ store tile,
      (r.meets store tile = true →
        exec (.requestUnitDone rid n (some (.tile store tile))) s = .next (s.tileFail rid r store tile n).serveFrames) ∧
      (r.meets store tile = false → exec (.requestUnitDone rid n (some (.tile store tile))) s = .next s.serveFrames)) ∧
    (r.origOp = Opc.pkaOp → exec (.requestUnitDone rid n (some .check)) s =
      .next ((((s.chargeV r (n * r.units.length)).countWork r).pkaCheck rid r).serveFrames)) ∧
    (r.origOp ≤ 4 → exec (.requestUnitDone rid n none) s = .next (((u.countWork r).cipherDone rid r).serveFrames)) ∧
    (r.origOp = Opc.digest ∨ r.origOp = Opc.hmac →
      exec (.requestUnitDone rid n none) s = .next (((u.countWork r).digestDone rid r).serveFrames)) ∧
    (r.origOp = Opc.keyUnwrap → exec (.requestUnitDone rid n none) s = .next (((u.countWork r).unwrapDone rid r).serveFrames)) ∧
    (r.origOp = Opc.keyDerive → exec (.requestUnitDone rid n none) s = .next (((u.countWork r).deriveDone rid r).serveFrames)) ∧
    (r.origOp = Opc.keyExport → exec (.requestUnitDone rid n none) s = .next (((u.countWork r).exportKeyDone rid r).serveFrames)) ∧
    (r.origOp = Opc.pkaOp → exec (.requestUnitDone rid n none) s = .next ((u.pkaDone rid r).serveFrames)) ∧
    (r.origOp = Opc.wmacList → exec (.requestUnitDone rid n none) s = .next (((u.countWork r).wmacDone rid r n).serveFrames)) ∧
    (r.origOp = Opc.pageSeal → exec (.requestUnitDone rid n none) s = .next (((u.countWork r).pageDone rid r).serveFrames))

/-! ### The fabric ports -/

/-- The first command presented on a port is transferred with the lowest tag that no transaction of its kind uses there (R60, R66); in the
forced safe state none is (R89). Read returns: a beat is kept until all have come, and then the bytes go to the unit that asked; a beat
with a bad status is a fault message of kind 4, one with an index beyond BEATS one of kind 1, and the read is lost when it is complete. A
write response releases the tag; a bad status is a message of kind 4 and the write is lost. Returns for a tag that is not in use are
messages of kind 1; those for a held tag release it; the data of a return in the forced safe state is discarded (R62, R64, R67 to R70, R89).
A transaction that exceeds FAB_TMO fails as its kind of access does, its tag is held, and a message of kind 2 goes out; while RST_BLK_N is
low the message alone follows, and returns are discarded (R58, R70). -/
def Obligations.FabricPorts : Prop :=
  (∀ (s : State) (port n : Nat) (a b : List Txn) (t : Txn), s.pins.fabClk = true → s.pins.blkRel = true →
    s.fab = a ++ t :: b → (∀ x ∈ a, x.port ≠ port ∨ x.phase ≠ .presented) → t.port = port → t.phase = .presented →
    n < (if t.isWrite then 128 else 256) →
    (∀ x ∈ s.fab, x.port = port → x.isWrite = t.isWrite → x.phase ≠ .presented → x.tag ≠ n) →
    (∀ m < n, ∃ x ∈ s.fab, x.port = port ∧ x.isWrite = t.isWrite ∧ x.phase ≠ .presented ∧ x.tag = m) →
    (s.mode.safe = false → exec (.fabricCommandTransfer port) s = .next { s with
      fab := a ++ { t with tag := n, phase := .issued } :: b }) ∧
    (s.mode.safe = true → exec (.fabricCommandTransfer port) s = .next s)) ∧
  (∀ (s : State) (port tag idx : Nat) (data : BitVec 1024) (sts : BitVec 2), s.pins.fabClk = true → s.pins.blkRel = true →
    (∀ t u : Txn, s.txn port false tag = some t → t.phase = .issued → t.marked = false → t.has idx = false →
      idx < t.beats → t.beats ≤ 33 → u = { t with got := Store.put t.got idx (leBytes 128 data.toNat) } →
      (sts = 0 → u.full = false → exec (.readReturnBeat port tag idx data sts) s = .next (s.setTxn port false tag (fun _ => some u))) ∧
      (sts = 0 → u.full = true → s.mode.safe = false → exec (.readReturnBeat port tag idx data sts) s =
        .next ((s.setTxn port false tag (fun _ => none)).readData t.purpose u.bytes)) ∧
      (sts = 0 → u.full = true → s.mode.safe = true →
        exec (.readReturnBeat port tag idx data sts) s = .next (s.setTxn port false tag (fun _ => none))) ∧
      (sts ≠ 0 → u.full = true → exec (.readReturnBeat port tag idx data sts) s =
        .next (((s.send (0x40 + port) 4 t.addr).setTxn port false tag (fun _ => none)).readLost t.purpose))) ∧
    (∀ t : Txn, s.txn port false tag = some t → t.phase = .issued → t.marked = false → t.beats ≤ idx → t.beats ≤ 33 → t.full = false →
      exec (.readReturnBeat port tag idx data sts) s =
        .next ((s.send (0x40 + port) 1 t.addr).setTxn port false tag (fun _ => some t.mark))) ∧
    (s.txn port false tag = none → exec (.readReturnBeat port tag idx data sts) s = .next { s with
      flt := { s.flt with inFlight := s.flt.inFlight ++ [⟨0x40 + port, 1, 0⟩] } }) ∧
    (∀ t : Txn, s.txn port true tag = some t → t.phase = .issued →
      (sts = 0 → s.mode.safe = false →
        exec (.writeCompletion port tag sts) s = .next ((s.setTxn port true tag (fun _ => none)).written t true)) ∧
      (sts = 0 → s.mode.safe = true → exec (.writeCompletion port tag sts) s = .next (s.setTxn port true tag (fun _ => none))) ∧
      (sts ≠ 0 → ∀ p v, t.purpose = .intr p v → exec (.writeCompletion port tag sts) s = .next { s with
        fab := (s.setTxn port true tag (fun _ => none)).fab
        flt := { s.flt with inFlight := s.flt.inFlight ++ [⟨0x40 + port, 4, t.addr⟩] }
        parts := Store.upd s.parts p (fun x => { x with intrErr := true }) }) ∧
      (sts ≠ 0 → exec (.writeCompletion port tag sts) s =
        .next (((s.setTxn port true tag (fun _ => none)).send (0x40 + port) 4 t.addr).written t false))) ∧
    (∀ t : Txn, s.txn port true tag = some t → t.phase = .held → exec (.writeCompletion port tag sts) s =
      .next { s with fab := (s.setTxn port true tag (fun _ => none)).fab }) ∧
    (s.txn port true tag = none → exec (.writeCompletion port tag sts) s = .next { s with
      flt := { s.flt with inFlight := s.flt.inFlight ++ [⟨0x40 + port, 1, 0⟩] } })) ∧
  (∀ (s : State) (port tag : Nat) (w : Bool) (t : Txn) (u : State), s.txn port w tag = some t → t.phase = .issued → t.marked = false →
    s.pins.aonRel = true → u = { s with
      fab := (s.setTxn port w tag (fun x => some { x with phase := .held })).fab
      flt := { s.flt with inFlight := s.flt.inFlight ++ [⟨0x40 + port, 2, t.addr⟩] } } →
    (s.pins.blkRel = false → exec (.fabricTimeout port w tag) s = .next u) ∧
    (s.pins.blkRel = true → w = true → exec (.fabricTimeout port w tag) s = .next (u.written t false)) ∧
    (s.pins.blkRel = true → w = false → exec (.fabricTimeout port w tag) s = .next (u.readLost t.purpose))) ∧
  (∀ (s : State) (port tag : Nat) (data : BitVec 1024) (sts : BitVec 2) (idx : Nat), s.pins.blkRel = false →
    s.txn port false tag = none → s.txn port true tag = none →
    exec (.readReturnBeat port tag idx data sts) s = .next s ∧ exec (.writeCompletion port tag sts) s = .next s)

/-! ### The register port -/

/-- R76: an access with REG_PRIV 0 to the global page reads 0 or is ignored as a write, and returns REG_ERR; a read of BLK_ID returns its
value in every mode and in reset; partition pages accept either value. While both resets are low a write changes nothing but the port's
answer, and an always-on register written with every byte enabled answers without REG_ERR (R77; log entry 7). -/
def Obligations.GlobalPageNeedsPriv : Prop :=
  ∀ (s : State) (off : Nat) (ben : BitVec 4) (data : Word), s.pins.fabClk = true →
    (off < 0x10000 → exec (.regWrite false ben off data) s = .next { s with port := ⟨0, true⟩ }) ∧
    (off < 0x10000 → off ≠ 0 → s.regRead false off = (0, true)) ∧
    (∀ last, exec (.sealTimeLoRead false) s = .next { s with port := ⟨0, true⟩ } ∧
      exec (.persistPendLoRead false last) s = .next { s with port := ⟨0, true⟩ }) ∧
    s.regRead false 0 = (0x00030100, false) ∧
    (s.pins.aonRel = false → s.pins.blkRel = false → ∀ p, ∃ e, exec (.regWrite p ben off data) s = .next { s with port := ⟨0, e⟩ } ∧
      (p = true → ben = 0xF → off < 0x10000 → isAonReg off = true → s.safePort = false → e = false)) ∧
    (∀ p, 0x10000 ≤ off → off < 0x110000 → exec (.regWrite p ben off data) s = exec (.regWrite true ben off data) s ∧
      s.regRead p off = s.regRead true off)

/-- R168: a write to a doorbell, INVAL or Q_CTL of a queue that does not exist is ignored without REG_ERR whatever REG_BEN is, and its
Q_CTL and Q_STAT read 0. The hypothesis on `portErr` leaves out the accesses that R77 turns away. -/
def Obligations.AbsentQueueIgnoresWrites : Prop :=
  ∀ (s : State) (part q : Nat) (ben : BitVec 4) (data : Word), s.pins.fabClk = true → part < 64 → q < 64 → s.queue part q = none →
    (∀ off < 0x4000, s.portErr false false (pageAt part off) = false) →
    (∀ c ∈ [Instr.sqDb part q ben data, .cqDb part q ben data, .inval part q ben data, .qCtlWrite part q ben data],
      exec c s = .next { s with port := ⟨0, false⟩ }) ∧
    (s.regRead false (pageAt part (0x100 + 8 * q))).1 = 0 ∧ (s.regRead false (pageAt part (0x104 + 8 * q))).1 = 0

/-- REG_WRITE at the offset of a register whose write has a command of its own is that command (R13, R538, R555). -/
def Obligations.RegWriteIsItsCommand : Prop :=
  ∀ (s : State) (priv : Bool) (ben : BitVec 4) (d : Word),
    (∀ part q : Nat, part < 64 → q < 64 →
      exec (.regWrite priv ben (pageAt part (0x800 + 16 * q)) d) s = exec (.sqDb part q ben d) s ∧
      exec (.regWrite priv ben (pageAt part (0x804 + 16 * q)) d) s = exec (.cqDb part q ben d) s ∧
      exec (.regWrite priv ben (pageAt part (0x808 + 16 * q)) d) s = exec (.inval part q ben d) s ∧
      exec (.regWrite priv ben (pageAt part (0x100 + 8 * q)) d) s = exec (.qCtlWrite part q ben d) s ∧
      exec (.regWrite priv ben (pageAt part (0x1000 + 16 * q)) d) s = exec (.sealDb part q ben d) s ∧
      exec (.regWrite priv ben (pageAt part 0x38) d) s = exec (.vecMset part ben d) s ∧
      exec (.regWrite priv ben (pageAt part 0x3C) d) s = exec (.vecMclr part ben d) s) ∧
    (d.toNat % 8 = 2 → exec (.regWrite priv ben 0x100 d) s = exec (.targetDrain priv ben (d.getLsbD 4)) s) ∧
    (bitsAt d.toNat 8 2 = 1 → exec (.regWrite priv ben 0x400 d) s = exec (.pmCreate priv ben d) s) ∧
    (d.toNat % 8 = 4 → exec (.regWrite priv ben 0xC00 d) s = exec (.zeroise priv ben d) s) ∧
    (bitsAt d.toNat 8 2 = 3 → exec (.regWrite priv ben 0x2000 d) s = exec (.unitUnfence priv ben d) s) ∧
    (∀ tap < 16, exec (.regWrite priv ben (0xA40 + 4 * tap) d) s = exec (.tapOwnWrite priv ben tap d) s) ∧
    exec (.regWrite priv ben 0xA04 d) s = exec (.sealTimeHiWrite priv ben d) s

/-- The kinds of register behind REG_WRITE, at a register port that serves the access: RW fields take the enabled bytes, W1C fields clear
where the data is 1 and need every byte enabled, RO registers and unassigned offsets take nothing (R14, R16, R75). The 64-bit registers: a
read of SEAL_TIME_LO latches the high word, a write of SEAL_TIME_HI loads the counter with the held low word, and reads of PERSIST_PEND_LO
and PERSIST_LAST_LO latch theirs (R339, R431). -/
def Obligations.RegisterKindsAndLatches : Prop :=
  (∀ (s : State) (ben : BitVec 4) (d : Word), s.pins.fabClk = true → s.pins.aonRel = true →
    (∀ off, off < 0x10000 ∨ 0x110000 ≤ off → s.portErr true false off = false) →
    (exec (.regWrite true ben 0x8 d) s = .next { s with
      regsAon := RegFile.set s.regsAon 0 0x8 (mergeWord (wordOf (s.aon 0x8)) 0xFFFFFFFF ben d), port := ⟨0, false⟩ }) ∧
    (exec (.regWrite true ben 0x300 d) s = .next { s with
      regsAon := RegFile.set s.regsAon 0x1008 0x300 (mergeWord (wordOf (s.aon 0x300)) 0xFF0F ben d), port := ⟨0, false⟩ }) ∧
    (∀ off ∈ [0x0, 0x4, 0x24, 0x210, 0x304, 0x424, 0x430, 0x808, 0xC14, 0xD10, 0xD28, 0xE10, 0x1C0C, 0x1C54, 0x2008, 0x2118, 0x3000],
      exec (.regWrite true ben off d) s = .next { s with port := ⟨0, false⟩ }) ∧
    (∀ off, 0x110000 ≤ off → exec (.regWrite true ben off d) s = .next { s with port := ⟨0, false⟩ }) ∧
    (ben = 0xF → exec (.regWrite true ben 0x104 d) s = .next { s with
      mode := { s.mode with
        warmFail := s.mode.warmFail && !(d.getLsbD 10), chg := s.mode.chg && !(d.getLsbD 11)
        drainExp := s.mode.drainExp && !(d.getLsbD 12), badReq := s.mode.badReq && !(d.getLsbD 13) }
      port := ⟨0, false⟩ }) ∧
    (ben ≠ 0xF → ∀ off ∈ [0x10, 0x104, 0x20C, 0x420, 0x804, 0x80C, 0xA08, 0xB00, 0xC0C, 0xD24, 0xE14, 0x1400, 0x1C08, 0x2004, 0x211C],
      exec (.regWrite true ben off d) s = .next { s with port := ⟨0, true⟩ })) ∧
  (∀ (s : State) (p : Bool), s.pins.fabClk = true →
    (s.portErr p true 0xA00 = false → exec (.sealTimeLoRead p) s = .next { s with
      time := { s.time with latch := wordOf (s.time.ns / 2 ^ 32) }, port := ⟨wordOf (s.time.ns % 2 ^ 32), false⟩ }) ∧
    (∀ d : Word, s.pins.aonRel = true → s.portErr p false 0xA04 = false → exec (.sealTimeHiWrite p 0xF d) s = .next { s with
      time := { s.time with ns := 2 ^ 32 * d.toNat + s.time.held.toNat, frac := 0 }, port := ⟨0, false⟩ }) ∧
    (s.portErr p true 0xD10 = false → exec (.persistPendLoRead p false) s = .next { s with
      persist := { s.persist with pendHi := wordOf (s.persist.pendSeq / 2 ^ 32) }, port := ⟨wordOf (s.persist.pendSeq % 2 ^ 32), false⟩ }) ∧
    (s.portErr p true 0xD28 = false → exec (.persistPendLoRead p true) s = .next { s with
      persist := { s.persist with lastHi := wordOf (s.persist.ackSeq / 2 ^ 32) }, port := ⟨wordOf (s.persist.ackSeq % 2 ^ 32), false⟩ }))

/-! ### Queues -/

/-- R140: a submission doorbell with every byte enabled whose position is below N, whose reserved bits are 0 and whose tail does not reduce
the occupancy becomes the recorded tail; any other leaves it, sets Q_STAT.DB_ERR and raises the error vector, without REG_ERR either way.
Other byte enables are refused as R75 states. -/
def Obligations.SubmissionDoorbell : Prop :=
  ∀ (s : State) (part q : Nat) (x : Queue) (data : Word), s.pins.fabClk = true → s.pins.aonRel = true →
    s.portErr false false (pageAt part (0x800 + 16 * q)) = false → s.queue part q = some x →
    (data.toNat / 2 ^ 17 = 0 → data.toNat % 2 ^ 16 < x.sqN →
      (x.sqN * (data.toNat / 2 ^ 16 % 2) + data.toNat % 2 ^ 16 + 2 * x.sqN - x.tail) % (2 * x.sqN) ≤ x.sqN - occ x.sqN x.tail x.head →
      ∃ t y, exec (.sqDb part q 0xF data) s = .next t ∧ t.queue part q = some y ∧
        y.tail = x.sqN * (data.toNat / 2 ^ 16 % 2) + data.toNat % 2 ^ 16 ∧ y = { x with tail := y.tail, fetch := y.fetch } ∧
        t.port = ⟨0, false⟩ ∧ t = { s with parts := t.parts, fab := t.fab, port := t.port }) ∧
    (data.toNat / 2 ^ 17 ≠ 0 ∨ x.sqN ≤ data.toNat % 2 ^ 16 ∨
      x.sqN - occ x.sqN x.tail x.head <
        (x.sqN * (data.toNat / 2 ^ 16 % 2) + data.toNat % 2 ^ 16 + 2 * x.sqN - x.tail) % (2 * x.sqN) →
      exec (.sqDb part q 0xF data) s =
        .next { (s.updQueue part q (fun y => { y with dbErr := true })).errEvent part with port := ⟨0, false⟩ }) ∧
    (∀ ben : BitVec 4, ben ≠ 0xF → exec (.sqDb part q ben data) s = .next { s with port := ⟨0, true⟩ })

/-- A completion doorbell releases the entries up to its head and the completions that wait follow; one that passes the tail, moves
backwards or has wrong bits sets Q_STAT.DB_ERR (R163). INVAL records the head and drops what lies in its range, and one with FIRST of N or
more sets INVAL_ERR (R149, R150). Q_CTL: a rise of EN serves the queue unless FETCH_ERR or CMPL_ERR is set; on queue 0 it is refused with
ADM_CFG_ERR when the admin ring registers are wrong; its fall ends the fetching and completes what waits; a write that does not enable
byte 0 changes nothing (R164, R166, R185). -/
def Obligations.CompletionDoorbellInvalAndEnable : Prop :=
  (∀ (s : State) (part q : Nat) (x : Queue) (data : Word), s.pins.fabClk = true → s.pins.aonRel = true →
    (∀ off < 0x4000, s.portErr false false (pageAt part off) = false) → q < 64 → s.queue part q = some x →
    (∀ i l, i < x.cqN → l < 2 → data.toNat = 2 ^ 16 * l + i → i < 2 ^ 16 →
      occ x.cqN x.cqTail (x.cqN * l + i) ≤ occ x.cqN x.cqTail x.cqHead →
      exec (.cqDb part q 0xF data) s =
        .next { (s.updQueue part q (fun y => { y with cqHead := x.cqN * l + i })).postWaiting part q with port := ⟨0, false⟩ }) ∧
    (data.toNat / 2 ^ 17 ≠ 0 ∨ x.cqN ≤ data.toNat % 2 ^ 16 → exec (.cqDb part q 0xF data) s =
      .next { (s.updQueue part q (fun y => { y with dbErr := true })).errEvent part with port := ⟨0, false⟩ }) ∧
    (x.sqN ≤ data.toNat % 2 ^ 16 → exec (.inval part q 0xF data) s =
      .next { (s.updQueue part q (fun y => { y with invalErr := true })).errEvent part with port := ⟨0, false⟩ }) ∧
    (data.toNat % 2 ^ 16 < x.sqN → x.slots = [] → s.fetchReads part q = [] → x.en = false →
      ∃ t y, exec (.inval part q 0xF data) s = .next t ∧ t.queue part q = some y ∧ t.port = ⟨0, false⟩ ∧ y.inv = x.head ∧
        y.tail = x.tail ∧ y.head = x.head ∧ y.cache.map (·.v) = x.cache.map (·.v) ∧
        (∀ c ∈ x.cache, c.pushed = true → c ∈ y.cache) ∧
        (∀ c ∈ x.cache, c.pushed = false → 0 < c.slots → data.toNat / 2 ^ 16 = 0 → { c with dropped := true } ∈ y.cache))) ∧
  (∀ (s : State) (part q : Nat) (p : Partition) (x : Queue) (ben : BitVec 4) (data : Word), s.pins.fabClk = true → s.pins.aonRel = true →
    s.portErr false false (pageAt part (0x100 + 8 * q)) = false → s.part part = some p → s.queue part q = some x →
    (ben.getLsbD 0 = false → exec (.qCtlWrite part q ben data) s = .next { s with port := ⟨0, false⟩ }) ∧
    (ben.getLsbD 0 = true → data.getLsbD 0 = true → x.en = false → q ≠ 0 → p.reset = none → x.fetchErr = false → x.cmplErr = false →
      exec (.qCtlWrite part q ben data) s =
        .next { ((s.updQueue part q (fun y => { y with cie := data.getLsbD 1 })).updQueue part q
          (fun y => { y with en := true })).refill part q with port := ⟨0, false⟩ }) ∧
    (ben.getLsbD 0 = true → data.getLsbD 0 = true → x.en = false → q ≠ 0 → p.reset = none → x.fetchErr = true ∨ x.cmplErr = true →
      exec (.qCtlWrite part q ben data) s = .next { s with
        parts := Store.upd s.parts part (fun y => { y with queues := Store.upd y.queues q (fun z => { z with cie := data.getLsbD 1 }) })
        port := ⟨0, false⟩ }) ∧
    (ben.getLsbD 0 = true → data.getLsbD 0 = true → x.en = false → q = 0 → p.adminOk = false →
      ∃ t y, exec (.qCtlWrite part q ben data) s = .next t ∧ t.part part = some y ∧ y.admCfgErr = true ∧
        (∀ z, t.queue part q = some z → z.en = false ∧ z.cie = data.getLsbD 1)) ∧
    (ben.getLsbD 0 = true → data.getLsbD 0 = false → x.en = true → exec (.qCtlWrite part q ben data) s =
      .next { (s.updQueue part q (fun y => { y with cie := data.getLsbD 1 })).disable part q with port := ⟨0, false⟩ }))

/-- Push windows: a word that is no header lands in the window; a header word written with every byte at the window position of the tail
takes the entry, zeroes its window positions and advances the tail; a window bound to no queue refuses header words and ignores the others; in
FOLLOWER a take is refused, and on a queue that is not enabled PUSH_REJ sets (R144 to R146). -/
def Obligations.PushWindows : Prop :=
  ∀ (s : State) (part w pos qn : Nat) (p : Partition) (q : Queue) (data : Word), s.pins.fabClk = true →
    (∀ off < 0x4000, s.portErr false false (pageAt part off) = false) → w < 16 → pos < 16 → s.part part = some p →
    (p.windowQueue w = none →
      exec (.pushTake part w pos data) s = .next { s with port := ⟨0, true⟩ } ∧
      (∀ word ben, word < 128 → word % 8 ≠ 0 → exec (.pushWordWrite part w word ben data) s = .next { s with port := ⟨0, false⟩ })) ∧
    (∀ word ben, word < 128 → word % 8 ≠ 0 → p.windowQueue w = some (qn, q) →
      exec (.pushWordWrite part w word ben data) s = .next { s with
        parts := Store.upd s.parts part (fun x => { x with
          windows := Mem.setBytes x.windows (512 * w + 4 * word)
            (leBytes 4 (mergeWord (wordOf (leNat (Mem.bytes p.windows (512 * w + 4 * word) 4))) 0xFFFFFFFF ben data).toNat) })
        port := ⟨0, false⟩ }) ∧
    (p.windowQueue w = some (qn, q) → s.queue part qn = some q → pos = q.tail % q.sqN % 16 →
      (s.mode.mode = .follower → exec (.pushTake part w pos data) s = .next { s with port := ⟨0, true⟩ }) ∧
      (s.mode.mode ≠ .follower → q.en = false → exec (.pushTake part w pos data) s = .next { s with
        parts := Store.upd s.parts part (fun x => { x with queues := Store.upd x.queues qn (fun y => { y with pushRej := true }) })
        port := ⟨0, true⟩ }) ∧
      (∀ e, e = p.pushed w q data → s.mode.mode ≠ .follower → q.en = true → p.reset = none → q.pushes < 4 → q.load < 16 →
        occ q.sqN q.tail q.head + min (eSlots e) (q.sqN - q.tail % q.sqN) ≤ q.sqN →
        ∃ t x y, exec (.pushTake part w pos data) s = .next t ∧ t.part part = some x ∧ t.queue part qn = some y ∧
          y.tail = q.adv q.tail (min (eSlots e) (q.sqN - q.tail % q.sqN)) ∧ y.en = true ∧
          x.windows = (p.zeroWindow w (q.tail % q.sqN) (eSlots e)).windows ∧ t.port = ⟨0, false⟩ ∧
          t = { s with parts := t.parts, port := t.port }))

/-! ### Entries as they are admitted -/

/-- ADMIT_ENTRY: the entry at the head of a queue that is served is admitted with a credit, or completes MALFORMED at its first failing
structural check, or TILE_CHECK when a tile of it fails its check as it is read; with no credit free it waits (R26, R152, R157, R158).
ENTRY_FETCH_DONE parses what was fetched and fetches on (R142). -/
def Obligations.EntryAdmission : Prop :=
  ∀ (s : State) (p q : Nat) (x : Queue) (c : CacheEntry) (cs : List CacheEntry), q ≠ 0 → s.queue p q = some x → x.ready = c :: cs →
    s.serving = true → x.en = true → x.chain = none → x.dying = false → (∀ y, s.part p = some y → y.reset = none) →
    s.fenced p q = false → c.dropped = false → (∀ d ∈ c :: cs, d.drained = false) → eChain c.bytes = false →
    (x.credits = 0 → ∀ bad, exec (.admitEntry p ⟨q, bad⟩) s = .next (s.refill p q)) ∧
    (0 < x.credits → ∀ n, exec (.admitEntry p ⟨q, some n⟩) s =
      .next (((s.send 0x4A 0 n).postNow p q c false false St.tileCheck 0x01).refill p q)) ∧
    (0 < x.credits → ∀ d, entryFault q x c = some d →
      exec (.admitEntry p ⟨q, none⟩) s = .next ((s.postNow p q c false false St.malformed d).refill p q)) ∧
    (0 < x.credits → entryFault q x c = none → eOpcode c.bytes ≠ Opc.wmacList →
      exec (.admitEntry p ⟨q, none⟩) s = .next ((s.letIn p q x c false false).refill p q) ∧
      (s.letIn p q x c false false).req s.nextId = some (Req.ofEntry p q x.cfg c false true s.nextId) ∧
      (s.letIn p q x c false false).nextId = s.nextId + 1) ∧
    exec (.entryFetchDone p q) s =
      .next ((s.updQueue p q (fun y => (y.remake (x.cache.filter (fun e => e.dropped))).parseAll true 80)).fetchMore p q 5)

/-- SLOT_INFO answers with one completion entry at the completion tail: its tag, status, phase, lap and position of the head, opcode,
DETAIL and RESULT as R159 lays them out; a PAGE above 1 is MALFORMED 0x0A and a SLOT at or above SLOTS is KEY_SLOT_INVALID 0x01 (R159, R160,
R408). FENCE completes once no earlier request of its queue is left (R153). -/
def Obligations.CompletionEntryIsPosted : Prop :=
  ∀ (s : State) (rid : Nat) (r : Req) (x : Queue), s.req rid = some r → r.phase = .admitted → r.owner = .queue → r.quiet = false →
    r.credit = true → r.g0 = 0 → r.units = [] → s.queue r.part r.qid = some x →
    (r.opcode = Opc.slotInfo → ∀ st d res : Nat,
      (1 < fld r.entry 10 1 ∧ st = St.malformed ∧ d = 0x0A ∧ res = 0) ∨
      (fld r.entry 10 1 ≤ 1 ∧ s.slotIn r.part (cSlot r.entry) = false ∧ st = St.keySlotInvalid ∧ d = 1 ∧ res = 0) ∨
      (fld r.entry 10 1 ≤ 1 ∧ s.slotIn r.part (cSlot r.entry) = true ∧ st = St.success ∧ d = 0 ∧
        res = s.slotInfo (s.gOf r.part (cSlot r.entry)) (fld r.entry 10 1)) →
      ∃ t y z, exec (.slotInfo rid) s = .next t ∧
        t.fab = s.fab ++ s.writeTxns r.part 3 (x.cfg.cqBase + 16 * (x.cqTail % x.cqN))
          (leBytes 2 r.tag
            ++ [byteOf st, byteOf ((if x.cqTail / x.cqN % 2 = 0 then 1 else 0) + 2 * b2n r.chained + 4 * b2n r.pushed + 8 * (x.head / x.sqN % 2))]
            ++ leBytes 2 (x.head % x.sqN) ++ [byteOf r.opcode, byteOf d] ++ leBytes 8 res)
          (.cmpl r.part r.qid (some rid)) ∧
        t.req rid = some y ∧ y.phase = .completing ∧ y.status = st ∧ y.detail = d ∧ y.result = res ∧
        t.queue r.part r.qid = some z ∧ z = { x with cqTail := (x.cqTail + 1) % (2 * x.cqN), reserved := x.reserved - 1 } ∧
        t.hw = s.hw ∧ t.mode = s.mode ∧ t.pins = s.pins ∧ t.port = s.port ∧ t.flt = s.flt) ∧
    (r.opcode = Opc.fence →
      (¬ (∃ o ∈ s.queueReqs r.part r.qid, o.2.seq < r.seq ∧ o.2.phase ≠ .exported) →
        exec (.fence rid) s = .next (s.complete rid St.success 0 0)) ∧
      ((∃ o ∈ s.queueReqs r.part r.qid, o.2.seq < r.seq ∧ o.2.phase ≠ .exported) → exec (.fence rid) s = .next s))

/-- CIPHER, AEAD, XTS and MAC: the first failing check completes the request with its status; one that passes keeps the key it found in its
slot and waits for RAND_RDY when its IV comes from the DRBG, and else for staging tiles or a unit; one whose IV comes from the nonce ledger
names its account, whose counter it takes as it is placed (R211, R219, R226, R275, R371). -/
def Obligations.CipherRequests : Prop :=
  ∀ (s : State) (rid : Nat) (r : Req), s.req rid = some r → r.phase = .admitted →
    (cipherBodyOk r.entry = false → s.cipherChecks r.part r.entry = some (St.malformed, 0x0A)) ∧
    (cipherBodyOk r.entry = true → cipherUnsupported r.entry = true → s.cipherChecks r.part r.entry = some (St.unsupported, 0)) ∧
    (∀ f, cipherBodyOk r.entry = true → cipherUnsupported r.entry = false → s.cipherSlot r.part r.entry = some f →
      s.cipherChecks r.part r.entry = some f) ∧
    (∀ d, cipherBodyOk r.entry = true → cipherUnsupported r.entry = false → s.cipherSlot r.part r.entry = none →
      cipherLimit r.entry = some d → s.cipherChecks r.part r.entry = some (St.lengthMismatch, d)) ∧
    (∀ f, s.cipherChecks r.part r.entry = some f →
      (r.opcode = Opc.cipher → exec (.cipher rid) s = .next (s.reject rid f.1 f.2)) ∧
      (r.opcode = Opc.aead → exec (.aead rid) s = .next (s.reject rid f.1 f.2)) ∧
      (r.opcode = Opc.xts → exec (.xts rid) s = .next (s.reject rid f.1 f.2)) ∧
      (r.opcode = Opc.mac → exec (.mac rid) s = .next (s.reject rid f.1 f.2))) ∧
    (∀ g src, cipherBodyOk r.entry = true → cipherUnsupported r.entry = false → s.cipherSlot r.part r.entry = none →
      cipherLimit r.entry = none → g = s.gOf r.part (cSlot r.entry) → src = ivSource r.entry (s.slot g).attr →
      ∃ t x, (r.opcode = Opc.cipher → exec (.cipher rid) s = .next t) ∧ (r.opcode = Opc.aead → exec (.aead rid) s = .next t) ∧
        (r.opcode = Opc.xts → exec (.xts rid) s = .next t) ∧ (r.opcode = Opc.mac → exec (.mac rid) s = .next t) ∧
        t.req rid = some x ∧ x.keys = [(g, s.keyIdOf g)] ∧ x.counter = r.counter ∧
        x.phase = (if src = .drbg ∧ s.rng.ready = false then .waitRand else if r.stagingNeed = 0 then .waitPlace else .waitStaging) ∧
        x.acct = (if src = .ledger then (if (s.slot g).st = .noHistory then none else s.acctOf (s.slot g)) else r.acct) ∧
        t = { s with reqs := t.reqs, parts := t.parts, nextId := t.nextId })

/-- DIGEST, HMAC, PAGE_SEAL and its verification: the first failing check completes the request; one that passes keeps its key and waits
for a digest lane (R289, R293, R295, R526, R529). -/
def Obligations.DigestAndPageRequests : Prop :=
  ∀ (s : State) (rid : Nat) (r : Req), s.req rid = some r → r.phase = .admitted → r.origOp = r.opcode →
    (r.opcode = Opc.digest →
      (∀ f, s.digestChecks r.part r.entry = some f → exec (.digest rid) s = .next (s.reject rid f.1 f.2)) ∧
      (s.digestChecks r.part r.entry = none → ∃ t x, exec (.digest rid) s = .next t ∧ t.req rid = some x ∧ x.phase = .waitPlace ∧
        x.keys = [] ∧ t = { s with reqs := t.reqs, parts := t.parts, nextId := s.nextId + 1 })) ∧
    (∀ g, g = s.gOf r.part (cSlot r.entry) →
      (r.opcode = Opc.hmac →
        (∀ f, s.digestChecks r.part r.entry = some f → exec (.hmac rid) s = .next (s.reject rid f.1 f.2)) ∧
        (s.digestChecks r.part r.entry = none → ∃ t x, exec (.hmac rid) s = .next t ∧ t.req rid = some x ∧ x.phase = .waitPlace ∧
          x.keys = [(g, s.keyIdOf g)] ∧ t = { s with reqs := t.reqs, parts := t.parts, nextId := s.nextId + 1 })) ∧
      (r.opcode = Opc.pageSeal → eFlag r.entry 0 = false →
        (∀ f, s.pageChecks r.part r.entry = some f → exec (.pageSeal rid) s = .next (s.reject rid f.1 f.2)) ∧
        (s.pageChecks r.part r.entry = none → ∃ t x, exec (.pageSeal rid) s = .next t ∧ t.req rid = some x ∧ x.phase = .waitPlace ∧
          x.keys = [(g, s.keyIdOf g)] ∧ t = { s with reqs := t.reqs, parts := t.parts, nextId := s.nextId + 1 })) ∧
      (r.opcode = Opc.pageSeal → eFlag r.entry 0 = true →
        (∀ f, s.pageChecks r.part r.entry = some f → exec (.pageSealVerify rid) s = .next (s.reject rid f.1 f.2)) ∧
        (s.pageChecks r.part r.entry = none → ∃ t x, exec (.pageSealVerify rid) s = .next t ∧ t.req rid = some x ∧
          x.phase = .waitPlace ∧ x.keys = [(g, s.keyIdOf g)] ∧ t = { s with reqs := t.reqs, parts := t.parts, nextId := s.nextId + 1 }))) ∧
    (digestBodyOk r.entry = false → s.digestChecks r.part r.entry = some (St.malformed, 0x0A)) ∧
    (digestBodyOk r.entry = true → hashKnown (dAlg r.entry) = false → s.digestChecks r.part r.entry = some (St.unsupported, 0)) ∧
    (pageBodyOk r.entry = false → s.pageChecks r.part r.entry = some (St.malformed, 0x0A)) ∧
    (pageBodyOk r.entry = true → eFlag r.entry 0 = true → s.hmacSlot r.part (cSlot r.entry) = none → storedOk r.entry = false →
      s.pageChecks r.part r.entry = some (St.authFail, 0x05))

/-- KEY_UNWRAP, KEY_DERIVE and KEY_EXPORT: the checks in order; a request that passes reserves its target slot, keeps its keys and waits
for a unit; the last cycle of KEY_DERIVE refuses a bad ATTR and an EXPORT above the input key's (R402, R405 to R407). KEY_UNWRAP with
ERASE: an EMPTY slot completes at once; any other becomes EMPTY and its completion waits
for an image that carries the change (R404). -/
def Obligations.KeyRequests : Prop :=
  (∀ (s : State) (rid : Nat) (r : Req) (e : Bytes), s.req rid = some r → r.phase = .admitted → r.origOp = r.opcode → e = r.entry →
    (r.opcode = Opc.keyUnwrap → kErase e = false →
      (unwrapBodyOk e = false → exec (.keyUnwrap rid) s = .next (s.reject rid St.malformed 0x0A)) ∧
      (∀ f, unwrapBodyOk e = true → s.targetOk r.part (kDslot e) (kReplace e) = some f →
        exec (.keyUnwrap rid) s = .next (s.reject rid f.1 f.2)) ∧
      (∀ f, unwrapBodyOk e = true → s.targetOk r.part (kDslot e) (kReplace e) = none → s.wrapKeyOk r.part (kKslot e) = some f →
        exec (.keyUnwrap rid) s = .next (s.reject rid f.1 f.2)) ∧
      (unwrapBodyOk e = true → s.targetOk r.part (kDslot e) (kReplace e) = none → s.wrapKeyOk r.part (kKslot e) = none →
        ¬ (kInLen e % 8 = 0 ∧ 32 ≤ kInLen e ∧ kInLen e ≤ 3616) → exec (.keyUnwrap rid) s = .next (s.reject rid St.lengthMismatch 0x03)) ∧
      (unwrapBodyOk e = true → s.targetOk r.part (kDslot e) (kReplace e) = none → s.wrapKeyOk r.part (kKslot e) = none →
        kInLen e % 8 = 0 → 32 ≤ kInLen e → kInLen e ≤ 3616 →
        ∃ t x, exec (.keyUnwrap rid) s = .next t ∧ t.req rid = some x ∧ x.phase = .waitPlace ∧
          x.dslot = some (s.gOf r.part (kDslot e)) ∧ x.keys.map Prod.fst = [s.wrapKey r.part (kKslot e)] ∧
          t = { s with reqs := t.reqs, parts := t.parts, nextId := s.nextId + 1 })) ∧
    (r.opcode = Opc.keyDerive → deriveBodyOk e = true →
      (¬ (kPrf e = 1 ∨ kPrf e = 2) → exec (.keyDerive rid) s = .next (s.reject rid St.unsupported 0)) ∧
      (∀ a, a = (s.slot (s.gOf r.part (kKslot e))).attr → kPrf e = 2 →
        s.targetOk r.part (kDslot e) (kReplace e) = none → s.slotValid r.part (kKslot e) = none →
        a.alg = 8 ∨ a.alg = 0x0A → KeyAttr.can a useDerive = true →
        ∃ t x, exec (.keyDerive rid) s = .next t ∧ t.req rid = some x ∧ x.phase = .waitPlace ∧
          x.dslot = some (s.gOf r.part (kDslot e)) ∧ x.keys.map Prod.fst = [s.gOf r.part (kKslot e)] ∧
          x.failed = r.failed ∧ t = { s with reqs := t.reqs, parts := t.parts, nextId := s.nextId + 1 }) ∧
      (∀ (u : State) b, b = attrOf (kAttr e) →
        (attrValid (kAttr e) = false ∨ b.alg = 0 ∨ 9 < b.alg → u.deriveDone rid r = (u.leaveUnits rid r).reject rid St.keyPolicy 0x09) ∧
        (attrValid (kAttr e) = true → b.alg ≠ 0 → b.alg ≤ 9 → (u.keyAttr r).exportP < b.exportP →
          u.deriveDone rid r = (u.leaveUnits rid r).reject rid St.keyPolicy 0x08))) ∧
    (r.opcode = Opc.keyExport → s.slotValid r.part (kDslot e) = none →
      ∀ a, a = (s.slot (s.gOf r.part (kDslot e))).attr →
      (a.ledger = true → exec (.keyExport rid) s = .next (s.reject rid St.keyPolicy 0x05)) ∧
      (a.ledger = false → a.exportP = 0 → exec (.keyExport rid) s = .next (s.reject rid St.keyPolicy 0x08)) ∧
      (a.ledger = false → a.exportP ≠ 0 → kKslot e = 0xFFFF ∨ (a.exportP = 2 ∧ kKslot e ≠ kDslot e) →
        s.wrapKeyOk r.part (kKslot e) = none → blobLen a.len ≤ kDstLen e →
        ∃ t x, exec (.keyExport rid) s = .next t ∧ t.req rid = some x ∧ x.phase = .waitPlace ∧
          x.keys.map Prod.fst = [s.wrapKey r.part (kKslot e), s.gOf r.part (kDslot e)] ∧
          t = { s with reqs := t.reqs, parts := t.parts, nextId := s.nextId + 1 }))) ∧
  (∀ (s : State) (rid : Nat) (r : Req) (g : Nat), s.req rid = some r → r.phase = .admitted → r.opcode = Opc.keyUnwrap →
    kErase r.entry = true → unwrapBodyOk r.entry = true → s.slotIn r.part (kDslot r.entry) = true → g = s.gOf r.part (kDslot r.entry) →
    (s.isReserved g = true → exec (.keyUnwrapErase rid) s = .next (s.reject rid St.keySlotInvalid 0x03)) ∧
    (s.isReserved g = false → (s.slot g).st = .empty → exec (.keyUnwrapErase rid) s = .next (s.complete rid St.success 0 0)) ∧
    (s.isReserved g = false → (s.slot g).st ≠ .empty → ∃ t x, exec (.keyUnwrapErase rid) s = .next t ∧
      (t.slot g).st = .empty ∧ (t.slot g).mat = [] ∧ (∀ h, h ≠ g → t.slot h = s.slot h) ∧
      t.req rid = some x ∧ x.phase = .waitAck ∧ x.waitSeqAck = some s.nextSeq ∧ t.persist.change = true ∧
      t = { s with hw := t.hw, units := t.units, persist := t.persist, pair := t.pair, reqs := t.reqs }))

/-- The six functions of PKA_OP: the checks in order; a job without a secret waits for a cluster, one with a secret waits for RAND_RDY
first and draws on its cluster before it starts; the draw, of the job's random values and the decoy key, is one generate request of the
DRBG (R345, R350, R354, R361, R370, R371). RANDOM writes chunks of at most 4096 bytes of fresh DRBG output with CLASS 2, or waits for
RAND_RDY; a request that has waited 2 ms completes ENTROPY_NOT_READY (R370 to R372). -/
def Obligations.PkaAndRandomRequests : Prop :=
  (∀ (s : State) (rid : Nat) (r : Req), s.req rid = some r → r.opcode = Opc.pkaOp → r.origOp = Opc.pkaOp →
    (pkaBodyOk r.entry = false → s.pkaChecks r.part r.entry = some (St.malformed, 0x0A)) ∧
    (pkaBodyOk r.entry = true → pkaKnown (pAlgo r.entry) (pFunc r.entry) = false → s.pkaChecks r.part r.entry = some (St.unsupported, 0)) ∧
    (∀ f, r.phase = .admitted → s.pkaChecks r.part r.entry = some f →
      (pFunc r.entry = 1 → exec (.pkaSign rid) s = .next (s.reject rid f.1 f.2)) ∧
      (pFunc r.entry = 2 → exec (.pkaVerify rid) s = .next (s.reject rid f.1 f.2)) ∧
      (pFunc r.entry = 3 → exec (.pkaAgree rid) s = .next (s.reject rid f.1 f.2)) ∧
      (pFunc r.entry = 4 → exec (.pkaPubkey rid) s = .next (s.reject rid f.1 f.2)) ∧
      (pFunc r.entry = 5 → exec (.pkaEncrypt rid) s = .next (s.reject rid f.1 f.2)) ∧
      (pFunc r.entry = 6 → exec (.pkaDecrypt rid) s = .next (s.reject rid f.1 f.2))) ∧
    (r.phase = .admitted → s.pkaChecks r.part r.entry = none → ∃ t x,
      (pFunc r.entry = 1 → exec (.pkaSign rid) s = .next t) ∧ (pFunc r.entry = 2 → exec (.pkaVerify rid) s = .next t) ∧
      (pFunc r.entry = 3 → exec (.pkaAgree rid) s = .next t) ∧ (pFunc r.entry = 4 → exec (.pkaPubkey rid) s = .next t) ∧
      (pFunc r.entry = 5 → exec (.pkaEncrypt rid) s = .next t) ∧ (pFunc r.entry = 6 → exec (.pkaDecrypt rid) s = .next t) ∧
      t.req rid = some x ∧ x.tiles = pkaTiles r.entry ∧
      x.phase = (if pkaSecret (pFunc r.entry) = true ∧ s.rng.ready = false then .waitRand
        else if r.stagingNeed = 0 then .waitPlace else .waitStaging) ∧
      x.dslot = (if pkaDslot (pAlgo r.entry) (pFunc r.entry) then some (s.gOf r.part (pDslot r.entry)) else none) ∧
      x.keys.map Prod.fst = (if pkaSlot (pFunc r.entry) then [s.gOf r.part (cSlot r.entry)] else []) ∧
      t = { s with reqs := t.reqs, parts := t.parts, nextId := t.nextId }) ∧
    (∀ n, r.phase = .waitRand → r.units ≠ [] → s.rng.ready = true →
      n = pkaDraw r.entry + pkaBlind r.entry (rsaOf (s.keyOf r)).k r.randrep + 32 →
      ∃ t x, exec (.drbgDrawDone rid) s = .next t ∧ t.req rid = some x ∧ x = { r with rand := (s.drbg n).1, phase := .ready, ran := true } ∧
        t.rng = (s.drbg n).2.rng ∧ (∀ v, v ≠ r.cluster → t.unit v = s.unit v) ∧
        t = { s with reqs := t.reqs, rng := t.rng, units := t.units })) ∧
  (∀ (s : State) (rid : Nat) (r : Req), s.req rid = some r →
    (r.phase = .admitted → r.opcode = Opc.random → rndDst r.entry ≠ 0 →
      (rndLen r.entry = 0 → exec (.random rid) s = .next (s.reject rid St.lengthMismatch 0x03)) ∧
      (65536 < rndLen r.entry → exec (.random rid) s = .next (s.reject rid St.lengthMismatch 0x04)) ∧
      (rndLen r.entry ≠ 0 → rndLen r.entry ≤ 65536 → s.rng.ready = false → exec (.random rid) s = .next { s with
        reqs := Store.upd s.reqs rid (fun x => { x with phase := .waitRand }) }) ∧
      (rndLen r.entry ≠ 0 → rndLen r.entry ≤ 65536 → s.rng.ready = true → r.wrote = 0 →
        exec (.random rid) s = .next { s with
          rng := (s.drbg (min 4096 (rndLen r.entry))).2.rng
          reqs := Store.upd s.reqs rid (fun x => { x with
            phase := .writing, wrote := min 4096 (rndLen r.entry), status := St.success, detail := 0, result := 0 })
          fab := s.fab ++ s.writeTxns r.part 2 (rndDst r.entry) (s.drbg (min 4096 (rndLen r.entry))).1 (.out rid) })) ∧
    (r.phase = .waitRand → r.units = [] → s.rng.ready = false →
      exec (.entropyWaitTimeout rid) s = .next (s.reject rid St.entropyNotReady 0x01)) ∧
    (r.phase = .waitRand → s.rng.ready = true → exec (.entropyWaitTimeout rid) s = .next s))

/-! ### Raw mode -/

/-- WMAC_LIST: a partition without the permission is UNSUPPORTED 0x01, an empty RAW_CFG.CLUSTERS is UNSUPPORTED 0x02; one that passes
waits for a cluster. The checks are made as the entry is admitted, so that later writes of the registers change nothing; the admission
reserves the request's region of the result FIFO, every word 0 (R380, R381, R387, R393). -/
def Obligations.RawRequests : Prop :=
  ∀ (s : State) (rid : Nat) (r : Req), s.req rid = some r → r.opcode = Opc.wmacList → r.origOp = Opc.wmacList →
    (wmacBodyOk r.entry = false → s.rawChecks r.part r.entry = some (St.malformed, 0x0A)) ∧
    (wmacBodyOk r.entry = true → s.permits 0xB24 r.part = false → s.rawChecks r.part r.entry = some (St.unsupported, 0x01)) ∧
    (wmacBodyOk r.entry = true → s.permits 0xB24 r.part = true → s.aon 0xB20 % 256 = 0 →
      s.rawChecks r.part r.entry = some (St.unsupported, 0x02)) ∧
    (∀ f, s.rawChecks r.part r.entry = some f → ∃ x, (s.rawAdmit rid r).req rid = some x ∧ x = { r with ending := some f } ∧
      s.rawAdmit rid r = { s with reqs := (s.rawAdmit rid r).reqs }) ∧
    (∀ p, wmacBodyOk r.entry = true → s.permits 0xB24 r.part = true → s.aon 0xB20 % 256 ≠ 0 → s.part r.part = some p →
      wFifo r.entry ≠ 0 → ∃ x y, (s.rawAdmit rid r).req rid = some x ∧ (s.rawAdmit rid r).part r.part = some y ∧
        x.mask = s.aon 0xB20 % 256 ∧ x.fifo = some (p.rf.tail, wFifo r.entry) ∧ y.rf.tail = p.rf.tail + wFifo r.entry ∧
        y.rf.regions = p.rf.regions ++ [⟨p.rf.tail, wFifo r.entry, some rid⟩]) ∧
    (∀ st d, r.phase = .admitted → r.ending = some (st, d) → exec (.wmacList rid) s = .next (s.reject rid st d)) ∧
    (r.phase = .admitted → r.ending = none → ∃ t x, exec (.wmacList rid) s = .next t ∧ t.req rid = some x ∧ x.phase = .waitPlace ∧
      t = { s with reqs := t.reqs, parts := t.parts, nextId := s.nextId + 1 })

/-- R389 and R390: a read of RF_DATA returns the committed word at the read position and advances it; with none committed it reads 0 and
sets UNDERRUN; a word whose tile fails reads 0, sets TILE_ERR, advances and sends a message from source 0x49. RF_CTL acts in the order REWIND,
RELEASE, MARK, and needs every byte enabled. -/
def Obligations.ResultFifoRegisters : Prop :=
  ∀ (s : State) (part : Nat) (p : Partition) (d : Word), s.pins.fabClk = true → s.pins.aonRel = true → s.part part = some p →
    s.portErr false true (pageAt part 0xC00) = false → s.portErr false false (pageAt part 0xC04) = false →
    (0 < p.rf.avail → exec (.rfDataRead part none) s = .next { s with
      parts := Store.upd s.parts part (fun x => { x with rf := { x.rf with rd := x.rf.rd + 1 } })
      port := ⟨RegFile.get p.rf.words 0 (p.rf.rd % 2048), false⟩ }) ∧
    (∀ k, 0 < p.rf.avail → exec (.rfDataRead part (some k)) s = .next { s with
      parts := Store.upd s.parts part (fun x => { x with rf := { x.rf with tileErr := true, rd := x.rf.rd + 1 } })
      flt := { s.flt with inFlight := s.flt.inFlight ++ [⟨0x49, 0, k⟩] }
      port := ⟨0, false⟩ }) ∧
    (∀ b, p.rf.avail = 0 → exec (.rfDataRead part b) s = .next { s with
      parts := Store.upd s.parts part (fun x => { x with rf := { x.rf with underrun := true } }), port := ⟨0, false⟩ }) ∧
    (∀ ben : BitVec 4, ben ≠ 0xF → ∀ c ∈ [Instr.rfRewind part ben d, .rfRelease part ben d, .rfMark part ben d],
      exec c s = .next { s with port := ⟨0, true⟩ }) ∧
    exec (.rfRewind part 0xF 1) s = .next { s with
      parts := Store.upd s.parts part (fun x => { x with rf := { x.rf with rd := x.rf.mark } }), port := ⟨0, false⟩ } ∧
    exec (.rfRelease part 0xF 2) s = .next { s with
      parts := Store.upd s.parts part (fun x => { x with rf := { x.rf with
        release := x.rf.rd, mark := max x.rf.mark x.rf.rd
        regions := x.rf.regions.filter (fun z => z.owner.isSome || decide (x.rf.rd < z.start + z.len)) } })
      port := ⟨0, false⟩ } ∧
    exec (.rfMark part 0xF 4) s = .next { s with
      parts := Store.upd s.parts part (fun x => { x with rf := { x.rf with mark := x.rf.rd } }), port := ⟨0, false⟩ } ∧
    exec (.rfMark part 0xF 7) s = .next { s with
      parts := Store.upd s.parts part (fun x => { x with rf := { x.rf with
        rd := x.rf.mark, release := x.rf.mark, mark := x.rf.mark
        regions := x.rf.regions.filter (fun z => z.owner.isSome || decide (x.rf.mark < z.start + z.len)) } })
      port := ⟨0, false⟩ }

/-! ### Groves, contexts and exports -/

/-- A grove starts once every lane holds its key schedule; a lane that has worked through a segment, all of which has arrived, marks it done,
and the other lanes' segments stay as they are; a request that stops at a suspension point leaves its lane free, and its context waits in
reserved context tiles or in the lane's save area (R235, R239, R249, R254, R310, R311). -/
def Obligations.GrovesAndSuspension : Prop :=
  ∀ (s : State) (rid : Nat) (r : Req), s.req rid = some r →
    (r.phase = .forming → (∀ u ∈ r.units, (s.unit u).power = .awake) →
      exec (.groveFormed rid) s = .next ((s.setPhase rid .reading).advance rid)) ∧
    (∀ u, r.phase = .forming → u ∈ r.units → (s.unit u).power ≠ .awake → exec (.groveFormed rid) s = .next s) ∧
    (∀ lane g, (r.phase = .reading ∨ r.phase = .ready) → r.drawn = true →
      r.segs.find? (fun y => y.lane == some lane && !y.done) = some g → r.arrived (g.off r.entry) (g.size r.entry) = g.size r.entry →
      ∃ t x, exec (.segmentDone rid lane) s = .next t ∧ t.req rid = some x ∧
        x.segs.map (fun y => (y.start, y.len)) = r.segs.map (fun y => (y.start, y.len)) ∧
        (∃ y ∈ x.segs, y.start = g.start ∧ y.done = true) ∧
        (∀ y ∈ r.segs, y.lane ≠ some lane → y.lane ≠ none →
          ∃ z ∈ x.segs, z.start = y.start ∧ z.len = y.len ∧ z.lane = y.lane ∧ z.done = y.done) ∧
        x = { r with segs := x.segs, clean := x.clean } ∧ t = { s with reqs := t.reqs, fab := t.fab }) ∧
    (∀ lane, r.segs.find? (fun y => y.lane == some lane && !y.done) = none → exec (.segmentDone rid lane) s = .next s) ∧
    (∀ u b c, r.phase = .capturing → r.stopOk b = true → r.ending = none → r.g0 < 2 → r.units = [u] →
      (Store.find s.units u).isSome = true → r.victimOf = none → r.segs = [] → 5 ≤ r.origOp → s.seals.streams = [] →
      ∃ t x, exec (.suspendCapture rid b c) s = .next t ∧ t.req rid = some x ∧ x.phase = .waitPlace ∧ x.units = [] ∧
        (x.ctxTiles = r.tilesT ∨ (t.unit u).save = some rid) ∧ (t.unit u).work = .idle ∧ (t.unit u).charge = none ∧
        t.gov = { s.gov with grants := s.gov.grants.filter (fun g => g.frameOf.isNone) } ∧
        t.fab = s.fab ∧ t.hw = s.hw ∧ t.flt = s.flt ∧ t.mode = s.mode ∧ t.pins = s.pins) ∧
    (∀ b c, r.phase = .capturing → r.stopOk b = false → exec (.suspendCapture rid b c) s = .next s)

/-- The export engine writes the record of R259, its clear head and the AES-KW output over the head and the 64 T bytes of the context, and
the next record takes the next EXP_SEQ; in its turn it also writes the wrapped state of an HMAC (R303). CONTEXT_RESUME reads the record of
the live export that it names; one that names none is CONTEXT_INVALID 0x01; with DISCARD the live export ends ABORTED_BY_HOST. A record
that does not unwrap is CONTEXT_INVALID 0x02, one that is not this export's is 0x03; when a slot no longer holds its key the request ends
with 0x04; else the request waits for its place again (R256, R259 to R263). An HMAC state record that fails a check ends its request; else
the request goes on from the state restored (R303, R304). -/
def Obligations.ContextExport : Prop :=
  ∀ (s : State) (rid : Nat) (r : Req) (p : Partition), s.req rid = some r → s.part r.part = some p →
    (r.phase = .exporting → s.engineHead = some rid → s.writesOut rid = false →
      ∃ t bs ctx x y, exec (.exportDone rid) s = .next t ∧
        t.fab = s.fab ++ s.writeTxns r.part 2 (p.reg 0x600 + 2 ^ 32 * p.reg 0x604 + 1024 * (r.expIdx - 1)) bs (.exp rid) ∧
        bs = r.recordHead p.ctxEpoch p.expSeq ++ kwWrap (s.ctxKey r.part) (r.recordHead p.ctxEpoch p.expSeq ++ ctx) ∧
        (r.recordHead p.ctxEpoch p.expSeq).length = 32 ∧ ctx.length = 64 * r.tilesT ∧ t.req rid = some x ∧ x = { r with expSeq := p.expSeq } ∧
        t.part r.part = some y ∧ y = { p with expSeq := if p.expSeq = 0xFFFFFFFF then 1 else p.expSeq + 1 } ∧
        t = { s with parts := t.parts, reqs := t.reqs, fab := t.fab, bg := t.bg }) ∧
    (r.phase = .wrapping → s.engineHead = some rid →
      exec (.exportDone rid) s = .next (s.emitAt rid r (dState r.entry) ((Store.find r.recd wrapKeyOff).getD []) r.result)) ∧
    (r.phase = .admitted → r.opcode = Opc.contextResume →
      ∀ c, (c = .contextResume rid ∧ rDiscard r.entry = false ∨ c = .contextDiscard rid ∧ rDiscard r.entry = true) →
      (p.expCount ≤ rIndex r.entry → exec c s = .next (s.reject rid St.malformed 0x0A)) ∧
      (rIndex r.entry < p.expCount → s.liveOf r = none → exec c s = .next (s.reject rid St.contextInvalid 0x01))) ∧
    (∀ l o, r.phase = .admitted → r.opcode = Opc.contextResume → rIndex r.entry < p.expCount → s.liveOf r = some l → s.req l.rid = some o →
      (rDiscard r.entry = false → ∃ t x, exec (.contextResume rid) s = .next t ∧ t.req rid = some x ∧ x = { r with phase := .resuming } ∧
        t.fab = s.fab ++ s.readTxns r.part 1 (p.reg 0x600 + 2 ^ 32 * p.reg 0x604 + 1024 * l.idx) (72 + 64 * o.tilesT) (fun k => .recd rid k) ∧
        t = { s with reqs := t.reqs, fab := t.fab }) ∧
      (rDiscard r.entry = true → exec (.contextDiscard rid) s = .next ((s.absorb rid l.rid).endReq l.rid St.abortedByHost 0x01))) ∧
    (∀ l o, r.phase = .unwrapping → s.engineHead = some rid → r.opcode = Opc.contextResume → r.origOp = Opc.contextResume →
      s.liveOf r = some l → s.req l.rid = some o →
      exec (.contextUnwrapDone rid) s = .next (match kwUnwrap (s.ctxKey r.part) ((gathered r.recd).drop 32) with
        | none => s.reject rid St.contextInvalid 0x02
        | some u =>
          if u.take 32 ≠ (gathered r.recd).take 32 ∨ u.take 32 ≠ o.recordHead p.ctxEpoch l.seq then s.reject rid St.contextInvalid 0x03
          else if (s.absorb rid l.rid).keysSame o then (s.absorb rid l.rid).toPlace l.rid
          else (s.absorb rid l.rid).endReq l.rid St.contextInvalid 0x04)) ∧
    (r.phase = .unwrapping → s.engineHead = some rid → r.opcode = Opc.hmac →
      exec (.contextUnwrapDone rid) s = .next (match s.hmacRestore r.entry r.record r.part (s.matOf ((r.keys.head?).elim 0 (·.1))) with
        | .error (st, d) => s.endReq rid st d
        | .ok h => (s.updReq rid (fun x => { x with recd := Store.put x.recd 4096 (digestStateBytes (dAlg r.entry) h) })).toPlace rid))

/-! ### Partitions and queues -/

/-- The admin commands of queues: CREATE_QUEUE with valid fields makes the queue, disabled and empty; DESTROY_QUEUE stops it and the queue is
gone once it is idle; SET_QOS changes CLASS, URG_EN and QWEIGHT alone; QUEUE_INFO changes no queue; fields out of range are MALFORMED 0x0A
(R188 to R191). -/
def Obligations.AdminQueueCommands : Prop :=
  ∀ (s : State) (rid q : Nat) (r : Req) (p : Partition), s.req rid = some r → s.part r.part = some p → q = aQid r.entry →
    (∀ c : QueueCfg, r.phase = .admitted → r.opcode = Opc.createQueue → c = cqCfg r.entry →
      (1 ≤ q → q < p.assign.queues → Store.find p.queues q = none → p.assign.classLimit ≤ c.cls → c.vector < p.assign.vectors →
        c.window = none → c.qweight ≠ 0 → 6 ≤ c.sqLog2 → c.sqLog2 ≤ 16 → 6 ≤ c.cqLog2 → c.cqLog2 ≤ 16 →
        c.sqBase % min 4096 (32 * 2 ^ c.sqLog2) = 0 → c.cqBase % min 4096 (16 * 2 ^ c.cqLog2) = 0 →
        ∃ u : State, exec (.createQueue rid) s = .next (u.complete rid St.success 0 0) ∧ u.queue r.part q = some (Queue.fresh c) ∧
          (∀ k, k ≠ q → u.queue r.part k = s.queue r.part k) ∧ u.persist.change = true ∧
          u = { s with parts := u.parts, persist := u.persist, pair := u.pair }) ∧
      (q = 0 ∨ p.assign.queues ≤ q ∨ (Store.find p.queues q).isSome = true ∨ c.cls < p.assign.classLimit ∨ c.qweight = 0 ∨ c.sqLog2 < 6 ∨
        16 < c.cqLog2 → exec (.createQueue rid) s = .next (s.reject rid St.malformed 0x0A))) ∧
    (r.phase = .admitted → r.opcode = Opc.destroyQueue → p.ioQueue q = false →
      exec (.destroyQueue rid) s = .next (s.reject rid St.malformed 0x0A)) ∧
    (∀ x, r.phase = .admitted → r.opcode = Opc.destroyQueue → p.ioQueue q = true → bitAt (fld r.entry 10 1) 0 = false →
      s.queue r.part q = some x → ∃ t y, exec (.destroyQueue rid) s = .next t ∧ t.queue r.part q = some y ∧ y.en = false ∧
        y.dying = true ∧ y.cache = [] ∧ y.cfg = x.cfg ∧ t.req rid = some { r with phase := .waitIdle } ∧
        t = { s with parts := t.parts, reqs := t.reqs, fab := t.fab }) ∧
    (r.phase = .waitIdle → s.queueIdle r.part q = true → ∃ u : State,
      exec (.destroyQueueIdle rid) s = .next (u.complete rid St.success 0 0) ∧ u.queue r.part q = none ∧
      (∀ k, k ≠ q → u.queue r.part k = s.queue r.part k) ∧ u = { s with parts := u.parts, persist := u.persist, pair := u.pair }) ∧
    (r.phase = .waitIdle → s.queueIdle r.part q = false → exec (.destroyQueueIdle rid) s = .next s) ∧
    (∀ x, r.phase = .admitted → r.opcode = Opc.queueInfo → s.queue r.part q = some x →
      exec (.queueInfo rid) s = .next (s.complete rid St.success 0 (s.queueInfo r.part q x))) ∧
    (r.phase = .admitted → r.opcode = Opc.queueInfo → s.queue r.part q = none →
      exec (.queueInfo rid) s = .next (s.reject rid St.malformed 0x0A)) ∧
    (∀ (x : Queue) (c : QueueCfg), r.phase = .admitted → r.opcode = Opc.setQos → c = cqCfg r.entry → p.ioQueue q = true →
      p.assign.classLimit ≤ c.cls → c.qweight ≠ 0 → s.queue r.part q = some x →
      ∃ u : State, exec (.setQos rid) s = .next (u.complete rid St.success 0 0) ∧
        u.queue r.part q = some { x with cfg := { x.cfg with cls := c.cls, urgEn := c.urgEn, qweight := c.qweight } } ∧
        u = { s with parts := u.parts, persist := u.persist, pair := u.pair }) ∧
    (r.phase = .admitted → r.opcode = Opc.setQos → p.ioQueue q = false ∨ (cqCfg r.entry).qweight = 0 →
      exec (.setQos rid) s = .next (s.reject rid St.malformed 0x0A))

/-- The manager's commands: the refusals of R177 in order; CREATE makes the partition with its assignment, the lowest free slots, queue 0
and no other queue; RESET and DESTROY begin a partition reset, and so does a driver's PARTITION_RESET. Once the partition's fabric work is
over and every request that the reset ends has ended, its streams close, and the reset ends when none of them is left (R172 to R179, R192,
R193, R394). -/
def Obligations.PartitionCommands : Prop :=
  ∀ (s u : State) (part : Nat) (d : Word), s.pins.fabClk = true → s.pins.aonRel = true → s.portErr true false 0x400 = false →
    u = s.cmdRw 0x400 s.pm.busy.isSome 0x10000 0xF d → part = u.blk 0x400 % 64 →
    (∀ c ∈ [Instr.pmCreate true 0xF d, .pmDestroy true 0xF d, .pmReset true 0xF d],
      (s.pm.busy ≠ none → exec c s = .next { u with pm := { u.pm with rej := true, reason := 7, lastPart := part }, port := ⟨0, false⟩ }) ∧
      (s.pm.busy = none → s.serving = false →
        exec c s = .next { u with pm := { u.pm with rej := true, reason := 6, lastPart := part }, port := ⟨0, false⟩ })) ∧
    (s.pm.busy = none → s.serving = true → ∀ c ∈ [Instr.pmDestroy true 0xF d, .pmReset true 0xF d],
      s.part part = none →
        exec c s = .next { u with pm := { u.pm with rej := true, reason := 2, lastPart := part }, port := ⟨0, false⟩ }) ∧
    (∀ p, s.pm.busy = none → s.serving = true → s.part part = some p → s.ownReset part = false →
      (exec (.pmCreate true 0xF d) s = .next { u with pm := { u.pm with rej := true, reason := 1, lastPart := part }, port := ⟨0, false⟩ }) ∧
      (exec (.pmReset true 0xF d) s = .next { u.pmBegin part .byReset with port := ⟨0, false⟩ }) ∧
      (exec (.pmDestroy true 0xF d) s = .next { u.pmBegin part .byDestroy with port := ⟨0, false⟩ })) ∧
    (s.pm.busy = none → s.serving = true → s.part part = none →
      (assignOk u.pmAssign = false →
        exec (.pmCreate true 0xF d) s = .next { u with pm := { u.pm with rej := true, reason := 3, lastPart := part }, port := ⟨0, false⟩ }) ∧
      (assignOk u.pmAssign = true → u.poolsHold u.pmAssign = false →
        exec (.pmCreate true 0xF d) s = .next { u with pm := { u.pm with rej := true, reason := 4, lastPart := part }, port := ⟨0, false⟩ }) ∧
      (assignOk u.pmAssign = true → u.poolsHold u.pmAssign = true → u.budgetMw < 400 + u.shares + u.pmAssign.shareMw →
        exec (.pmCreate true 0xF d) s = .next { u with pm := { u.pm with rej := true, reason := 5, lastPart := part }, port := ⟨0, false⟩ }) ∧
      (assignOk u.pmAssign = true → u.poolsHold u.pmAssign = true → 400 + u.shares + u.pmAssign.shareMw ≤ u.budgetMw →
        ∃ t p, exec (.pmCreate true 0xF d) s = .next t ∧ t.part part = some p ∧ p.assign = u.pmAssign ∧
          p.slotMap = u.slotsFor u.pmAssign.slots ∧ p.queues = [(0, { queue0 u.pmAssign with vt := [] })] ∧ p.reset = none ∧
          (∀ k, k ≠ part → t.part k = s.part k) ∧ t.pm.busy = none ∧ t.pm.done = true ∧ t.pm.lastPart = part ∧
          t.persist.change = true ∧ t = { u with parts := t.parts, pm := t.pm, persist := t.persist, pair := t.pair, port := ⟨0, false⟩ })) ∧
    (∀ rid r, s.req rid = some r → r.phase = .admitted → r.opcode = Opc.partitionReset →
      exec (.partitionReset rid) s = .next ((s.setPhase rid .resetting).beginReset r.part (.byDriver rid) false)) ∧
    (∀ k p x, s.part k = some p → p.reset = some x →
      (x.closing = false → (∀ t ∈ s.fab, t.part ≠ k) → s.dropping k = false →
        exec (.partResetFabricIdle k) s = .next ((s.resetClose k).resetOn k)) ∧
      (x.closing = false → (∃ t ∈ s.fab, t.part = k) ∨ s.dropping k = true → exec (.partResetFabricIdle k) s = .next s) ∧
      (x.closing = true → x.waitAck = none → (∀ y ∈ s.seals.streams, y.2.part ≠ k) →
        exec (.partResetFabricIdle k) s = .next (s.endReset k x)) ∧
      (x.closing = true → (∃ y ∈ s.seals.streams, y.2.part = k) → exec (.partResetFabricIdle k) s = .next s))

/-! ### Seal streams -/

/-- BIND_TAP: the checks of R320 in order; one that passes asks for a digest lane's reservation, and at its grant, where the checks are made
again (log entry 46), the lowest free stream is bound and its OPEN record written. UNBIND_TAP
and SEAL_CLOSE begin the close of a bound stream with their causes, SEAL_CLOSE at a frame when it says so. TAP_OWN takes a value for a tap
without bound streams and else sets OWN_REJ. SEAL_DB takes a head that neither passes the tail nor moves back (R319 to R321, R330, R342). -/
def Obligations.SealBinding : Prop :=
  ∀ (s : State) (rid : Nat) (r : Req), s.req rid = some r →
    (∀ k, s.bindChecks r.part r.entry = none → k < 64 → s.stream k = none → (∀ j < k, s.stream j ≠ none) →
      ∃ t x, s.bindGranted rid = t ∧ t.stream k = some x ∧ x.bindRid = some rid ∧ x.part = r.part ∧ x.tap = bTap r.entry ∧
        x.chan = bChan r.entry ∧ x.rseq = 1 ∧ x.tail = 1 ∧ x.newest.rseq = 0 ∧ x.chain = x.newest.chain ∧ (∀ j, j ≠ k → t.stream j = s.stream j) ∧
        (∀ w ∈ t.fab, w ∉ s.fab → w.purpose = .sealRec k 0 ∧ w.isWrite = true) ∧ t = { s with seals := t.seals, fab := t.fab }) ∧
    (∀ st d n, s.bindChecks r.part r.entry = some (st, d, n) → s.bindGranted rid = s.complete rid st d n) ∧
    (r.phase = .admitted → r.opcode = Opc.bindTap →
      (bitAt (s.aon (0xA40 + 4 * bTap r.entry)) 7 = false → exec (.bindTap rid) s = .next (s.complete rid St.malformed 0x0A 1)) ∧
      (∀ x ∈ s.seals.streams, bitAt (s.aon (0xA40 + 4 * bTap r.entry)) 7 = true → s.aon (0xA40 + 4 * bTap r.entry) % 64 = r.part →
        x.2.tap = bTap r.entry → x.2.chan = bChan r.entry → exec (.bindTap rid) s = .next (s.complete rid St.malformed 0x0A 2)) ∧
      (s.bindChecks r.part r.entry = none →
        exec (.bindTap rid) s = .next (({ s with
          reqs := Store.upd s.reqs rid (fun x => { x with phase := .waitBind })
          gov := { s.gov with grants := s.gov.grants ++ [{ gid := s.nextId, what := .bind rid, units := [], part := some r.part,
                                                           charge := resv s.mode.active .digest, cls := r.cls, seq := s.nextId }] }
          nextId := s.nextId + 1 } : State).issueNew s.nextId))) ∧
    (∀ k x, r.phase = .admitted → k = fld r.entry 8 1 % 64 → s.streamOf r.part k = some x → x.closing = none →
      (r.opcode = Opc.unbindTap →
        exec (.unbindTap rid) s = .next ((s.setPhase rid .waitClose).beginClose k 2 (some rid) none)) ∧
      (r.opcode = Opc.sealClose → eFlag r.entry 0 = false →
        exec (.sealClose rid) s = .next ((s.setPhase rid .waitClose).beginClose k 1 (some rid) none)) ∧
      (r.opcode = Opc.sealClose → eFlag r.entry 0 = true → x.frames ≠ [] → ∃ t y, exec (.sealClose rid) s = .next t ∧
        t.stream k = some y ∧ y = { x with closing := some ⟨1, some rid, some (fld r.entry 16 8), false⟩ } ∧
        t = { s with reqs := t.reqs, seals := t.seals })) ∧
    (∀ k, r.phase = .admitted → k = fld r.entry 8 1 % 64 → s.streamOf r.part k = none → ∀ c, (c = .unbindTap rid ∧ r.opcode = Opc.unbindTap ∨
      c = .sealClose rid ∧ r.opcode = Opc.sealClose) → exec c s = .next (s.reject rid St.malformed 0x0A)) ∧
    (∀ (p : Bool) (ben : BitVec 4) (tap : Nat) (d : Word), s.pins.fabClk = true → s.pins.aonRel = true →
      s.portErr p false (0xA40 + 4 * tap) = false → tap < 16 →
      (s.tapBound tap = true → exec (.tapOwnWrite p ben tap d) s = .next { s with
        seals := { s.seals with ownRej := true }, port := ⟨0, false⟩ }) ∧
      (s.tapBound tap = false → exec (.tapOwnWrite p ben tap d) s = .next { s with
        regsAon := RegFile.set s.regsAon 0 (0xA40 + 4 * tap) (mergeWord (wordOf (s.aon (0xA40 + 4 * tap))) 0xBF ben d)
        port := ⟨0, false⟩ })) ∧
    (∀ (part k : Nat) (x : Stream) (d : Word), s.pins.fabClk = true → s.pins.aonRel = true →
      s.portErr false false (pageAt part (0x1000 + 16 * k)) = false →
      s.streamOf part k = some x →
      (d.toNat / 2 ^ 17 ≠ 0 ∨ x.ringSize ≤ d.toNat % 2 ^ 16 → exec (.sealDb part k 0xF d) s =
        .next { (s.updStream k (fun y => { y with dbErr := true })).errEvent part with port := ⟨0, false⟩ }) ∧
      (d.toNat / 2 ^ 17 = 0 → d.toNat % 2 ^ 16 < x.ringSize →
        occ x.ringSize x.tail (x.ringSize * (d.toNat / 2 ^ 16 % 2) + d.toNat % 2 ^ 16) ≤ occ x.ringSize x.tail x.head → x.ckptDue = false →
        exec (.sealDb part k 0xF d) s = .next { s with
          seals := { s.seals with streams := Store.upd s.seals.streams k (fun y => { y with
            head := x.ringSize * (d.toNat / 2 ^ 16 % 2) + d.toNat % 2 ^ 16 }) }
          port := ⟨0, false⟩ }))

/-! ### Heartwood and the ledger -/

/-- HW_CMD: outside MAINTENANCE every operation is refused with 1, while one is under way with 7, an undefined OP with 8, a partition that
does not exist with 2, a slot at or above SLOTS with 3. ERASE_SLOT empties the slot, ZEROISE_PART every slot and the KEK of the partition,
ZEROISE everything, each BUSY until its images are acknowledged; LOAD_KEK asks for a lane. LEDGER_PURGE.GO removes the accounts that no slot
refers to and is refused outside MAINTENANCE (R287, R404, R410 to R412). -/
def Obligations.HeartwoodCommands : Prop :=
  ∀ (s u : State) (p : Bool) (ben : BitVec 4) (d : Word) (part loc : Nat), s.pins.fabClk = true → s.pins.aonRel = true →
    s.portErr p false 0xC00 = false →
    ben.getLsbD 0 = true → u = s.cmdRw 0xC00 s.hw.op.isSome 0x40000000 ben d →
    part = bitsAt (u.blk 0xC00) 8 6 → loc = bitsAt (u.blk 0xC00) 16 12 →
    (s.hw.op ≠ none → ∀ c ∈ [Instr.loadKek p ben d, .eraseSlot p ben d, .zeroisePart p ben d, .zeroise p ben d, .hwCmdUndefinedOp p ben d],
      exec c s = .next { u with hw := { s.hw with rej := true, reason := 7 }, port := ⟨0, false⟩ }) ∧
    (s.hw.op = none → exec (.hwCmdUndefinedOp p ben d) s = .next { u with hw := { s.hw with rej := true, reason := 8 }, port := ⟨0, false⟩ }) ∧
    (s.hw.op = none → s.maintaining = false → ∀ c ∈ [Instr.loadKek p ben d, .eraseSlot p ben d, .zeroisePart p ben d, .zeroise p ben d],
      exec c s = .next { u with hw := { s.hw with rej := true, reason := 1 }, port := ⟨0, false⟩ }) ∧
    (s.hw.op = none → s.maintaining = true → s.part part = none → ∀ c ∈ [Instr.loadKek p ben d, .eraseSlot p ben d, .zeroisePart p ben d],
      exec c s = .next { u with hw := { s.hw with rej := true, reason := 2 }, port := ⟨0, false⟩ }) ∧
    (s.hw.op = none → s.maintaining = true → (s.part part).isSome = true → s.slotIn part loc = false →
      exec (.eraseSlot p ben d) s = .next { u with hw := { s.hw with rej := true, reason := 3 }, port := ⟨0, false⟩ }) ∧
    (s.hw.op = none → s.maintaining = true → (s.part part).isSome = true → s.slotIn part loc = true →
      (s.slot (s.gOf part loc)).st ≠ .empty → ∃ t g, exec (.eraseSlot p ben d) s = .next t ∧ (t.slot (s.gOf part loc)).st = .empty ∧
        (∀ h, h ≠ s.gOf part loc → t.slot h = s.slot h) ∧ t.hw.op = some (.erase s.nextSeq g) ∧ t.hw.keks = s.hw.keks ∧
        t = { u with units := t.units, reqs := t.reqs, hw := t.hw, persist := t.persist, pair := t.pair, port := ⟨0, false⟩ }) ∧
    (∀ x, s.hw.op = none → s.maintaining = true → s.part part = some x → ∃ t g, exec (.zeroisePart p ben d) s = .next t ∧
      (∀ h ∈ x.slotMap, (t.slot h).st = .empty) ∧ (∀ h, h ∉ x.slotMap → t.slot h = s.slot h) ∧ Store.find t.hw.keks part = none ∧
      t.hw.op = some (.erase s.nextSeq g) ∧
      t = { u with units := t.units, reqs := t.reqs, hw := t.hw, persist := t.persist, pair := t.pair, port := ⟨0, false⟩ }) ∧
    (s.hw.op = none → s.maintaining = true → ∃ t g, exec (.zeroise p ben d) s = .next t ∧ (∀ h < 4096, (t.slot h).st = .empty) ∧
      t.hw.keks = [] ∧ t.hw.op = some (.zeroise s.nextSeq [false, false] g) ∧ t.zeroising = true ∧ t.persist.change = true ∧
      t = { u with units := t.units, reqs := t.reqs, hw := t.hw, persist := t.persist, pair := t.pair, port := ⟨0, false⟩ }) ∧
    (s.hw.op = none → s.maintaining = true → (s.part part).isSome = true → ∃ v : State, exec (.loadKek p ben d) s =
      .next { v.issueNew (s.nextId + 1) with port := ⟨0, false⟩ } ∧ v.hw.op = some (.loadKek part s.nextId) ∧
        (∃ x, v.req s.nextId = some x ∧ x.owner = .kek ∧ x.part = part ∧ x.phase = .waitGrant) ∧
        (∃ g ∈ v.gov.grants, g.what = .loadKek s.nextId ∧ g.part = none)) ∧
    (s.portErr p false 0x80C = false → ben = 0xF →
      (s.maintaining = false → ∃ t, exec (.ledgerPurgeGo p ben d) s = .next t ∧ t.ledger.purgeRej = true ∧ t.ledger.accts = s.ledger.accts ∧
        t = { s with ledger := t.ledger, regsBlk := t.regsBlk, port := ⟨0, false⟩ }) ∧
      (s.maintaining = true → s.ledger.purge = none → ∃ t, exec (.ledgerPurgeGo p ben d) s = .next t ∧
        t.ledger.accts = s.ledger.accts.filter (fun a => !((s.ledger.accts.filter (fun b => !(s.acctBound b.2))).map (·.1)).contains a.1) ∧
        t.ledger.purge = some s.nextSeq ∧ t.persist.change = true ∧
        t = { s with ledger := t.ledger, regsBlk := t.regsBlk, persist := t.persist, pair := t.pair, port := ⟨0, false⟩ }))

/-! ### Seal streams: taps, the chain, checkpoints -/

/-- Beats of a tap that is not active, or with bit 8 of the marker word, change nothing (R314, R318). A header beat of a bound stream with room
opens a frame with its fields; a data beat adds its 64 bytes and an EOF beat those that BYTES names, each in a seal-buffer tile that the frame
then holds, and the EOF beat ends the frame; a beat that finds no tile left makes it unsealed with OVERLOAD, and an ABORT beat with ABANDONED;
without a stream the frame is ignored (R315 to R317, R326, R327). Lanes have consumed beats of their frames before, how many is a free value
(log entry 61). -/
def Obligations.TapBeats : Prop :=
  ∀ (s : State) (tap : Nat) (data : BitVec 512) (mrk : BitVec 16),
    (s.pins.blkRel = false ∨ s.pins.fabClk = false ∨ s.tapActive tap = false ∨ mrk.getLsbD 8 = true →
      ∀ c ∈ [Instr.tapHeaderBeat tap data mrk, .tapDataBeat tap data mrk, .tapEofBeat tap data mrk, .tapAbortBeat tap data mrk],
        exec c s = .next s) ∧
    (s.pins.blkRel = true → s.pins.fabClk = true → s.tapActive tap = true → mrk.getLsbD 8 = false →
      (mrk.getLsbD 1 = false → mrk.getLsbD 9 = false → s.openOf tap = none →
        (s.streamAt tap (hChan (leBytes 64 data.toNat)) = none → exec (.tapHeaderBeat tap data mrk) s = .next (s.setOpen tap 64)) ∧
        (∀ u k x₀ x, s.streamAt tap (hChan (leBytes 64 data.toNat)) = some (k, x₀) → u = s.consume k →
          u.streamAt tap (hChan (leBytes 64 data.toNat)) = some (k, x) → u.stream k = some x → x.pastClose = false →
          x.wrErr = none → x.refuse = none → (∀ f ∈ x.frames, f.reason = none) →
          ∃ t y f, exec (.tapHeaderBeat tap data mrk) s = .next t ∧ t.openOf tap = some k ∧ t.stream k = some y ∧ y.frames = x.frames ++ [f] ∧
            f.fid = hFid (leBytes 64 data.toNat) ∧ f.time = (if x.timeSrc then s.time.ns else hTime (leBytes 64 data.toNat)) ∧
            f.declLen = hLen (leBytes 64 data.toNat) ∧ f.data = [] ∧ f.ended = false ∧ f.reason = none ∧ f.lane = none ∧
            f.slots = x.slotsWanted ∧ t = { s with seals := t.seals, nextId := s.nextId + 1, picks := t.picks })) ∧
      (∀ u k x f, s.openOf tap = some k → k < 64 → u = s.consume k → u.stream k = some x → x.frames.getLast? = some f →
        (x.tilesUsed < x.quota → f.data.length + 64 < 2 ^ 32 - 1 →
          (mrk.getLsbD 1 = false → exec (.tapDataBeat tap data mrk) s = .next ((u.updStream k (fun y => { y with
            frames := y.frames.dropLast ++ [{ f with data := f.data ++ leBytes 64 data.toNat, held := f.held + 1, ended := false }] })).afterSeal k)) ∧
          (mrk.getLsbD 0 = false → mrk.getLsbD 9 = false → exec (.tapEofBeat tap data mrk) s =
            .next (((u.updStream k (fun y => { y with
              frames := y.frames.dropLast ++ [{ f with
                data := f.data ++ (leBytes 64 data.toNat).take (bitsAt (mrk ||| 2#16).toNat 2 6 + 1), held := f.held + 1, ended := true }] })).noOpen
                  tap).afterSeal k))) ∧
        (x.quota ≤ x.tilesUsed → mrk.getLsbD 1 = false → exec (.tapDataBeat tap data mrk) s =
          .next (((u.unseal k f.seq rOverload).setOpen tap (192 + k)).afterSeal k))) ∧
      (∀ k f, s.openOf tap = some k → k < 64 → s.lastFrame k = some f → mrk.getLsbD 0 = false → exec (.tapAbortBeat tap data mrk) s =
        .next (((s.unseal k f.seq rAbandoned).noOpen tap).afterSeal k)) ∧
      (s.openOf tap = none →
        (mrk.getLsbD 1 = false → exec (.tapDataBeat tap data mrk) s = .next s) ∧
        (mrk.getLsbD 0 = false → mrk.getLsbD 9 = false → exec (.tapEofBeat tap data mrk) s = .next (s.send (tapUnit tap) 1 0)) ∧
        (mrk.getLsbD 0 = false → exec (.tapAbortBeat tap data mrk) s = .next s)))

/-- FRAME_CHAIN_STEP gives the head frame its FRAME record: the chain value is HMAC-SHA-384 over the last one, the frame's digest, its FID
and its time, and the record's sequence number and ring slot are used up (R323, R329); a failed tile makes it unsealed (R326). A frame
that waited too long for a lane is unsealed with OVERLOAD (R327). CHECKPOINT_DUE of a bound stream that signs makes its checkpoint due and
starts its job; a job whose cluster is awake puts its signature over TAKE_ID, RSEQ and the chain value into its record (R336, R337). -/
def Obligations.FrameChainAndCheckpoints : Prop :=
  ∀ (s : State) (k : Nat) (x : Stream), s.stream k = some x →
    (∀ f fs u, x.frames = f :: fs → f.reason = none → f.lane = some u →
      (f.ended = true → x.wrErr = none → x.gap = none → ∃ (t : State) (y : Stream),
        exec (.frameChainStep k none) s = .next (((t.countG 36 1).freeUnit u).afterSeal k) ∧ t.stream k = some y ∧ y.frames = fs ∧
        y.sealed = x.sealed + 1 ∧ y.lastFid = f.fid ∧
        y.chain = hmac 2 x.sealMat (x.chain ++ hash 2 f.data ++ beBytes 8 f.fid ++ beBytes 8 f.time) ∧
        y.newest = ⟨x.rseq, f.fid, y.chain⟩ ∧ y.rseq = x.rseq + 1 ∧ y.tail = (x.tail + 1) % (2 * x.ringSize)) ∧
      (f.ended = false → exec (.frameChainStep k none) s = .next s) ∧
      (∀ n, exec (.frameChainStep k (some n)) s = .next (s.tileLost k x f n))) ∧
    (∀ f fs, x.frames = f :: fs → f.reason = none →
      (f.ended = true → exec (.frameSealTimeout k) s = .next ((s.unseal k f.seq rOverload).afterSeal k)) ∧
      (f.ended = false → exec (.frameSealTimeout k) s = .next s)) ∧
    (x.bound = true → x.signs = true → x.closeSent = false → x.wrErr = none → x.ckptFrames ≠ 0 → x.ckptFrames ≤ x.sinceCkpt →
      exec (.checkpointDue k) s = .next (((s.updStream k (fun y => { y with ckptDue := true })).startCkpt k).issueNew s.nextId)) ∧
    (x.bound = false ∨ x.signs = false ∨ x.closeSent = true → exec (.checkpointDue k) s = .next s) ∧
    (∀ c time final u n sg, x.ckptJob = some (c, time, final) → x.ckptUnit = some u → (s.unit u).power = .awake → s.rng.ready = true →
      n = (if x.signEd then 0 else 56) →
      ckptSign x.signEd x.signMat ((s.drbg (n + 32)).1.take n) (beBytes 8 x.takeId ++ beBytes 4 c.rseq ++ c.chain) = some sg →
      exec (.checkpointDone k) s = .next (((s.drbg (n + 32)).2.putCkpt k x c time final u sg).issueNew s.nextId))

/-! ### Leases and images -/

/-- LEASE_LIVE makes the account's acknowledged leases live (R271). A wait that reaches LEASE_TMO ends with LEASE_UNAVAILABLE 0x01
and sets LEASE_TMO; LEASE_TMO 0 never expires (R275, R276). Of an account's live leases the one
that has been idle longest is abandoned, and an account left without a counter is retired (R274, R278). -/
def Obligations.LeaseEvents : Prop :=
  ∀ s : State,
    (∀ acct, (∃ l ∈ s.ledger.leases, l.acct = acct ∧ s.leaseReady l = true) → s.leaseWaiters acct = [] →
      exec (.leaseLive acct) s = .next { s with
        ledger := { s.ledger with leases := s.ledger.leases.map (fun (l : Lease) =>
          if l.acct = acct ∧ s.leaseReady l then { l with live := true, used := s.nextId } else l) }
        nextId := s.nextId + 1 }) ∧
    (∀ acct, (∀ l ∈ s.ledger.leases, l.acct = acct → s.leaseReady l = false) → exec (.leaseLive acct) s = .next s) ∧
    (∀ rid r, s.req rid = some r → r.phase = .waitLease →
      (s.aon 0x800 % 0x400 ≠ 0 → exec (.leaseWaitTimeout rid) s = .next (s.setLeaseTmo.complete rid St.leaseUnavailable 0x01 0)) ∧
      (s.aon 0x800 % 0x400 = 0 → exec (.leaseWaitTimeout rid) s = .next s)) ∧
    (∀ acct l a, s.idleLease acct = some l → Store.find s.ledger.accts l.acct = some a →
      l ∈ s.ledger.leases ∧ l.acct = acct ∧ l.live = true ∧ (∀ x ∈ s.ledger.leases, x.acct = acct → x.live = true → l.used ≤ x.used) ∧
      (bitsAt (s.aon 0x800) 16 8 ≠ 0 →
        ∃ t, t = { s with ledger := { s.ledger with leases := s.ledger.leases.filter (fun x => !(x.acct == l.acct && x.idx == l.idx)) } } ∧
        (t.spent l.acct a = false → exec (.leaseIdleExpiry acct) s = .next t) ∧
        (t.spent l.acct a = true → exec (.leaseIdleExpiry acct) s = .next (t.retire l.acct))) ∧
      (bitsAt (s.aon 0x800) 16 8 = 0 → exec (.leaseIdleExpiry acct) s = .next s)) ∧
    (∀ acct, (∀ l ∈ s.ledger.leases, l.acct = acct → l.live = false) → exec (.leaseIdleExpiry acct) s = .next s)

/-- An image starts for a lease request, for the images that a boot (R429) or a ZEROISE (R410) calls for, or for changes whose batching is
over, into the bank that does not hold the newest acknowledged image, with the next sequence number (R272, R420, R421); with PERSIST_DOWN
the retry starts one (R277). PERSIST_ACK of the outstanding image acknowledges it; a NAK or the timeout loses it, LOST and PERSIST_DOWN set
and its changes are carried again; any other ACK or NAK only sets LATE (R277, R424). -/
def Obligations.PersistImages : Prop :=
  ∀ s : State,
    (∀ c, (c = Instr.imageStart ∧ s.ledger.persistDown = false ∧
        (s.persist.lease = true ∨ 0 < s.persist.boot ∨ s.zeroising = true ∨ (s.persist.change = true ∧ s.persist.batch = true)) ∨
      c = .batchExpiry ∧ s.persist.change = true ∧ s.ledger.persistDown = false ∨
      c = .persistRetryExpiry ∧ s.ledger.persistDown = true) → s.imaging = true →
      ∃ t o, exec c s = .next t ∧ t.persist.out = some o ∧ o.seq = s.persist.lastSeq + 1 ∧ o.bank = !s.persist.ackBank ∧ o.valid = false ∧
        t.persist.lastSeq = s.persist.lastSeq + 1 ∧ t.persist.change = false ∧ t.persist.lease = false ∧ t.persist.batch = false ∧
        t = { s with fab := t.fab, ledger := t.ledger, persist := t.persist, pair := t.pair }) ∧
    (s.imaging = false → exec .imageStart s = .next s ∧ exec .persistRetryExpiry s = .next s ∧
      (s.persist.change = true → exec .batchExpiry s = .next { s with persist := { s.persist with batch := true } })) ∧
    (s.persist.change = false → exec .batchExpiry s = .next s) ∧
    (s.ledger.persistDown = true → exec .imageStart s = .next s ∧
      (s.persist.change = true → exec .batchExpiry s = .next { s with persist := { s.persist with batch := true } })) ∧
    (s.ledger.persistDown = false → exec .persistRetryExpiry s = .next s) ∧
    (∀ (p : Bool) (d : Word), s.pins.fabClk = true → s.pins.aonRel = true →
      (s.portErr p false 0xD1C = false →
        (s.named d = none → exec (.persistAck p 0xF d) s = .next { s with persist := { s.persist with late := true }, port := ⟨0, false⟩ }) ∧
        (∀ o, s.named d = some o → exec (.persistAck p 0xF d) s = .next { s.imageAcked o with port := ⟨0, false⟩ })) ∧
      (s.portErr p false 0xD20 = false →
        (s.named d = none → exec (.persistNak p 0xF d) s = .next { s with persist := { s.persist with late := true }, port := ⟨0, false⟩ }) ∧
        (s.named d ≠ none → exec (.persistNak p 0xF d) s = .next { s.imageUnacked with port := ⟨0, false⟩ }))) ∧
    (∀ o, s.persist.out = some o → o.valid = true → s.aon 0xD0C % 2 ^ 16 ≠ 0 → exec .persistAckTimeout s = .next s.imageUnacked) ∧
    (s.persist.out = none ∨ s.aon 0xD0C % 2 ^ 16 = 0 → exec .persistAckTimeout s = .next s) ∧
    (∀ o, s.persist.out = some o → (∀ q ∈ s.reqs, q.2.phase ≠ .waitLease) →
      s.imageUnacked.persist.out = none ∧ s.imageUnacked.persist.lost = true ∧ s.imageUnacked.persist.change = true ∧
      s.imageUnacked.persist.lostCnt = satAdd 0xFFFF s.persist.lostCnt 1 ∧ s.imageUnacked.ledger.persistDown = true ∧
      s.imageUnacked.ledger.accts = s.ledger.accts ∧ s.imageUnacked.ledger.leases = s.ledger.leases)

/-! ### Units in MAINTENANCE, and the entropy source -/

/-- UNIT_CMD: outside MAINTENANCE every operation is refused with 1, while one is under way with 6, a unit that does not exist with 2, one
fenced by a fault with 3, FENCE of the last unit of its kind with 4, a fence in the wrong state with 5 (R518). FENCE waits for the unit's
work and then holds it (R517); TEST asks for a grant and reports (R519); UNFENCE ends the fence (R519). -/
def Obligations.UnitCommands : Prop :=
  ∀ (s v : State) (p : Bool) (ben : BitVec 4) (d : Word) (u : Nat), s.pins.fabClk = true → s.pins.aonRel = true → s.portErr p false 0x2000 = false →
    ben.getLsbD 1 = true → v = s.cmdRw 0x2000 s.bg.unitBusy.isSome 0x40000000 ben d → u = v.blk 0x2000 % 256 →
    (∀ c ∈ [Instr.unitFence p ben d, .unitTest p ben d, .unitUnfence p ben d], ∀ n,
      (s.bg.unitBusy ≠ none ∧ n = 6 ∨ s.bg.unitBusy = none ∧ s.maintaining = false ∧ n = 1 ∨
        s.bg.unitBusy = none ∧ s.maintaining = true ∧ u ∉ unitNumbers ∧ n = 2 ∨
        s.bg.unitBusy = none ∧ s.maintaining = true ∧ u ∈ unitNumbers ∧ (s.unit u).fltFence = true ∧ n = 3) →
      exec c s = .next { v with bg := { s.bg with unitRej := true, unitReason := n, lastUnit := u }, port := ⟨0, false⟩ }) ∧
    (s.bg.unitBusy = none → s.maintaining = true → u ∈ unitNumbers → (s.unit u).fltFence = false →
      (s.fenceEmpties u = true →
        exec (.unitFence p ben d) s = .next { v with bg := { s.bg with unitRej := true, unitReason := 4, lastUnit := u }, port := ⟨0, false⟩ }) ∧
      (s.fenceEmpties u = false → (s.unit u).testFence = true →
        exec (.unitFence p ben d) s = .next { v with bg := { s.bg with unitRej := true, unitReason := 5, lastUnit := u }, port := ⟨0, false⟩ }) ∧
      (s.fenceEmpties u = false → (s.unit u).testFence = false → isTapSrc u = false → exec (.unitFence p ben d) s = .next { v with
        units := Store.upd s.units u (fun x => { x with fencePend := true }), bg := { s.bg with unitBusy := some (1, u) }, port := ⟨0, false⟩ }) ∧
      (s.fenceEmpties u = false → (s.unit u).testFence = false → isTapSrc u = true →
        exec (.unitFence p ben d) s = .next { v.fenceNow u with port := ⟨0, false⟩ }) ∧
      ((s.unit u).testFence = false → ∀ c ∈ [Instr.unitTest p ben d, .unitUnfence p ben d],
        exec c s = .next { v with bg := { s.bg with unitRej := true, unitReason := 5, lastUnit := u }, port := ⟨0, false⟩ }) ∧
      ((s.unit u).testFence = true →
        exec (.unitTest p ben d) s = .next { ((({ v with bg := { s.bg with unitBusy := some (2, u), unitResult := 0 } } : State).addGrant
          .unitTest [u] none 0 3).issueNew s.nextId) with port := ⟨0, false⟩ } ∧
        exec (.unitUnfence p ben d) s = .next { v with
          units := Store.upd s.units u (fun x => x.unfence), bg := { s.bg with unitDone := true, lastUnit := u }, port := ⟨0, false⟩ })) ∧
    (∀ n, s.bg.unitBusy = some (1, n) →
      ((s.unit n).work = .idle → (s.unit n).save = none → isTapSrc n = false → exec .unitFenceEffect s = .next { s with
        units := Store.upd s.units n (fun x => { x with fencePend := false, testFence := true, testFail := false, power := .gated, charge := none })
        bg := { s.bg with unitBusy := none, unitDone := true, lastUnit := n } }) ∧
      ((s.unit n).work ≠ .idle → exec .unitFenceEffect s = .next s)) ∧
    (∀ n pass, s.bg.unitBusy = some (2, n) → (s.unit n).work = .unitTest → (s.unit n).power = .awake → s.leaving = false →
      exec (.unitTestDone pass) s = .next { s with
        units := Store.upd s.units n (fun x => { x.eraseKey with work := .idle, power := .gated, testFail := !pass })
        bg := { s.bg with unitBusy := none, unitDone := true, lastUnit := n, unitResult := if pass then 1 else 2 } })

/-- RNG_CTL.RESEED and the reseed interval start one reseed of a ready DRBG, which ends with its samples (R370, R374); a health test that
fails takes RAND_RDY and the DRBG's state away, restarts the startup tests and is reported, and their end instantiates the DRBG and makes
random bits ready again (R369, R371). A draw takes the blocks that follow V under Key, and the 2^20th since the last seed starts a reseed
(R370). The samples are free values (log entry 10). -/
def Obligations.EntropyEvents : Prop :=
  ∀ s : State,
    (∀ (p : Bool) (ben : BitVec 4) (d : Word), s.pins.fabClk = true → s.pins.aonRel = true → s.portErr p false 0xB04 = false →
      (ben.getLsbD 0 = true → d.getLsbD 0 = true → s.rng.ready = true → exec (.reseed p ben d) s = .next { s with
        rng := { s.rng with reseeding := true }, port := ⟨0, false⟩ }) ∧
      (ben.getLsbD 0 = false ∨ d.getLsbD 0 = false ∨ s.rng.ready = false ∨ s.rng.reseeding = true →
        exec (.reseed p ben d) s = .next { s with port := ⟨0, false⟩ })) ∧
    (∀ apt, s.rng.ready = true ∨ s.rng.startup = true → exec (.entropyHealthFail apt) s = .next { s with
      rng := { s.rng with key := [], v := [], count := 0, ready := false, startup := true, reseeding := false, rctFail := s.rng.rctFail || !apt
                          aptFail := s.rng.aptFail || apt, fails := satAdd 0xFF s.rng.fails 1 }
      flt := { s.flt with inFlight := s.flt.inFlight ++ [⟨0x81, 5, if apt then 2 else 1⟩] } }) ∧
    (∀ apt, s.rng.ready = false → s.rng.startup = false → exec (.entropyHealthFail apt) s = .next s) ∧
    (s.rng.startup = false → exec .entropyStartupDone s = .next s) ∧
    (∀ kv t, s.rng.startup = true →
      kv = drbgUpdate (zeros 32) (zeros 16) (blockDf ((List.range 128).map (fun i => Config.entropyByte (s.free + i)))) →
      t = { s with free := s.free + 128, rng := { s.rng with key := kv.1, v := kv.2, count := 0, startup := false, ready := true } } →
      exec .entropyStartupDone s = .next t.serveRandom ∧
      ((∀ q ∈ s.reqs, q.2.phase ≠ .waitRand) → exec .entropyStartupDone s = .next t)) ∧
    (s.rng.ready = true → exec .reseedDue s = .next { s with rng := { s.rng with reseeding := true } }) ∧
    (s.rng.ready = false → exec .reseedDue s = .next s) ∧
    (∀ kv, s.rng.reseeding = true →
      kv = drbgUpdate s.rng.key s.rng.v (blockDf ((List.range 96).map (fun i => Config.entropyByte (s.free + i)))) →
      exec .reseedSamplesDone s = .next { s with
        free := s.free + 96, rng := { s.rng with key := kv.1, v := kv.2, count := 0, reseeding := false } }) ∧
    (s.rng.reseeding = false → exec .reseedSamplesDone s = .next s) ∧
    (∀ n, (s.drbg n).1 = (drbgBlocks (aesKeys s.rng.key) (cdiv n 16) s.rng.v).take n ∧ (s.drbg n).2.rng.count = s.rng.count + 1 ∧
      (2 ^ 20 ≤ s.rng.count + 1 → s.rng.ready = true → (s.drbg n).2.rng.reseeding = true))

/-! ### Mailboxes and services -/

/-- GO fills an empty inbound mailbox, DONE empties a full outbound one, any other is GO_REJ (R464, R465). Firmware takes a message when it
can hold its reply and counts it as overrun otherwise (R464, R468); a reply goes to the outbound mailbox, or to the reply queue while the
mailbox is full (R465, R467). DB_SET sets bits 31:24 and MBX_HOST.RESTART advances the epoch (R471, R476). ECHO returns its arguments,
FW_INFO the versions, ACCT_QUERY the account of a slot, PART_USAGE the use of a partition; an unused field that is not 0 is BAD_ARG (R472,
R473). PATCH_STAGE takes the next chunk in MAINTENANCE, checks the complete image, and refuses a chunk out of order (R474). -/
def Obligations.MailboxCommands : Prop :=
  ∀ s : State,
    (∀ (p : Bool) (k : Nat) (d : Word), s.pins.fabClk = true → s.pins.aonRel = true → k < 8 → s.portErr p false (0x1040 + 0x80 * k) = false →
      (d.getLsbD 0 = true → d.getLsbD 1 = false →
        (k < 4 → (s.box k).full = false → exec (.mbGo p 0xF k d) s = .next { s with
          mbx := { s.mbx with boxes := s.mbx.boxes.set k { s.box k with full := true } }, port := ⟨0, false⟩ }) ∧
        (4 ≤ k ∨ (s.box k).full = true → exec (.mbGo p 0xF k d) s = .next { s with
          mbx := { s.mbx with boxes := s.mbx.boxes.set k { s.box k with goRej := true } }, port := ⟨0, false⟩ })) ∧
      (d.getLsbD 0 = false → d.getLsbD 1 = true →
        (4 ≤ k → (s.box k).full = true → exec (.mbDone p 0xF k d) s = .next { s with
          mbx := { s.mbx with boxes := s.mbx.boxes.set k { s.box k with data := zeros 64, full := false, origin := false } }
          port := ⟨0, false⟩ }) ∧
        (k < 4 ∨ (s.box k).full = false → exec (.mbDone p 0xF k d) s = .next { s with
          mbx := { s.mbx with boxes := s.mbx.boxes.set k { s.box k with goRej := true } }, port := ⟨0, false⟩ }))) ∧
    (∀ k, k < 4 → s.mbxServed = true → (s.box k).full = true → (s.box k).origin = false →
      (s.canReply k = true → services.contains (mSvc (s.box k).data) = true → exec (.mbTake k) s = .next { s with
        mbx := { s.mbx with
          boxes := s.mbx.boxes.set k { s.box k with data := zeros 64, full := false, origin := false }
          dbStat := s.mbx.dbStat ||| (bit32 k ||| 0)
          taken := s.mbx.taken.set k (s.takenOf k ++ [⟨(s.box k).data, none, false, false⟩]) } }) ∧
      (s.canReply k = false → ∃ t, exec (.mbTake k) s = .next t ∧ t.mbx.taken = s.mbx.taken ∧
        t.mbx.dbStat = s.mbx.dbStat ||| (bit32 k ||| 0) ||| bit32 (12 + k) ∧
          t = { s with mbx := { s.mbx with boxes := t.mbx.boxes, dbStat := t.mbx.dbStat } })) ∧
    (∀ k, s.mbxServed = false ∨ (s.box k).full = false → exec (.mbTake k) s = .next s) ∧
    (∀ k b o rest, k < 4 → s.mbxServed = true → (s.box (k + 4)).full = false →
      (s.repliesOf k = (b, o) :: rest → exec (.mbReplyPost k) s = .next ((s.setReplies k rest).deliver k b o)) ∧
      (∀ m l, s.repliesOf k = [] → s.takenOf k = ⟨m, some b, false, o⟩ :: l →
        exec (.mbReplyPost k) s = .next ((s.setTaken k l).deliver k b false))) ∧
    (∀ k b m o l, k < 4 → s.mbxServed = true → (s.box (k + 4)).full = true → s.takenOf k = ⟨m, some b, false, o⟩ :: l →
      (s.repliesOf k).length < 4 → exec (.mbReplyPost k) s = .next ((s.setTaken k l).setReplies k (s.repliesOf k ++ [(b, false)]))) ∧
    (∀ (p : Bool) (ben : BitVec 4) (d : Word), s.pins.fabClk = true → s.pins.aonRel = true →
      (s.portErr p false 0x1408 = false → exec (.dbSet p ben d) s = .next { s with
        mbx := { s.mbx with dbStat := s.mbx.dbStat ||| (benMask ben &&& d &&& 0xFF000000) }, port := ⟨0, false⟩ }) ∧
      (s.portErr p false 0x140C = false → ben.getLsbD 0 = true → d.getLsbD 0 = true → ∃ t u, t = [0, 1, 2, 3].foldl State.restartPair s ∧
        u = { t with mbx := { t.mbx with epoch := (t.mbx.epoch + 1) % 256 } } ∧
          exec (.mbxHostRestart p ben d) s = .next { u with port := ⟨0, false⟩ }) ∧
      (s.portErr p false 0x140C = false → ben.getLsbD 0 = false ∨ d.getLsbD 0 = false →
        exec (.mbxHostRestart p ben d) s = .next { s with port := ⟨0, false⟩ })) ∧
    (∀ k l i m, s.takenOf k = l → l.findIdx? (fun t => t.reply.isNone) = some i → l[i]? = some m → m.dropped = false → s.mbxServed = true →
      (mSvc m.bytes = 0x01 →
        (unusedOk m.bytes 64 = true → exec (.echo k) s =
          .next (s.setTaken k (l.set i { m with reply := some (reply m.bytes m.origin 0 (slice m.bytes 8 56)) }))) ∧
        (unusedOk m.bytes 64 = false → exec (.echo k) s =
          .next (s.setTaken k (l.set i { m with reply := some (reply m.bytes m.origin 2 []) })))) ∧
      (mSvc m.bytes = 0x02 → unusedOk m.bytes 8 = true → exec (.fwInfo k) s =
        .next (s.setTaken k (l.set i { m with reply := some (reply m.bytes m.origin 0
          (leBytes 4 Config.romVer.toNat ++ leBytes 4 s.patchVer ++ leBytes 4 (s.mbx.staged.elim 0xFFFFFFFF (fun p => fld p 4 4)))) }))) ∧
      (mSvc m.bytes = 0x10 → s.running = true → unusedOk m.bytes 12 = true → zeroAt m.bytes 9 1 = true →
        (∀ a, s.queried (fld m.bytes 8 1) (fld m.bytes 10 2) = some a → exec (.acctQuery k) s =
          .next (s.setTaken k (l.set i { m with reply := some (reply m.bytes m.origin 0
            (leBytes 8 a.hwm0 ++ leBytes 8 a.hwm1 ++ [byteOf (b2n a.ret0 + 2 * b2n a.ret1)])) }))) ∧
        (s.queried (fld m.bytes 8 1) (fld m.bytes 10 2) = none → exec (.acctQuery k) s =
          .next (s.setTaken k (l.set i { m with reply := some (reply m.bytes m.origin 2 []) })))) ∧
      (mSvc m.bytes = 0x11 →
        (s.running = false → exec (.partUsage k) s = .next (s.setTaken k (l.set i { m with reply := some (reply m.bytes m.origin 3 []) }))) ∧
        (∀ x, s.running = true → unusedOk m.bytes 9 = true → s.part (fld m.bytes 8 1) = some x → exec (.partUsage k) s =
          .next (s.setTaken k (l.set i { m with reply := some (reply m.bytes m.origin 0 (s.usage (fld m.bytes 8 1) x)) })))) ∧
      (mSvc m.bytes = 0x20 →
        (s.mode.mode ≠ .maintenance → exec (.patchStage k) s =
          .next (s.setTaken k (l.set i { m with reply := some (reply m.bytes m.origin 3 []) }))) ∧
        (∀ total, s.mode.mode = .maintenance → s.leaving = false → unusedOk m.bytes 64 = true → total = fld m.bytes 12 4 → 108 ≤ total →
          total ≤ 131072 →
          (fld m.bytes 8 4 = 0 → exec (.patchStage k) s = .next (({ s with
            mbx := { s.mbx with staging := some ((slice m.bytes 16 48).take total, total) } } : State).setTaken k
              (l.set i { m with reply := some (reply m.bytes m.origin 0 []) }))) ∧
          (∀ sofar n img st, fld m.bytes 8 4 ≠ 0 → s.mbx.staging = some (sofar, n) →
            (fld m.bytes 8 4 ≠ sofar.length → exec (.patchStage k) s = .next (({ s with mbx := { s.mbx with staging := none } } : State).setTaken k
              (l.set i { m with reply := some (reply m.bytes m.origin 5 []) }))) ∧
            (fld m.bytes 8 4 = sofar.length → total = n → sofar.length < n → n ≤ sofar.length + 48 →
              zeroAt (slice m.bytes 16 48) (n - sofar.length) (48 - (n - sofar.length)) = true →
              img = sofar ++ (slice m.bytes 16 48).take (n - sofar.length) → st = s.patchCheck img →
              exec (.patchStage k) s = .next (({ s with
                mbx := { s.mbx with staging := none, staged := if st = 0 then some img else s.mbx.staged } } : State).setTaken k
                  (l.set i { m with reply := some (reply m.bytes m.origin st []) })))))))

/-! ### Fault collection -/

/-- A message that reaches the collector is logged, raises the outputs its reaction word and floor name, and carries out the action unless
it does not apply (R481, R487, R491, R492). A watchdog expiry of a unit that holds work sends kind 3 (R479). FORCE sends kind 0xF, and the
reaction word is written unless LOCK is 1, which the first write of FLT_LOCK fixes (R484, R488, R489). A read-out log entry is released
(R494, R501). -/
def Obligations.FaultCollection : Prop :=
  ∀ s : State,
    (∀ src kind addr m u, m = (⟨src, kind, addr⟩ : FaultMsg) → s.pins.aonRel = true → src ∈ sources →
      (u = s ∧ m ∉ s.flt.inFlight ∧ s.maySend src = true ∧ s.pins.blkRel = true ∨
        m ∈ s.flt.inFlight ∧ u = { s with flt := { s.flt with inFlight := s.flt.inFlight.erase m } }) →
      ∃ v : State, exec (.faultMessage src kind addr) s = .next (if u.applies src = true then v.act src (u.action m) else v) ∧
        v.flt.lastSrc = src ∧ v.flt.lastKind = kind ∧
        v.flt.new = (u.flt.new || bitAt (u.rct src % 16 ||| (if (u.floor m).2 then 2 else 0)) 0) ∧
        v.flt.errLatch = (u.flt.errLatch || bitAt (u.rct src % 16 ||| (if (u.floor m).2 then 2 else 0)) 1) ∧
        v.pins.nmiPulses = u.pins.nmiPulses + b2n (bitAt (u.rct src % 16 ||| (if (u.floor m).2 then 2 else 0)) 2) ∧
        v.pins.chipRstReq = (u.pins.chipRstReq || bitAt (u.rct src % 16 ||| (if (u.floor m).2 then 2 else 0)) 3) ∧
        (∀ k e, u.openEntry m = some (k, e) → Store.find v.flt.log k = some { e with
          count := e.count + 1, last := s.time.ns, fatal := e.fatal || decide (u.action m = 2), sat := decide (0xFFFF ≤ e.count + 1) }) ∧
        (∀ k, u.openEntry m = none → u.freeEntry (decide (u.action m = 2)) = some k → Store.find v.flt.log k = some
          { eid := s.flt.nextEid, msg := m, fatal := decide (u.action m = 2), sat := false, count := 1, first := s.time.ns, last := s.time.ns
            closed := false }) ∧
        v = { s with flt := v.flt, bg := v.bg, pins := { s.pins with nmiPulses := v.pins.nmiPulses, chipRstReq := v.pins.chipRstReq } }) ∧
    (∀ src kind addr, s.pins.aonRel = false ∨ src ∉ sources → exec (.faultMessage src kind addr) s = .next s) ∧
    (∀ src addr, s.pins.blkRel = true → s.mode.mode ≠ .dormant →
      (isUnitSrc src = true ∧ (s.unit src).work ≠ .idle ∨ src = 0x50 ∨ src = 0x51 → exec (.watchdogExpiry src addr) s = .next { s with
        flt := { s.flt with inFlight := s.flt.inFlight ++ [⟨src, 3, addr⟩] } }) ∧
      ((s.unit src).work = .idle → src ≠ 0x50 → src ≠ 0x51 → exec (.watchdogExpiry src addr) s = .next s)) ∧
    (∀ (p : Bool) (ben : BitVec 4) (src : Nat) (d : Word), s.pins.fabClk = true → s.pins.aonRel = true →
      (s.portErr p false (0x1800 + 4 * src) = false → src ∈ sources → ben.getLsbD 3 = true →
        (s.flt.lock = true → exec (.faultForce p ben src d) s = .next { s with
          flt := { s.flt with inFlight := s.flt.inFlight ++ [⟨src, 0xF, 0⟩] }, port := ⟨0, false⟩ }) ∧
        (s.flt.lock = false → exec (.faultForce p ben src d) s = .next { s with
          regsAon := RegFile.set s.regsAon (rstOf aonTable (0x1800 + 4 * src)) (0x1800 + 4 * src)
            (rctWord src (mergeWord (wordOf (s.rct src)) 0x3F ben (d ||| 0x80000000)))
          flt := { s.flt with inFlight := s.flt.inFlight ++ [⟨src, 0xF, 0⟩] }, port := ⟨0, false⟩ })) ∧
      (s.portErr p false 0x1C04 = false →
        (ben.getLsbD 0 = true → s.flt.lockFixed = false → exec (.fltLockWrite p ben d) s = .next { s with
          flt := { s.flt with lock := d.getLsbD 0, lockFixed := true }, port := ⟨0, false⟩ }) ∧
        (ben.getLsbD 0 = false ∨ s.flt.lockFixed = true → exec (.fltLockWrite p ben d) s = .next { s with port := ⟨0, false⟩ })) ∧
      (s.portErr p false 0x1C14 = false → ben.getLsbD 0 = true → exec (.faultLogRelease p ben d) s = .next { s with
        flt := { s.flt with log := Store.del s.flt.log (s.aon 0x1C10 % 64) }, port := ⟨0, false⟩ }))

/-! ### Record rings, background work, interrupt vectors -/

/-- FAULT_RECORD_DUE writes the record of the oldest entry not yet issued at the fault ring's tail and closes the entry (R495, R496); a full
or disabled ring takes none. The doorbells of the fault and telemetry rings move the head within what is written and set DB_ERR otherwise,
and setting EN empties the ring (R495, R502, R510, R513). A telemetry window that ends advances WSEQ and restarts the counters (R510,
R512). A scrubber visits its store's tiles in ascending order and starts again at the first, and each visit counts (R504); a
calibration records the measured frequency, steps the trim and reports a lane more than 1 % off (R508). -/
def Obligations.RingsAndBackground : Prop :=
  ∀ s : State,
    (∀ k e, bitAt (s.blk 0x1C48) 8 = true → s.running = true → s.mode.safe = false → occ s.fltN s.flt.ringTail s.flt.ringHead < s.fltN →
      oldestEntry s.flt.log = some (k, e) → exec .faultRecordDue s = .next { s with
        flt := { s.flt with log := Store.put s.flt.log k { e with closed := true }, ringTail := (s.flt.ringTail + 1) % (2 * s.fltN)
                            recDrops := 0, recLost := 0 }
        fab := s.fab ++ s.writeTxns 0x40 7 (s.fltBase + 32 * (s.flt.ringTail % s.fltN))
          (e.record (decide (s.flt.ringTail / s.fltN % 2 = 0)) s.flt.recDrops s.flt.recLost) (.fltRec e.eid) }) ∧
    (bitAt (s.blk 0x1C48) 8 = false ∨ s.fltN ≤ occ s.fltN s.flt.ringTail s.flt.ringHead ∨ oldestEntry s.flt.log = none →
      exec .faultRecordDue s = .next s) ∧
    (∀ (p : Bool) (d : Word), s.pins.fabClk = true → s.pins.aonRel = true →
      (s.portErr p false 0x1C4C = false →
        (∀ v, dbIndex s.fltN d = some v → occ s.fltN s.flt.ringTail v ≤ occ s.fltN s.flt.ringTail s.flt.ringHead →
          exec (.fltRingDb p 0xF d) s = .next { s with flt := { s.flt with ringHead := v }, port := ⟨0, false⟩ }) ∧
        (dbIndex s.fltN d = none → exec (.fltRingDb p 0xF d) s = .next { s with flt := { s.flt with dbErr := true }, port := ⟨0, false⟩ })) ∧
      (s.portErr p false 0x2114 = false →
        (∀ v, dbIndex s.telN d = some v → occ s.telN s.bg.telTail v ≤ occ s.telN s.bg.telTail s.bg.telHead →
          exec (.telemDb p 0xF d) s = .next { s with bg := { s.bg with telHead := v }, port := ⟨0, false⟩ }) ∧
        (dbIndex s.telN d = none → exec (.telemDb p 0xF d) s = .next { s with bg := { s.bg with telDbErr := true }, port := ⟨0, false⟩ }))) ∧
    (∀ (p : Bool) (ben : BitVec 4) (d : Word), s.pins.fabClk = true → s.pins.aonRel = true → ben.getLsbD 1 = true →
      (s.portErr p false 0x1C48 = false → bitAt (s.blk 0x1C48) 8 = false → ∃ t, exec (.fltRingEnable p ben d) s = .next t ∧
        bitAt (t.blk 0x1C48) 8 = true ∧ t.flt = { s.flt with ringTail := 0, ringHead := 0 } ∧
        t = { s with regsBlk := t.regsBlk, flt := t.flt, port := ⟨0, false⟩ }) ∧
      (s.portErr p false 0x2108 = false → bitAt (s.blk 0x2108) 8 = false → ∃ t, exec (.telemEnable p ben d) s = .next t ∧
        bitAt (t.blk 0x2108) 8 = true ∧ t.bg = { s.bg with telTail := 0, telHead := 0 } ∧
        t = { s with regsBlk := t.regsBlk, bg := t.bg, port := ⟨0, false⟩ })) ∧
    (bitAt (s.blk 0x2108) 8 = true → bitsAt (s.blk 0x2108) 16 8 ≠ 0 → s.running = true → s.mode.safe = false →
      ∃ t, exec .telemetryWindow s = .next t ∧ t.bg.wseq = (s.bg.wseq + 1) % 2 ^ 32 ∧ t.bg.gCount = [] ∧ t.bg.pCount = [] ∧
        t.bg.telHead = s.bg.telHead ∧ t = { s with fab := t.fab, bg := t.bg }) ∧
    (bitAt (s.blk 0x2108) 8 = false ∨ bitsAt (s.blk 0x2108) 16 8 = 0 → exec .telemetryWindow s = .next s) ∧
    (s.mode.fllLock = true → s.mode.mode ≠ .dormant →
      (∀ store sub tile again,
        (s.scrubTurn store sub tile = true →
          exec (.scrubTile store sub tile true again) s = .next ((s.scrubStep store sub tile).countG 48 1) ∧
          exec (.scrubTile store sub tile false again) s =
            .next (((s.scrubStep store sub tile).countG 48 1).scrubFailed store sub tile again) ∧
          (tile < scrubSize store → ∀ n, ((s.scrubStep store sub tile).countG 48 1).scrubTurn store sub n =
            decide (n = if tile + 1 = scrubSize store then 0 else tile + 1))) ∧
        (s.scrubTurn store sub tile = false → ∀ ok, exec (.scrubTile store sub tile ok again) s = .next s)) ∧
      (∀ count, ∃ t, exec (.calibration count) s = .next t ∧ t.bg.lane100k = count * s.pins.aonFreq / 10240 % 0x10000 ∧
        t.bg.trim = max (-128) (min 127 (s.bg.trim + (if count * s.pins.aonFreq * 4000 + 1024 * pointFreq s.mode.active <
          4000 * (1024 * pointFreq s.mode.active) then 1 else if 4000 * (1024 * pointFreq s.mode.active) + 1024 * pointFreq s.mode.active <
          count * s.pins.aonFreq * 4000 then -1 else 0))) ∧
            t = { s with bg := { s.bg with trim := t.bg.trim, lane100k := t.bg.lane100k, calErr := t.bg.calErr }, flt := t.flt } ∧
        (count * s.pins.aonFreq * 100 < 99 * (1024 * pointFreq s.mode.active) ∨
          101 * (1024 * pointFreq s.mode.active) < count * s.pins.aonFreq * 100 →
          t.bg.calErr = true ∧ t.flt.inFlight = s.flt.inFlight ++ [⟨0x80, 2, 0⟩]) ∧
        (99 * (1024 * pointFreq s.mode.active) ≤ count * s.pins.aonFreq * 100 →
          count * s.pins.aonFreq * 100 ≤ 101 * (1024 * pointFreq s.mode.active) →
          t.bg.calErr = s.bg.calErr ∧ t.flt = s.flt))) ∧
    (s.mode.fllLock = false → ∀ store sub tile ok again count, exec (.scrubTile store sub tile ok again) s = .next s ∧
      exec (.calibration count) s = .next s)

/-- VEC_CTL of a vector with nothing counted keeps what is written; VEC_MSET masks the vectors its word names and VEC_MCLR unmasks them and
starts what was pending; an expired coalescing timer triggers its vector (R195, R196, R558). A vector beyond the partition's assignment
keeps nothing. -/
def Obligations.InterruptVectors : Prop :=
  ∀ (s : State) (part vec : Nat) (x : Partition), s.part part = some x →
    (∀ (ben : BitVec 4) (d : Word), s.pins.fabClk = true → s.pins.aonRel = true → s.portErr false false (pageAt part (0x40C + 16 * vec)) = false →
      (x.assign.vectors ≤ vec → exec (.vecCtlWrite part vec ben d) s = .next { s with port := ⟨0, false⟩ }) ∧
      (vec < x.assign.vectors → (x.vec vec).pend = false → (x.vec vec).count = 0 → ∃ t y, exec (.vecCtlWrite part vec ben d) s = .next t ∧
        t.part part = some y ∧ y.regs = (x.rw (0x40C + 16 * vec) ben d).regs ∧ t = { s with parts := t.parts, port := ⟨0, false⟩ })) ∧
    (∀ d : Word, s.pins.fabClk = true → s.pins.aonRel = true → s.portErr false false (pageAt part 0x38) = false →
      ∃ t y, exec (.vecMset part 0xF d) s = .next t ∧
      t.part part = some y ∧ (∀ v < 32, d.getLsbD v = true → v < x.assign.vectors → y.masked v = true) ∧
      t = { s with parts := t.parts, port := ⟨0, false⟩ }) ∧
    (∀ d : Word, s.pins.fabClk = true → s.pins.aonRel = true → s.portErr false false (pageAt part 0x3C) = false →
      exec (.vecMclr part 0xF d) s =
        .next { (s.vecsNamed part d).foldl (fun t v => (t.setMask part v false).unmasked part v) s with port := ⟨0, false⟩ }) ∧
    ((x.vec vec).timer = true → exec (.vectorCoalExpiry part vec) s =
      .next ((s.updPart part (fun y => y.setVec vec { y.vec vec with timer := false })).trigger part vec)) ∧
    ((x.vec vec).timer = false → exec (.vectorCoalExpiry part vec) s = .next s)

/-! ### The pair link -/

/-- PAIR_CMD: while one waits an operation is refused with 3, outside MAINTENANCE a change of identity with 1, SET_IDENTITY within a session
with 2, RETRAIN without an identity or with EN 0 with 4; an identity taken waits for its image (R435, R457). The link goes RESET, ALIGN,
AUTH as RLK_PHY_RDY, TRAIN blocks and the AUTH frame allow: lanes are the first set of R437 that both sides have locked, and a frame whose
tag, version, PAIR_ID or INST is not right blocks it (R436 to R441). -/
def Obligations.LinkCommands : Prop :=
  ∀ s : State,
    (∀ (u : State) (p : Bool) (ben : BitVec 4) (d : Word), s.pins.fabClk = true → s.pins.aonRel = true → s.portErr p false 0xE08 = false →
      ben.getLsbD 0 = true →
      u = s.cmdRw 0xE08 s.pair.cmdWait.isSome 0 ben d →
      (∀ c n, (c ∈ [Instr.setIdentity p ben d, .unpair p ben d, .retrain p ben d] ∧ s.pair.cmdWait ≠ none ∧ n = 3 ∨
          c ∈ [Instr.setIdentity p ben d, .unpair p ben d] ∧ s.pair.cmdWait = none ∧ s.mode.mode ≠ .maintenance ∧ n = 1 ∨
          c = .setIdentity p ben d ∧ s.pair.cmdWait = none ∧ s.mode.mode = .maintenance ∧ s.session = true ∧ n = 2 ∨
          c = .retrain p ben d ∧ s.pair.cmdWait = none ∧ (s.pair.ident.paired = false ∨ bitAt (s.aon 0xE00) 0 = false) ∧ n = 4) →
        ∃ t, exec c s = .next t ∧ t.pair = { s.pair with cmdRej := true, rejReason := n } ∧
          t = { u with pair := t.pair, irq := t.irq, port := ⟨0, false⟩ }) ∧
      (s.pair.cmdWait = none → s.session = false →
        (s.mode.mode = .maintenance → ∀ c i, (c = .setIdentity p ben d ∧ i = (⟨true, s.aon 0xE04, b2n (bitAt (u.blk 0xE08) 4), false⟩ : PairId) ∨
            c = .unpair p ben d ∧ i = ⟨false, s.pair.ident.pairId, 0, false⟩) →
          ∃ t, exec c s = .next t ∧ t.pair.ident = i ∧ t.pair.cmdWait = some s.nextSeq ∧ t.persist.change = true ∧
            t.ledger.accts = s.ledger.accts ∧ t.ledger.leases = (if s.inst = (if i.paired then i.inst else 0) then s.ledger.leases else []) ∧
            t.pair.instConflict = false ∧ t.pair.dualActive = false ∧ t.ledger.solo = (s.ledger.solo && i.paired)) ∧
        (s.mode.mode = .maintenance → ∃ t, exec (.setIdentity p ben d) s = .next t ∧
          t.pair.ident = ⟨true, s.aon 0xE04, b2n (bitAt (u.blk 0xE08) 4), false⟩ ∧ t.pair.cmdWait = some s.nextSeq) ∧
        (s.pair.ident.paired = true → bitAt (s.aon 0xE00) 0 = true → s.linkMayRun = true →
          ∃ t, exec (.retrain p ben d) s = .next t ∧ t.pair.link = .reset ∧ t.pins.phyRst = true ∧ t.pair.cmdDone = true ∧
            t.pair.ident = s.pair.ident ∧ t.ledger = s.ledger)) ∧
      (s.pair.cmdWait = none → s.mode.mode = .maintenance →
        exec (.unpair p ben d) s = .next { u.setIdent ⟨false, s.pair.ident.pairId, 0, false⟩ false with port := ⟨0, false⟩ })) ∧
    (∀ v : State, ∀ level, v = { s with pins := { s.pins with phyRdy := level } } → exec (.rlkPhyRdyChange level) s = .next v.linkCheck ∧
      (level = false → s.session = false → v.linkCheck.pair.link = .off ∧ v.linkCheck.pins.phyRst = true ∧ v.linkCheck.ledger = s.ledger) ∧
      (v.linkMayRun = true → s.pair.link = .off → v.linkCheck.pair.link = .reset ∧ v.linkCheck.pins.phyRst = true) ∧
      (v.linkMayRun = true → s.pair.link ≠ .off → v.linkCheck = v)) ∧
    (s.pair.link = .reset → s.pins.phyRdy = true → ∃ t, exec .linkResetDone s = .next t ∧ t.pair.link = .align ∧ t.pins.phyRst = false ∧
      t = { s with pair := t.pair, irq := t.irq, pins := { s.pins with phyRst := false } }) ∧
    (s.pair.link ≠ .reset ∨ s.pins.phyRdy = false → exec .linkResetDone s = .next s) ∧
    (∀ mask m, s.pair.link = .align → s.linkReady = true → laneSet s.lockedMask mask.toNat = some m →
      ∃ t, exec (.trainRx mask true) s = .next t ∧ t.pair.link = .auth ∧ t.pair.lanes = m ∧ t.pair.myNonce = (s.drbg 32).1 ∧
        t = { s with pair := t.pair, irq := t.irq, rng := (s.drbg 32).2.rng }) ∧
    (∀ mask ready, s.pair.link ≠ .align ∨ ready = false ∨ s.linkReady = false → exec (.trainRx mask ready) s = .next s) ∧
    (∀ lane marker crcOk payload, (4 ≤ lane ∨ s.pair.link = .off ∨ s.pair.link = .reset →
        exec (.rlkBlockRx lane marker crcOk payload) s = .next s) ∧
      (lane < 4 → s.pair.link ≠ .off → s.pair.link ≠ .reset → (∀ m, marker = some m → m.toNat % 0x10000 ≠ 0xE21D) → (s.rxLane lane).bad < 3 →
        exec (.rlkBlockRx lane marker crcOk payload) s = .next { s with pair := { s.pair with
          rxLanes := s.pair.rxLanes.set lane { good := 0, bad := (s.rxLane lane).bad + 1, faults := 0, locked := (s.rxLane lane).locked } } }) ∧
      (∀ m, marker = some m → lane < 4 → s.pair.link ≠ .off → s.pair.link ≠ .reset → m.toNat % 0x10000 = 0xE21D →
        bitsAt m.toNat 20 4 ≠ 2 → bitsAt m.toNat 20 4 ≠ 0xF → exec (.rlkBlockRx lane marker crcOk payload) s = .next { s with
          pair := { s.pair with
            rxLanes := s.pair.rxLanes.set lane { good := min 4 ((s.rxLane lane).good + 1), bad := 0, faults := 0
                                                 locked := (s.rxLane lane).locked || min 4 ((s.rxLane lane).good + 1) == 4 }
            crcErr := if (s.rxLane lane).locked && !crcOk then satAdd 0xFFFF s.pair.crcErr 1 else s.pair.crcErr } })) ∧
    (exec .alignTimeout s = .next (if s.pair.link = .align then s.linkReset else s)) ∧
    (exec .authTimeout s = .next (if s.pair.link = .auth then s.linkReset else s)) ∧
    (exec .blockedExpiry s = .next (if s.pair.link = .blocked then s.linkReset else s)) ∧
    (s.session = false → s.linkReset.pair.link = .reset ∧ s.linkReset.pins.phyRst = true ∧ s.linkReset.pair.lanes = 0 ∧
      s.linkReset.ledger = s.ledger) ∧
    (∀ header payload tag, s.pair.link ≠ .auth → exec (.authFrameRx header payload tag) s = .next s) ∧
    (∀ header payload tag, s.pair.link = .auth →
      (payload.length ≠ 48 ∨ tag ≠ cmac (s.devKey "PRA" []) (header ++ payload) →
        ∃ t, exec (.authFrameRx header payload tag) s = .next t ∧ t.pair.link = .blocked ∧ t.pair.authErr = true ∧
          t = { s with pair := t.pair, irq := t.irq }) ∧
      (payload.length = 48 → tag = cmac (s.devKey "PRA" []) (header ++ payload) →
        (fld payload 10 2 ≠ 3 → ∃ t, exec (.authFrameRx header payload tag) s = .next t ∧ t.pair.link = .blocked ∧ t.pair.authErr = true ∧
          t.flt.inFlight = s.flt.inFlight ++ [⟨0x60, 1, 0⟩]) ∧
        (fld payload 10 2 = 3 → fld payload 0 4 ≠ s.pair.ident.pairId → ∃ t, exec (.authFrameRx header payload tag) s = .next t ∧
          t.pair.link = .blocked ∧ t.pair.idMismatch = true ∧ t.flt = s.flt) ∧
        (fld payload 10 2 = 3 → fld payload 0 4 = s.pair.ident.pairId → fld payload 4 1 = s.pair.ident.inst →
          (∀ q ∈ s.reqs, q.2.phase ≠ .waitLease) → ∃ t, exec (.authFrameRx header payload tag) s = .next t ∧ t.pair.link = .blocked ∧
            t.pair.instConflict = true ∧ t.flt.inFlight = s.flt.inFlight ++ [⟨0x60, 1, 0⟩]) ∧
        (fld payload 10 2 = 3 → fld payload 0 4 = s.pair.ident.pairId → fld payload 4 1 ≠ s.pair.ident.inst →
          ∃ t, exec (.authFrameRx header payload tag) s = .next t ∧ t.pair.link = .resync ∧ t.pair.peerMode = fld payload 6 1 % 16 ∧
            t.pair.dualActive = (s.sealing && activeCode (fld payload 6 1 % 16)) ∧ t.pair.sk = some (s.sessionKey (payload.drop 16)) ∧
            t.pair.sent = [(1, .snap), (2, .snapEnd)] ∧ t.pair.rxSeq = 0 ∧ t.pair.owed = [] ∧
            t = { s with pair := t.pair, irq := t.irq })))

/-- A graft is applied in GSEQ order within a session, a configuration graft by a FOLLOWER only, and any other changes nothing (R443, R444,
R449): accounts are merged or purged, slots, KEKs, partitions and queues follow the record, a LEASE that cannot be persisted is answered
with a NAK (R445), SNAP and SNAP_END fill and commit the shadow copy (R450), HANDOVER ends DUAL_ACTIVE (R451). Acknowledged grafts are
dropped and resent ones counted, eight times at most; the heartbeat and LINK_TMO run while SYNCED (R440, R443). -/
def Obligations.ReceivedFrames : Prop :=
  ∀ (s w : State) (gseq : Nat), w = { s with pair := { s.pair with rxSeq := gseq } } →
    (∀ fp epoch lgid inst hwm ids slot x scope part kek rec q id snap n,
      (s.session = false ∨ gseq ≠ s.pair.rxSeq + 1 →
        ∀ c ∈ [Instr.retireGraft gseq fp epoch lgid inst, .purgeGraft gseq ids, .slotGraft gseq slot x, .eraseGraft gseq scope,
            .kekGraft gseq part kek, .partGraft gseq part rec, .queueGraft gseq q, .identGraft gseq id, .snapGraft gseq snap,
            .snapEndGraft gseq n, .handoverGraft gseq], exec c s = .next s) ∧
      (s.session = false → exec (.leaseGraft gseq fp epoch lgid inst hwm) s = .next s) ∧
      (s.follows = false → ∀ c ∈ [Instr.purgeGraft gseq ids, .slotGraft gseq slot x, .eraseGraft gseq scope, .kekGraft gseq part kek,
        .partGraft gseq part rec, .queueGraft gseq q], exec c s = .next s) ∧
      (s.session = true → gseq = s.pair.rxSeq + 1 →
        (∀ u, s.running = true → u = w.mergeAcct (acctSetHwm (acctNew fp epoch lgid) inst hwm) → exec (.leaseGraft gseq fp epoch lgid inst hwm) s =
          .next (if u.cannotPersist ∨ (u.acctFind fp epoch lgid).isNone then u.nak gseq else u.oweAck gseq false).ackUp.trySync) ∧
        (s.running = true → exec (.retireGraft gseq fp epoch lgid inst) s =
            .next (w.mergeAcct (acctSetRet (acctNew fp epoch lgid) inst)).ackUp.trySync ∧
          exec (.identGraft gseq id) s = .next ({ w with pair := { w.pair with peerActive := !id.standby } } : State).ackUp.trySync ∧
          (s.pair.handover = true → s.pair.dualActive = false →
            exec (.handoverGraft gseq) s = .next ({ w with pair := { w.pair with handover := true, peerActive := false } } : State).ackUp.trySync)) ∧
        (s.follows = true →
          exec (.purgeGraft gseq ids) s = .next (ids.foldl (fun u i => (u.acctFind i.1 i.2.1 i.2.2).elim u u.dropAcct) w).ackUp.trySync ∧
          exec (.slotGraft gseq slot x) s = .next (w.takeSlot slot x).ackUp.trySync ∧
          (∀ gs, exec (.eraseGraft gseq (.slots gs)) s = .next ((w.eraseSlots gs).oweAck gseq false).ackUp.trySync) ∧
          (exec (.eraseGraft gseq (.part part)) s = .next ((w.wipePart part).oweAck gseq false).ackUp.trySync) ∧
          (exec (.eraseGraft gseq .all) s = .next (w.wipeAll.oweAck gseq false).ackUp.trySync) ∧
          exec (.kekGraft gseq part kek) s = .next (w.takeKek part kek).ackUp.trySync ∧
          (∀ r, exec (.partGraft gseq part (some r)) s = .next (((({ w with
            parts := Store.put w.parts part (takePart (w.part part) r) } : State).resetV part).dirty 0).dirty 1).ackUp.trySync) ∧
          (∀ v, v = ((w.wipePart part).dirty 0).dirty 1 → exec (.partGraft gseq part none) s =
            .next (({ v with parts := Store.del v.parts part } : State).oweAck gseq false).ackUp.trySync) ∧
          (∀ c, exec (.queueGraft gseq ⟨q.part, q.qid, some c⟩) s =
            .next ((w.updPart q.part (fun y => y.takeQueue q.qid c)).dirty 1).ackUp.trySync) ∧
          exec (.queueGraft gseq ⟨q.part, q.qid, none⟩) s =
            .next ((w.updPart q.part (fun y => { y with queues := Store.del y.queues q.qid })).dirty 1).ackUp.trySync) ∧
        (s.pair.link = .resync →
          (∀ u, u = snap.accts.foldl State.mergeAcct w → u.follows = true → u.pair.peerActive = true → snap.config.isSome = true →
            exec (.snapGraft gseq snap) s = .next ({ u with pair := { u.pair with shadow := some snap } } : State).ackUp.trySync) ∧
          (∀ u, u = snap.accts.foldl State.mergeAcct w → u.follows = false → exec (.snapGraft gseq snap) s = .next u.ackUp.trySync) ∧
          (∀ img, s.pair.shadow.bind (·.config) = some img → s.follows = true →
            exec (.snapEndGraft gseq n) s = .next ((w.commit img).oweAck gseq true).ackUp.trySync) ∧
          (s.pair.shadow = none →
            exec (.snapEndGraft gseq n) s = .next ({ w with pair := { w.pair with snapAckTx := true } } : State).ackUp.trySync)))) ∧
    (s.session = false → exec (.ackFrameRx gseq) s = .next s ∧ exec (.nakFrameRx gseq) s = .next s ∧ exec .graftRetxExpiry s = .next s) ∧
    (s.session = true → ∃ u : State, exec (.ackFrameRx gseq) s = .next u.settleAcks.tryLeave.trySync ∧
      u.pair.sent = s.pair.sent.filter (fun g => decide (gseq < g.1)) ∧
      u.ledger.leases = s.ledger.leases.map (fun (l : Lease) => { l with grafted := l.grafted || l.graft.elim false (fun n => decide (n ≤ gseq)) }) ∧
      u.pair.peerPdown = (s.pair.peerPdown && !(s.pair.sent.any (fun g => decide (g.1 ≤ gseq) && g.2.isLease))) ∧
      ((∃ g ∈ s.pair.sent, g.1 ≤ gseq) → u.pair.retx = 0) ∧ ((∃ g ∈ s.pair.sent, g.1 ≤ gseq ∧ g.2 = .snapEnd) → u.pair.snapAckRx = true) ∧
      u = { s with reqs := u.reqs, parts := u.parts, hw := u.hw, ledger := u.ledger, pair := u.pair }) ∧
    (s.session = true → (∃ g ∈ s.pair.sent, g.1 = gseq ∧ g.2.isLease = true) → s.strictPair = false → exec (.nakFrameRx gseq) s = .next { s with
      pair := { s.pair with sent := s.pair.sent.filter (fun g => g.1 != gseq), peerPdown := true }
      ledger := { s.ledger with
        solo := true
        leases := s.ledger.leases.map (fun (l : Lease) => if l.graft = some gseq then { l with graft := none } else l) } }) ∧
    exec .heartbeatRx s = .next s ∧
    (s.pair.link = .synced → exec .heartbeatDue s = .next { s with pair := { s.pair with heartbeats := s.pair.heartbeats + 1 } } ∧
      exec .linkTmoExpiry s = .next s.linkAlign) ∧
    (s.pair.link ≠ .synced → exec .heartbeatDue s = .next s ∧ exec .linkTmoExpiry s = .next s) ∧
    (s.session = true → s.pair.sent ≠ [] →
      (s.pair.retx < 8 → exec .graftRetxExpiry s = .next { s with
        pair := { s.pair with retx := s.pair.retx + 1, retxCnt := satAdd 0xFFFF s.pair.retxCnt s.pair.sent.length } }) ∧
      (8 ≤ s.pair.retx → exec .graftRetxExpiry s = .next s.linkAlign))
end

