-- ==== Sys2Proof/Laws/Stores.lean ====
section
/-! SUPPORT. What the operations on stores do: what is read after a write, the keys they keep, and that each keeps the
canonical form. -/

namespace Sys2Proof.Machine

/-! ### Reading after writing -/

@[simp] theorem Store.find_put_self {α : Type} (st : Store α) (n : Nat) (x : α) : Store.find (Store.put st n x) n = some x := by
  induction st with
  | nil => simp [Store.put, Store.find]
  | cons p r ih =>
    obtain ⟨k, a⟩ := p
    unfold Store.put
    split
    · simp [Store.find]
    · split
      · simp [Store.find]
      · rename_i h1 h2
        have : k ≠ n := fun h => h2 h.symm
        simp [Store.find, this, ih]

theorem Store.find_put_other {α : Type} (st : Store α) (n m : Nat) (x : α) (h : n ≠ m) :
    Store.find (Store.put st n x) m = Store.find st m := by
  induction st with
  | nil => simp [Store.put, Store.find, h]
  | cons p r ih =>
    obtain ⟨k, a⟩ := p
    unfold Store.put
    split
    · simp [Store.find, h]
    · split
      · rename_i h1 h2
        subst h2
        simp [Store.find, h]
      · by_cases hk : k = m <;> simp [Store.find, hk, ih]

@[simp] theorem Store.find_upd_self {α : Type} (st : Store α) (n : Nat) (f : α → α) :
    Store.find (Store.upd st n f) n = (Store.find st n).map f := by
  induction st with
  | nil => simp [Store.upd, Store.find]
  | cons p r ih =>
    obtain ⟨k, a⟩ := p
    unfold Store.upd
    split
    · simp [Store.find, *]
    · simp [Store.find, *]

theorem Store.find_upd_other {α : Type} (st : Store α) (n m : Nat) (f : α → α) (h : n ≠ m) :
    Store.find (Store.upd st n f) m = Store.find st m := by
  induction st with
  | nil => simp [Store.upd]
  | cons p r ih =>
    obtain ⟨k, a⟩ := p
    unfold Store.upd
    split
    · rename_i hk
      subst hk
      simp [Store.find, h]
    · by_cases hk : k = m <;> simp [Store.find, hk, ih]

theorem Store.find_del_other {α : Type} (st : Store α) (n m : Nat) (h : n ≠ m) : Store.find (Store.del st n) m = Store.find st m := by
  induction st with
  | nil => simp [Store.del]
  | cons p r ih =>
    obtain ⟨k, a⟩ := p
    unfold Store.del
    split
    · rename_i hk
      subst hk
      simp [Store.find, h, ih]
    · by_cases hk : k = m <;> simp [Store.find, hk, ih]

@[simp] theorem Store.find_del_self {α : Type} (st : Store α) (n : Nat) : Store.find (Store.del st n) n = none := by
  induction st with
  | nil => rfl
  | cons p r ih =>
    obtain ⟨k, a⟩ := p
    unfold Store.del
    split
    · exact ih
    · rename_i hk
      simp [Store.find, hk, ih]

/-- A register reads as it was last written. -/
@[simp] theorem RegFile.get_set_self (rf : RegFile) (rst : Word) (off : Nat) (w : Word) :
    RegFile.get (RegFile.set rf rst off w) rst off = w := by
  unfold RegFile.get RegFile.set
  split <;> simp_all

/-- A write leaves every other register alone. -/
theorem RegFile.get_set_other (rf : RegFile) (rst r : Word) (off o : Nat) (w : Word) (h : off ≠ o) :
    RegFile.get (RegFile.set rf rst off w) r o = RegFile.get rf r o := by
  unfold RegFile.get RegFile.set
  split
  · rw [Store.find_del_other _ _ _ h]
  · rw [Store.find_put_other _ _ _ _ h]

/-! ### The keys -/

@[simp] theorem Store.upd_keys {α : Type} (st : Store α) (n : Nat) (f : α → α) : (Store.upd st n f).map Prod.fst = st.map Prod.fst := by
  induction st with
  | nil => rfl
  | cons p r ih => unfold Store.upd; split <;> simp_all

@[simp] theorem Store.mapAll_keys {α : Type} (st : Store α) (f : Nat → α → α) : (Store.mapAll st f).map Prod.fst = st.map Prod.fst := by
  simp [Store.mapAll]

/-! ### The canonical form -/

theorem Store.wfFrom_le {α : Type} {st : Store α} {a b : Nat} (h : a ≤ b) (hb : Store.wfFrom b st = true) : Store.wfFrom a st = true := by
  cases st with
  | nil => rfl
  | cons p r => obtain ⟨k, x⟩ := p; simp [Store.wfFrom] at *; exact ⟨by omega, hb.2⟩

theorem Store.wfFrom_put {α : Type} {st : Store α} {lo n : Nat} (x : α) (hn : lo ≤ n) (h : Store.wfFrom lo st = true) :
    Store.wfFrom lo (Store.put st n x) = true := by
  induction st generalizing lo with
  | nil => simp [Store.put, Store.wfFrom, hn]
  | cons p r ih =>
    obtain ⟨k, a⟩ := p
    simp only [Store.wfFrom, Bool.and_eq_true, decide_eq_true_eq] at h
    unfold Store.put
    split
    · simp [Store.wfFrom, hn, h.2]; omega
    · split
      · simp_all [Store.wfFrom]
      · simp [Store.wfFrom, h.1]; exact ih (by omega) h.2

theorem Store.wfFrom_del {α : Type} {st : Store α} {lo : Nat} (n : Nat) (h : Store.wfFrom lo st = true) :
    Store.wfFrom lo (Store.del st n) = true := by
  induction st generalizing lo with
  | nil => rfl
  | cons p r ih =>
    obtain ⟨k, a⟩ := p
    simp only [Store.wfFrom, Bool.and_eq_true, decide_eq_true_eq] at h
    unfold Store.del
    split
    · exact ih (Store.wfFrom_le (by omega) h.2)
    · simp [Store.wfFrom, h.1]; exact ih h.2

theorem Store.wfFrom_upd {α : Type} {st : Store α} {lo : Nat} (n : Nat) (f : α → α) (h : Store.wfFrom lo st = true) :
    Store.wfFrom lo (Store.upd st n f) = true := by
  induction st generalizing lo with
  | nil => rfl
  | cons p r ih =>
    obtain ⟨k, a⟩ := p
    simp only [Store.wfFrom, Bool.and_eq_true, decide_eq_true_eq] at h
    unfold Store.upd
    split
    · simp [Store.wfFrom, h]
    · simp [Store.wfFrom, h.1]; exact ih h.2

theorem Store.wfFrom_filter {α : Type} {st : Store α} {lo : Nat} (f : Nat × α → Bool) (h : Store.wfFrom lo st = true) :
    Store.wfFrom lo (st.filter f) = true := by
  induction st generalizing lo with
  | nil => rfl
  | cons p r ih =>
    obtain ⟨k, a⟩ := p
    simp only [Store.wfFrom, Bool.and_eq_true, decide_eq_true_eq] at h
    rw [List.filter_cons]
    split
    · simp [Store.wfFrom, h.1]; exact ih h.2
    · exact Store.wfFrom_le (by omega) (ih h.2)

theorem Store.wfFrom_mapAll {α : Type} {st : Store α} {lo : Nat} (f : Nat → α → α) (h : Store.wfFrom lo st = true) :
    Store.wfFrom lo (Store.mapAll st f) = true := by
  induction st generalizing lo with
  | nil => rfl
  | cons p r ih =>
    obtain ⟨k, a⟩ := p
    simp only [Store.wfFrom, Bool.and_eq_true, decide_eq_true_eq] at h
    simp only [Store.mapAll, List.map_cons, Store.wfFrom, Bool.and_eq_true, decide_eq_true_eq]
    exact ⟨h.1, ih h.2⟩

theorem Store.wf_put {α : Type} {st : Store α} (n : Nat) (x : α) (h : Store.wf st = true) : Store.wf (Store.put st n x) = true :=
  Store.wfFrom_put x (Nat.zero_le n) h

theorem Store.wf_del {α : Type} {st : Store α} (n : Nat) (h : Store.wf st = true) : Store.wf (Store.del st n) = true :=
  Store.wfFrom_del n h

theorem Store.wf_upd {α : Type} {st : Store α} (n : Nat) (f : α → α) (h : Store.wf st = true) : Store.wf (Store.upd st n f) = true :=
  Store.wfFrom_upd n f h

theorem Store.wf_filter {α : Type} {st : Store α} (f : Nat × α → Bool) (h : Store.wf st = true) : Store.wf (st.filter f) = true :=
  Store.wfFrom_filter f h

theorem Store.wf_mapAll {α : Type} {st : Store α} (f : Nat → α → α) (h : Store.wf st = true) : Store.wf (Store.mapAll st f) = true :=
  Store.wfFrom_mapAll f h

/-- A register-file write keeps the canonical form. -/
theorem RegFile.wf_set {rf : RegFile} (rst : Word) (off : Nat) (w : Word) (h : Store.wf rf = true) :
    Store.wf (RegFile.set rf rst off w) = true := by
  unfold RegFile.set
  split
  · exact Store.wf_del off h
  · exact Store.wf_put off w h

theorem Store.all_put {α : Type} {st : Store α} (n : Nat) (x : α) (f : Nat × α → Bool) (hx : f (n, x) = true) (h : st.all f = true) :
    (Store.put st n x).all f = true := by
  induction st with
  | nil => simp [Store.put, hx]
  | cons p r ih =>
    obtain ⟨k, a⟩ := p
    simp only [List.all_cons, Bool.and_eq_true] at h
    unfold Store.put
    split
    · simp only [List.all_cons, hx, h.1, h.2, Bool.and_self]
    · split
      · simp only [List.all_cons, hx, h.2, Bool.and_self]
      · simp only [List.all_cons, h.1, ih h.2, Bool.and_self]

theorem Store.all_del {α : Type} {st : Store α} (n : Nat) (f : Nat × α → Bool) (h : st.all f = true) : (Store.del st n).all f = true := by
  induction st with
  | nil => rfl
  | cons p r ih =>
    obtain ⟨k, a⟩ := p
    simp only [List.all_cons, Bool.and_eq_true] at h
    unfold Store.del
    split
    · exact ih h.2
    · simp only [List.all_cons, h.1, ih h.2, Bool.and_self]

/-- A byte write keeps the canonical form of a RAM. -/
theorem Mem.wf_set {m : Mem} (a : Nat) (b : Byte) (h : Mem.wf m = true) : Mem.wf (Mem.set m a b) = true := by
  simp only [Mem.wf, Bool.and_eq_true] at *
  unfold Mem.set
  split
  · exact ⟨Store.wf_del a h.1, Store.all_del a _ h.2⟩
  · rename_i hb
    exact ⟨Store.wf_put a b h.1, Store.all_put a b _ (by simpa using hb) h.2⟩

/-- A write of consecutive bytes keeps the canonical form of a RAM. -/
theorem Mem.wf_setBytes {m : Mem} (a : Nat) (bs : Bytes) (h : Mem.wf m = true) : Mem.wf (Mem.setBytes m a bs) = true := by
  induction bs generalizing m a with
  | nil => exact h
  | cons b bs ih => exact ih (a + 1) (Mem.wf_set a b h)

end Sys2Proof.Machine
end

