-- ==== Sys2Proof/Laws/Keeps.lean ====
section
/-! SUPPORT. One lemma for each shared operation: it keeps the queue of commands, the set of units, the two reset pins,
the seal time and the test port. -/

namespace Sys2Proof.Machine

/-- `t` keeps the queue, the set of units, the two reset pins, the seal time and the test port of `s`. -/
abbrev Keeps (s t : State) : Prop :=
  t.pending = s.pending ∧ t.units.map Prod.fst = s.units.map Prod.fst ∧ t.pins.aonRel = s.pins.aonRel
    ∧ t.pins.blkRel = s.pins.blkRel ∧ t.time.ns = s.time.ns ∧ t.jtag = s.jtag

theorem Keeps.refl (s : State) : Keeps s s := ⟨rfl, rfl, rfl, rfl, rfl, rfl⟩

theorem Keeps.trans {s t u : State} (h : Keeps s t) (k : Keeps t u) : Keeps s u :=
  ⟨k.1.trans h.1, k.2.1.trans h.2.1, k.2.2.1.trans h.2.2.1, k.2.2.2.1.trans h.2.2.2.1, k.2.2.2.2.1.trans h.2.2.2.2.1, k.2.2.2.2.2.trans h.2.2.2.2.2⟩

theorem Keeps.foldl {α : Type} (f : State → α → State) (h : ∀ t x, Keeps t (f t x)) (l : List α) (s : State) :
    Keeps s (l.foldl f s) := by
  induction l generalizing s with
  | nil => exact Keeps.refl s
  | cons x l ih => exact (h s x).trans (ih (f s x))

@[simp] theorem foldl_pending {α : Type} (f : State → α → State) (h : ∀ t x, (f t x).pending = t.pending) (l : List α) (s : State) :
    (l.foldl f s).pending = s.pending := by
  induction l generalizing s <;> simp_all

@[simp] theorem elim_pending {α : Type} (o : Option α) (b : State) (f : α → State) (h : ∀ x, (f x).pending = b.pending) :
    (o.elim b f).pending = b.pending := by
  cases o <;> simp_all

@[simp] theorem ite_pending (c : Prop) [Decidable c] (a b : State) : (if c then a else b).pending = if c then a.pending else b.pending := by
  split <;> rfl

@[simp] theorem foldl_units {α : Type} (f : State → α →
    State) (h : ∀ t x, (f t x).units.map Prod.fst = t.units.map Prod.fst) (l : List α) (s : State) :
    (l.foldl f s).units.map Prod.fst = s.units.map Prod.fst := by
  induction l generalizing s <;> simp_all

@[simp] theorem elim_units {α : Type} (o : Option α) (b : State) (f : α → State) (h : ∀ x, (f x).units.map Prod.fst = b.units.map Prod.fst) :
    (o.elim b f).units.map Prod.fst = b.units.map Prod.fst := by
  cases o <;> simp_all

@[simp] theorem ite_units (c : Prop) [Decidable c] (a b : State) :
    (if c then a else b).units.map Prod.fst = if c then a.units.map Prod.fst else b.units.map Prod.fst := by
  split <;> rfl

@[simp] theorem foldl_aonRel {α : Type} (f : State → α → State) (h : ∀ t x, (f t x).pins.aonRel = t.pins.aonRel) (l : List α) (s : State) :
    (l.foldl f s).pins.aonRel = s.pins.aonRel := by
  induction l generalizing s <;> simp_all

@[simp] theorem elim_aonRel {α : Type} (o : Option α) (b : State) (f : α → State) (h : ∀ x, (f x).pins.aonRel = b.pins.aonRel) :
    (o.elim b f).pins.aonRel = b.pins.aonRel := by
  cases o <;> simp_all

@[simp] theorem ite_aonRel (c : Prop) [Decidable c] (a b : State) :
    (if c then a else b).pins.aonRel = if c then a.pins.aonRel else b.pins.aonRel := by
  split <;> rfl

@[simp] theorem foldl_blkRel {α : Type} (f : State → α → State) (h : ∀ t x, (f t x).pins.blkRel = t.pins.blkRel) (l : List α) (s : State) :
    (l.foldl f s).pins.blkRel = s.pins.blkRel := by
  induction l generalizing s <;> simp_all

@[simp] theorem elim_blkRel {α : Type} (o : Option α) (b : State) (f : α → State) (h : ∀ x, (f x).pins.blkRel = b.pins.blkRel) :
    (o.elim b f).pins.blkRel = b.pins.blkRel := by
  cases o <;> simp_all

@[simp] theorem ite_blkRel (c : Prop) [Decidable c] (a b : State) :
    (if c then a else b).pins.blkRel = if c then a.pins.blkRel else b.pins.blkRel := by
  split <;> rfl

@[simp] theorem foldl_ns {α : Type} (f : State → α → State) (h : ∀ t x, (f t x).time.ns = t.time.ns) (l : List α) (s : State) :
    (l.foldl f s).time.ns = s.time.ns := by
  induction l generalizing s <;> simp_all

@[simp] theorem elim_ns {α : Type} (o : Option α) (b : State) (f : α → State) (h : ∀ x, (f x).time.ns = b.time.ns) :
    (o.elim b f).time.ns = b.time.ns := by
  cases o <;> simp_all

@[simp] theorem ite_ns (c : Prop) [Decidable c] (a b : State) : (if c then a else b).time.ns = if c then a.time.ns else b.time.ns := by
  split <;> rfl

@[simp] theorem foldl_jtag {α : Type} (f : State → α → State) (h : ∀ t x, (f t x).jtag = t.jtag) (l : List α) (s : State) :
    (l.foldl f s).jtag = s.jtag := by
  induction l generalizing s <;> simp_all

@[simp] theorem elim_jtag {α : Type} (o : Option α) (b : State) (f : α → State) (h : ∀ x, (f x).jtag = b.jtag) :
    (o.elim b f).jtag = b.jtag := by
  cases o <;> simp_all

@[simp] theorem ite_jtag (c : Prop) [Decidable c] (a b : State) : (if c then a else b).jtag = if c then a.jtag else b.jtag := by
  split <;> rfl

@[simp] theorem State.setAon_keeps (s : State) (off : Nat) (w : Word) : Keeps s (State.setAon s off w) := by simp [Keeps, State.setAon]

@[simp] theorem State.setBlk_keeps (s : State) (off : Nat) (w : Word) : Keeps s (State.setBlk s off w) := by simp [Keeps, State.setBlk]

@[simp] theorem State.rwAon_keeps (s : State) (off : Nat) (ben : BitVec 4) (data : Word) : Keeps s (State.rwAon s off ben data) := by
  unfold State.rwAon
  (repeat' split) <;> simp [Keeps]

@[simp] theorem State.rwBlk_keeps (s : State) (off : Nat) (ben : BitVec 4) (data : Word) : Keeps s (State.rwBlk s off ben data) := by
  unfold State.rwBlk
  (repeat' split) <;> simp [Keeps]

@[simp] theorem State.bump_keeps (s : State) : Keeps s (State.bump s) := by simp [Keeps, State.bump]

@[simp] theorem State.send_keeps (s : State) (src kind addr : Nat) : Keeps s (State.send s src kind addr) := by simp [Keeps, State.send]

@[simp] theorem State.ledgerRise_keeps (s : State) : Keeps s (State.ledgerRise s) := by simp [Keeps, State.ledgerRise]

@[simp] theorem State.persistRise_keeps (s : State) : Keeps s (State.persistRise s) := by simp [Keeps, State.persistRise]

@[simp] theorem State.pairRise_keeps (s : State) : Keeps s (State.pairRise s) := by simp [Keeps, State.pairRise]

@[simp] theorem State.setDb_keeps (s : State) (w : Word) : Keeps s (State.setDb s w) := by simp [Keeps, State.setDb]

@[simp] theorem State.countG_keeps (s : State) (field n : Nat) : Keeps s (State.countG s field n) := by simp [Keeps, State.countG]

@[simp] theorem State.countP_keeps (s : State) (part field n : Nat) : Keeps s (State.countP s part field n) := by simp [Keeps, State.countP]

@[simp] theorem State.reads_keeps (s : State) (part cls addr len : Nat) (pf : Nat → Purpose) :
    Keeps s (State.reads s part cls addr len pf) := by simp [Keeps, State.reads]

@[simp] theorem State.writes_keeps (s : State) (part cls addr : Nat) (bs : Bytes) (pf : Purpose) :
    Keeps s (State.writes s part cls addr bs pf) := by simp [Keeps, State.writes]

@[simp] theorem State.setMode_keeps (s : State) (m : Mode) : Keeps s (State.setMode s m) := by simp [Keeps, State.setMode]

@[simp] theorem State.updUnit_keeps (s : State) (u : Nat) (f : UnitSt → UnitSt) : Keeps s (State.updUnit s u f) := by simp [Keeps, State.updUnit]

@[simp] theorem State.endMaintenance_keeps (s : State) : Keeps s (State.endMaintenance s) := by simp [Keeps, State.endMaintenance]

@[simp] theorem State.startDrain_keeps (s : State) : Keeps s (State.startDrain s) := by simp [Keeps, State.startDrain]

@[simp] theorem State.tryLeave_keeps (s : State) : Keeps s (State.tryLeave s) := by simp [Keeps, State.tryLeave]

@[simp] theorem State.gateFor_keeps (s : State) (budget : Nat) (us : List Nat) (n : Nat) :
    Keeps s (s.gateFor budget us n) := by
  induction n generalizing s with
  | zero => simp [Keeps, State.gateFor]
  | succ n ih => unfold State.gateFor; split <;> [exact Keeps.refl s; (split <;> [exact Keeps.trans (State.updUnit_keeps s _ _) (ih _); exact Keeps.refl s])]

@[simp] theorem State.freeUnit_keeps (s : State) (u : Nat) : Keeps s (State.freeUnit s u) := by simp [Keeps, State.freeUnit]

@[simp] theorem State.freeUnits_keeps (s : State) (us : List Nat) : Keeps s (State.freeUnits s us) := by simp [Keeps, State.freeUnits]

@[simp] theorem State.markStale_keeps (s : State) (g : Nat) : Keeps s (State.markStale s g) := by simp [Keeps, State.markStale]

@[simp] theorem State.updPart_keeps (s : State) (p : Nat) (f : Partition → Partition) :
    Keeps s (State.updPart s p f) := by simp [Keeps, State.updPart]

@[simp] theorem State.updQueue_keeps (s : State) (p q : Nat) (f : Queue → Queue) : Keeps s (State.updQueue s p q f) := by simp [Keeps, State.updQueue]

@[simp] theorem State.updReq_keeps (s : State) (rid : Nat) (f : Req → Req) : Keeps s (State.updReq s rid f) := by simp [Keeps, State.updReq]

@[simp] theorem State.setPhase_keeps (s : State) (rid : Nat) (ph : ReqPhase) : Keeps s (State.setPhase s rid ph) := by simp [Keeps, State.setPhase]

@[simp] theorem State.dirty_keeps (s : State) (sec : Nat) : Keeps s (State.dirty s sec) := by simp [Keeps, State.dirty]

@[simp] theorem State.graft_keeps (s : State) (b : GraftBody) : Keeps s (State.graft s b) := by simp [Keeps, State.graft]

@[simp] theorem State.cfgGraft_keeps (s : State) (b : GraftBody) : Keeps s (State.cfgGraft s b) := by simp [Keeps, State.cfgGraft]

@[simp] theorem State.slotDirty_keeps (s : State) (g : Nat) (tiles : List Nat) :
    Keeps s (State.slotDirty s g tiles) := by simp [Keeps, State.slotDirty]

@[simp] theorem State.acctDirty_keeps (s : State) (a : Nat) : Keeps s (State.acctDirty s a) := by simp [Keeps, State.acctDirty]

@[simp] theorem State.eraseG_keeps (s : State) (g : Nat) : Keeps s (State.eraseG s g) := by simp [Keeps, State.eraseG]

@[simp] theorem State.install_keeps (s : State) (g part : Nat) (st : SlotState) (attr : KeyAttr) (mat : Bytes) :
    Keeps s (State.install s g part st attr mat) := by simp [Keeps, State.install]

@[simp] theorem State.wrote_keeps (s : State) (err : Bool) : Keeps s (State.wrote s err) := by simp [Keeps, State.wrote]

@[simp] theorem State.readOut_keeps (s : State) (v : Nat) (err : Bool) : Keeps s (State.readOut s v err) := by simp [Keeps, State.readOut]

@[simp] theorem State.portWrite_keeps (s : State) (priv : Bool) (off : Nat) (ben : BitVec 4) (needAll : Bool) (f : State → State)
    (hf : Keeps s (f s)) : Keeps s (s.portWrite priv off ben needAll f) := by
  unfold State.portWrite
  (repeat' split) <;> simp_all [Keeps]

@[simp] theorem State.entropy_keeps (s : State) (n : Nat) :
    Keeps s ((State.entropy s n).2) := by simp [Keeps, State.entropy]

@[simp] theorem State.instantiate_keeps (s : State) : Keeps s (State.instantiate s) := by
  unfold State.instantiate
  (try dsimp only)
  (repeat' split) <;> simp [Keeps]

@[simp] theorem State.reseed_keeps (s : State) : Keeps s (State.reseed s) := by
  unfold State.reseed
  (try dsimp only)
  (repeat' split) <;> simp [Keeps]

@[simp] theorem State.drbg_keeps (s : State) (n : Nat) :
    Keeps s ((s.drbg n).2) := by simp [Keeps, State.drbg]

@[simp] theorem State.chargeV_keeps (s : State) (r : Req) (cycles : Nat) : Keeps s (State.chargeV s r cycles) := by
  unfold State.chargeV
  (try dsimp only)
  (repeat' split) <;> simp [Keeps]

@[simp] theorem State.chargeHeld_keeps (s : State) (r : Req) : Keeps s (State.chargeHeld s r) := by
  unfold State.chargeHeld
  (try dsimp only)
  (repeat' split) <;> simp [Keeps]

@[simp] theorem State.letGo_keeps (s : State) (rid : Nat) (r : Req) : Keeps s (State.letGo s rid r) := by
  unfold State.letGo
  (try dsimp only)
  (repeat' split) <;> simp [Keeps]

@[simp] theorem State.startMessage_keeps (s : State) (p v : Nat) : Keeps s (State.startMessage s p v) := by
  unfold State.startMessage
  (repeat' split) <;> simp [Keeps]

@[simp] theorem State.trigger_keeps (s : State) (p v : Nat) : Keeps s (State.trigger s p v) := by
  unfold State.trigger
  (try dsimp only)
  (repeat' split) <;> simp [Keeps]

@[simp] theorem State.countEvent_keeps (s : State) (p v : Nat) : Keeps s (State.countEvent s p v) := by
  unfold State.countEvent
  (try dsimp only)
  (repeat' split) <;> simp [Keeps]

@[simp] theorem State.errEvent_keeps (s : State) (p : Nat) : Keeps s (State.errEvent s p) := by
  unfold State.errEvent
  (try dsimp only)
  (repeat' split) <;> simp [Keeps]

@[simp] theorem State.postCq_keeps (s : State) (rid : Nat) (r : Req) : Keeps s (State.postCq s rid r) := by
  unfold State.postCq
  (try dsimp only)
  (repeat' split) <;> simp [Keeps]

@[simp] theorem State.postWaiting_keeps (s : State) (p q : Nat) :
    Keeps s (s.postWaiting p q) := by
  unfold State.postWaiting
  refine Keeps.foldl _ (fun t x => ?_) _ _
  (repeat' split) <;> simp [Keeps]

@[simp] theorem State.dropGrants_keeps (s : State) (rid : Nat) : Keeps s (State.dropGrants s rid) := by simp [Keeps, State.dropGrants]

@[simp] theorem State.dropSave_keeps (s : State) (rid : Nat) : Keeps s (State.dropSave s rid) := by
  unfold State.dropSave
  (try dsimp only)
  (repeat' split) <;> simp [Keeps]

@[simp] theorem State.complete_keeps (s : State) (rid st detail res : Nat) : Keeps s (State.complete s rid st detail res) := by
  unfold State.complete
  (try dsimp only)
  (repeat' split) <;> simp [Keeps]

@[simp] theorem State.reject_keeps (s : State) (rid st detail : Nat) : Keeps s (State.reject s rid st detail) := by simp [Keeps, State.reject]

@[simp] theorem State.writeOut_keeps (s : State) (r : Req) (off : Nat) (bs : Bytes) (pf : Purpose) :
    Keeps s (State.writeOut s r off bs pf) := by simp [Keeps, State.writeOut]

@[simp] theorem State.zeroFill_keeps (s : State) (rid : Nat) (r : Req) : Keeps s (State.zeroFill s rid r) := by simp [Keeps, State.zeroFill]

@[simp] theorem State.landKey_keeps (s : State) (rid : Nat) (r : Req) : Keeps s (State.landKey s rid r) := by
  unfold State.landKey
  (repeat' split) <;> simp [Keeps]

@[simp] theorem State.settle_keeps (s : State) (rid : Nat) : Keeps s (State.settle s rid) := by
  unfold State.settle
  (repeat' split) <;> simp [Keeps]

@[simp] theorem State.endAt_keeps (s : State) (rid st detail : Nat) : Keeps s (State.endAt s rid st detail) := by simp [Keeps, State.endAt]

@[simp] theorem State.endReq_keeps (s : State) (rid st detail : Nat) : Keeps s (State.endReq s rid st detail) := by
  unfold State.endReq
  (try dsimp only)
  (repeat' split) <;> simp [Keeps]

@[simp] theorem State.dropLive_keeps (s : State) (r : Req) (rid : Nat) : Keeps s (State.dropLive s r rid) := by simp [Keeps, State.dropLive]

@[simp] theorem State.stopReq_keeps (s : State) (rid st detail : Nat) : Keeps s (State.stopReq s rid st detail) := by
  unfold State.stopReq
  (try dsimp only)
  (repeat' split) <;> simp [Keeps]

@[simp] theorem State.abortReq_keeps (s : State) (rid st : Nat) : Keeps s (State.abortReq s rid st) := by
  unfold State.abortReq
  (repeat' split) <;> simp [Keeps]

@[simp] theorem State.dropReq_keeps (s : State) (rid : Nat) : Keeps s (State.dropReq s rid) := by
  unfold State.dropReq
  (try dsimp only)
  (repeat' split) <;> simp [Keeps]

@[simp] theorem State.commitFifo_keeps (s : State) (rid : Nat) (r : Req) : Keeps s (State.commitFifo s rid r) := by
  unfold State.commitFifo
  (try dsimp only)
  (repeat' split) <;> simp [Keeps]

@[simp] theorem State.finishReq_keeps (s : State) (rid : Nat) (ok : Bool) : Keeps s (State.finishReq s rid ok) := by
  unfold State.finishReq
  (try dsimp only)
  (repeat' split) <;> simp [Keeps]

@[simp] theorem State.raiseV_keeps (s : State) (k : UnitKind) (p q rid : Nat) : Keeps s (State.raiseV s k p q rid) := by simp [Keeps, State.raiseV]

@[simp] theorem State.toPlace_keeps (s : State) (rid : Nat) : Keeps s (State.toPlace s rid) := by
  unfold State.toPlace
  (try dsimp only)
  (repeat' split) <;> simp [Keeps]

@[simp] theorem State.enqueue_keeps (s : State) (rid : Nat) : Keeps s (State.enqueue s rid) := by
  unfold State.enqueue
  (repeat' split) <;> simp [Keeps]

@[simp] theorem State.useKeys_keeps (s : State) (rid : Nat) (gs : List Nat) : Keeps s (State.useKeys s rid gs) := by simp [Keeps, State.useKeys]

@[simp] theorem State.putAcct_keeps (s : State) (n : Nat) (a : Acct) : Keeps s (State.putAcct s n a) := by simp [Keeps, State.putAcct]

@[simp] theorem State.setExhaust_keeps (s : State) : Keeps s (State.setExhaust s) := by simp [Keeps, State.setExhaust]

@[simp] theorem State.setAcctFull_keeps (s : State) : Keeps s (State.setAcctFull s) := by simp [Keeps, State.setAcctFull]

@[simp] theorem State.setLeaseTmo_keeps (s : State) : Keeps s (State.setLeaseTmo s) := by simp [Keeps, State.setLeaseTmo]

@[simp] theorem State.retire_keeps (s : State) (n : Nat) : Keeps s (State.retire s n) := by
  unfold State.retire
  (try dsimp only)
  (repeat' split) <;> simp [Keeps]

@[simp] theorem State.endLease_keeps (s : State) (l : Lease) : Keeps s (State.endLease s l) := by
  unfold State.endLease
  (try dsimp only)
  (repeat' split) <;> simp [Keeps]

@[simp] theorem State.openLease_keeps (s : State) (part acct : Nat) : Keeps s (State.openLease s part acct) := by
  unfold State.openLease
  (try dsimp only)
  (repeat' split) <;> simp [Keeps]

@[simp] theorem State.takeCounter_keeps (s : State) (rid part : Nat) (l : Lease) :
    Keeps s (State.takeCounter s rid part l) := by simp [Keeps, State.takeCounter]

@[simp] theorem State.serveLease_keeps (s : State) (rid : Nat) : Keeps s (State.serveLease s rid) := by
  unfold State.serveLease
  (try dsimp only)
  (repeat' split) <;> simp [Keeps]

@[simp] theorem State.serveWaiting_keeps (s : State) (l : List Nat) : Keeps s (State.serveWaiting s l) := by
  unfold State.serveWaiting
  (try dsimp only)
  (repeat' split) <;> simp [Keeps]

@[simp] theorem State.serveAcct_keeps (s : State) (n : Nat) : Keeps s (State.serveAcct s n) := by simp [Keeps, State.serveAcct]

@[simp] theorem State.retryLeases_keeps (s : State) : Keeps s (State.retryLeases s) := by simp [Keeps, State.retryLeases]

@[simp] theorem State.waitLease_keeps (s : State) (rid : Nat) : Keeps s (State.waitLease s rid) := by simp [Keeps, State.waitLease]

@[simp] theorem State.barWaiters_keeps (s : State) (d : Nat) : Keeps s (State.barWaiters s d) := by simp [Keeps, State.barWaiters]

@[simp] theorem State.persistDown_keeps (s : State) : Keeps s (State.persistDown s) := by simp [Keeps, State.persistDown]

@[simp] theorem State.bindAcct_keeps (s : State) (a : KeyAttr) (mat : Bytes) : Keeps s (State.bindAcct s a mat) := by
  unfold State.bindAcct
  (try dsimp only)
  (repeat' split) <;> simp [Keeps]

@[simp] theorem State.readRange_keeps (s : State) (rid : Nat) (r : Req) (elems : List (Nat × Nat)) (g : Nat × Nat) :
    Keeps s (State.readRange s rid r elems g) := by simp [Keeps, State.readRange]

@[simp] theorem State.readSource_keeps (s : State) (rid : Nat) (r : Req) : Keeps s (State.readSource s rid r) := by simp [Keeps, State.readSource]

@[simp] theorem State.readyUp_keeps (s : State) (rid : Nat) : Keeps s (State.readyUp s rid) := by simp [Keeps, State.readyUp]

@[simp] theorem State.wmacGo_keeps (s : State) (rid : Nat) (r : Req) : Keeps s (State.wmacGo s rid r) := by
  unfold State.wmacGo
  (try dsimp only)
  (repeat' split) <;> simp [Keeps]

@[simp] theorem State.pkaSource_keeps (s : State) (r : Req) : Keeps s (State.pkaSource s r) := by
  unfold State.pkaSource
  (try dsimp only)
  (repeat' split) <;> simp [Keeps]

@[simp] theorem State.drawIv_keeps (s : State) (rid : Nat) (r : Req) : Keeps s (State.drawIv s rid r) := by
  unfold State.drawIv
  (try dsimp only)
  (repeat' split) <;> simp [Keeps]

@[simp] theorem State.waitAgain_keeps (s : State) (rid : Nat) (r : Req) : Keeps s (State.waitAgain s rid r) := by
  unfold State.waitAgain
  (try dsimp only)
  (repeat' split) <;> simp [Keeps]

@[simp] theorem State.sourceIn_keeps (s : State) (rid : Nat) (r : Req) : Keeps s (State.sourceIn s rid r) := by simp [Keeps, State.sourceIn]

@[simp] theorem State.toSource_keeps (s : State) (rid : Nat) : Keeps s (State.toSource s rid) := by
  unfold State.toSource
  (try dsimp only)
  (repeat' split) <;> simp [Keeps]

@[simp] theorem State.advanceWmac_keeps (s : State) (rid : Nat) (r : Req) : Keeps s (State.advanceWmac s rid r) := by
  unfold State.advanceWmac
  (try dsimp only)
  (repeat' split) <;> simp [Keeps]

@[simp] theorem State.advanceRecord_keeps (s : State) (rid : Nat) (r : Req) :
    Keeps s (State.advanceRecord s rid r) := by simp [Keeps, State.advanceRecord]

@[simp] theorem State.advance_keeps (s : State) (rid : Nat) : Keeps s (State.advance s rid) := by
  unfold State.advance
  (try dsimp only)
  (repeat' split) <;> simp [Keeps]

@[simp] theorem State.loadKeys_keeps (s : State) (r : Req) : Keeps s (State.loadKeys s r) := by
  unfold State.loadKeys
  (try dsimp only)
  (repeat' split) <;> simp [Keeps]

@[simp] theorem State.dispatch_keeps (s : State) (rid : Nat) : Keeps s (State.dispatch s rid) := by
  unfold State.dispatch
  (try dsimp only)
  (repeat' split) <;> simp [Keeps]

@[simp] theorem State.assign_keeps (s : State) (rid : Nat) (us : List Nat) : Keeps s (State.assign s rid us) := by
  unfold State.assign
  (try dsimp only)
  (repeat' split) <;> simp [Keeps]

@[simp] theorem State.putTo_keeps (s : State) (rid : Nat) (r : Req) (n : Nat) : Keeps s (State.putTo s rid r n) := by
  unfold State.putTo
  (try dsimp only)
  (repeat' split) <;> simp [Keeps]

@[simp] theorem State.putSeg_keeps (s : State) (rid : Nat) (r : Req) (g : Segment) (n : Nat) : Keeps s (State.putSeg s rid r g n) := by
  unfold State.putSeg
  (try dsimp only)
  (repeat' split) <;> simp [Keeps]

@[simp] theorem State.produce_keeps (s : State) (rid : Nat) : Keeps s (State.produce s rid) := by
  unfold State.produce
  (try dsimp only)
  (repeat' split) <;> simp [Keeps]

@[simp] theorem State.writesDone_keeps (s : State) (rid : Nat) : Keeps s (State.writesDone s rid) := by
  unfold State.writesDone
  (repeat' split) <;> simp [Keeps]

@[simp] theorem State.emitAt_keeps (s : State) (rid : Nat) (r : Req) (addr : Nat) (bs : Bytes) (result : Nat) :
    Keeps s (State.emitAt s rid r addr bs result) := by simp [Keeps, State.emitAt]

@[simp] theorem State.leaveUnits_keeps (s : State) (rid : Nat) (r : Req) : Keeps s (State.leaveUnits s rid r) := by simp [Keeps, State.leaveUnits]

@[simp] theorem State.putRest_keeps (s : State) (rid : Nat) (r : Req) : Keeps s (State.putRest s rid r) := by
  unfold State.putRest
  (try dsimp only)
  (repeat' split) <;> simp [Keeps]

@[simp] theorem State.cipherDone_keeps (s : State) (rid : Nat) (r : Req) : Keeps s (State.cipherDone s rid r) := by simp [Keeps, State.cipherDone]

@[simp] theorem State.toWrap_keeps (s : State) (rid : Nat) (rec_ : Bytes) (count : Nat) :
    Keeps s (State.toWrap s rid rec_ count) := by simp [Keeps, State.toWrap]

@[simp] theorem State.digestDone_keeps (s : State) (rid : Nat) (r : Req) : Keeps s (State.digestDone s rid r) := by
  unfold State.digestDone
  (try dsimp only)
  (repeat' split) <;> simp [Keeps]

@[simp] theorem State.pageDone_keeps (s : State) (rid : Nat) (r : Req) : Keeps s (State.pageDone s rid r) := by simp [Keeps, State.pageDone]

@[simp] theorem State.landInstall_keeps (s : State) (rid : Nat) (r : Req) (a : KeyAttr) (mat : Bytes) :
    Keeps s (State.landInstall s rid r a mat) := by
  unfold State.landInstall
  (try dsimp only)
  (repeat' split) <;> simp [Keeps]

@[simp] theorem State.unwrapDone_keeps (s : State) (rid : Nat) (r : Req) : Keeps s (State.unwrapDone s rid r) := by
  unfold State.unwrapDone
  (try dsimp only)
  (repeat' split) <;> simp [Keeps]

@[simp] theorem State.deriveDone_keeps (s : State) (rid : Nat) (r : Req) : Keeps s (State.deriveDone s rid r) := by simp [Keeps, State.deriveDone]

@[simp] theorem State.exportKeyDone_keeps (s : State) (rid : Nat) (r : Req) :
    Keeps s (State.exportKeyDone s rid r) := by simp [Keeps, State.exportKeyDone]

@[simp] theorem State.hwReject_keeps (s : State) (reason : Nat) : Keeps s (State.hwReject s reason) := by simp [Keeps, State.hwReject]

@[simp] theorem State.kekDone_keeps (s : State) (rid : Nat) (r : Req) : Keeps s (State.kekDone s rid r) := by
  unfold State.kekDone
  (try dsimp only)
  (repeat' split) <;> simp [Keeps]

@[simp] theorem State.pkaCheck_keeps (s : State) (rid : Nat) (r : Req) : Keeps s (State.pkaCheck s rid r) := by simp [Keeps, State.pkaCheck]

@[simp] theorem State.countWork_keeps (s : State) (r : Req) : Keeps s (State.countWork s r) := by simp [Keeps, State.countWork]

@[simp] theorem State.pkaDone_keeps (s : State) (rid : Nat) (r : Req) : Keeps s (State.pkaDone s rid r) := by
  unfold State.pkaDone
  (try dsimp only)
  (repeat' split) <;> simp [Keeps]

@[simp] theorem State.wmacDone_keeps (s : State) (rid : Nat) (r : Req) (cycles : Nat) :
    Keeps s (State.wmacDone s rid r cycles) := by simp [Keeps, State.wmacDone]

@[simp] theorem State.releaseSome_keeps (s : State) (rid : Nat) (r : Req) : Keeps s (State.releaseSome s rid r) := by
  unfold State.releaseSome
  (try dsimp only)
  (repeat' split) <;> simp [Keeps]

@[simp] theorem State.tileFail_keeps (s : State) (rid : Nat) (r : Req) (store : StoreId) (tile cycles : Nat) :
    Keeps s (State.tileFail s rid r store tile cycles) := by
  unfold State.tileFail
  (try dsimp only)
  (repeat' split) <;> simp [Keeps]

@[simp] theorem State.lastCycle_keeps (s : State) (rid cycles : Nat) (r : Req) : Keeps s (State.lastCycle s rid cycles r) := by
  unfold State.lastCycle
  (try dsimp only)
  (repeat' split) <;> simp [Keeps]

@[simp] theorem State.unitDone_keeps (s : State) (rid cycles : Nat) (bad : Option UnitFault) : Keeps s (State.unitDone s rid cycles bad) := by
  unfold State.unitDone
  (try dsimp only)
  (repeat' split) <;> simp [Keeps]

@[simp] theorem State.updStream_keeps (s : State) (k : Nat) (f : Stream → Stream) :
    Keeps s (State.updStream s k f) := by simp [Keeps, State.updStream]

@[simp] theorem State.setOpen_keeps (s : State) (tap v : Nat) : Keeps s (State.setOpen s tap v) := by simp [Keeps, State.setOpen]

@[simp] theorem State.noOpen_keeps (s : State) (tap : Nat) : Keeps s (State.noOpen s tap) := by simp [Keeps, State.noOpen]

@[simp] theorem State.sealPut_keeps (s : State) (k : Nat) (x : Stream) (bs : Bytes) :
    Keeps s (State.sealPut s k x bs) := by simp [Keeps, State.sealPut]

@[simp] theorem State.sealRecord_keeps (s : State) (k rtype flags aux idf timef len : Nat) (body : Bytes) :
    Keeps s (State.sealRecord s k rtype flags aux idf timef len body) := by
  unfold State.sealRecord
  (try dsimp only)
  (repeat' split) <;> simp [Keeps]

@[simp] theorem State.sealGap_keeps (s : State) (k : Nat) : Keeps s (State.sealGap s k) := by
  unfold State.sealGap
  (try dsimp only)
  (repeat' split) <;> simp [Keeps]

@[simp] theorem State.foldGap_keeps (s : State) (k n : Nat) :
    Keeps s (s.foldGap k n) := by
  induction n generalizing s with
  | zero => simp [Keeps, State.foldGap]
  | succ n ih =>
    unfold State.foldGap
    (try dsimp only); (repeat' split) <;> simp_all [Keeps]

@[simp] theorem State.foldAll_keeps (s : State) (k : Nat) : Keeps s (State.foldAll s k) := by simp [Keeps, State.foldAll]

@[simp] theorem State.unseal_keeps (s : State) (k seq reason : Nat) : Keeps s (State.unseal s k seq reason) := by
  unfold State.unseal
  (try dsimp only)
  (repeat' split) <;> simp [Keeps]

@[simp] theorem State.consume_keeps (s : State) (k : Nat) : Keeps s (State.consume s k) := by
  unfold State.consume
  (try dsimp only)
  (repeat' split) <;> simp [Keeps]

@[simp] theorem State.unsealOpen_keeps (s : State) (k reason : Nat) : Keeps s (State.unsealOpen s k reason) := by
  unfold State.unsealOpen
  (repeat' split) <;> simp [Keeps]

@[simp] theorem State.observe_keeps (s : State) (k n : Nat) : Keeps s (State.observe s k n) := by simp [Keeps, State.observe]

@[simp] theorem State.goPassive_keeps (s : State) (k : Nat) (all : Bool) : Keeps s (State.goPassive s k all) := by
  unfold State.goPassive
  (try dsimp only)
  (repeat' split) <;> simp [Keeps]

@[simp] theorem State.laneToFrame_keeps (s : State) (u k seq : Nat) : Keeps s (State.laneToFrame s u k seq) := by simp [Keeps, State.laneToFrame]

@[simp] theorem State.frameLanes_keeps (s : State) (n : Nat) :
    Keeps s (s.frameLanes n) := by
  induction n generalizing s with
  | zero => simp [Keeps, State.frameLanes]
  | succ n ih =>
    unfold State.frameLanes
    (repeat' split) <;> simp_all [Keeps]

@[simp] theorem State.trimFrames_keeps (s : State) : Keeps s (State.trimFrames s) := by simp [Keeps, State.trimFrames]

@[simp] theorem State.addGrant_keeps (s : State) (what : GrantFor) (us : List Nat) (part : Option Nat) (charge cls : Nat) :
    Keeps s (State.addGrant s what us part charge cls) := by simp [Keeps, State.addGrant]

@[simp] theorem State.frameDemand_keeps (s : State) (n : Nat) :
    Keeps s (s.frameDemand n) := by
  induction n generalizing s with
  | zero => simp [Keeps, State.frameDemand]
  | succ n ih =>
    unfold State.frameDemand
    (try dsimp only); (repeat' split) <;> simp_all [Keeps]

@[simp] theorem State.serveFrames_keeps (s : State) : Keeps s (State.serveFrames s) := by simp [Keeps, State.serveFrames]

@[simp] theorem State.startCkpt_keeps (s : State) (k : Nat) : Keeps s (State.startCkpt s k) := by
  unfold State.startCkpt
  (try dsimp only)
  (repeat' split) <;> simp [Keeps]

@[simp] theorem State.dropStream_keeps (s : State) (k : Nat) : Keeps s (State.dropStream s k) := by simp [Keeps, State.dropStream]

@[simp] theorem State.dropBind_keeps (s : State) (rid : Nat) : Keeps s (State.dropBind s rid) := by
  unfold State.dropBind
  (repeat' split) <;> simp [Keeps]

@[simp] theorem State.finishClose_keeps (s : State) (k : Nat) (x : Stream) (c : Closing) : Keeps s (State.finishClose s k x c) := by
  unfold State.finishClose
  (try dsimp only)
  (repeat' split) <;> simp [Keeps]

@[simp] theorem State.advanceClose_keeps (s : State) (k : Nat) : Keeps s (State.advanceClose s k) := by
  unfold State.advanceClose
  (try dsimp only)
  (repeat' split) <;> simp [Keeps]

@[simp] theorem State.beginClose_keeps (s : State) (k cause : Nat) (rid atFrame : Option Nat) :
    Keeps s (State.beginClose s k cause rid atFrame) := by simp [Keeps, State.beginClose]

@[simp] theorem State.sealWritten_keeps (s : State) (k rseq rtype : Nat) (ok : Bool) : Keeps s (State.sealWritten s k rseq rtype ok) := by
  unfold State.sealWritten
  (try dsimp only)
  (repeat' split) <;> simp [Keeps]

@[simp] theorem State.afterSeal_keeps (s : State) (k : Nat) : Keeps s (State.afterSeal s k) := by simp [Keeps, State.afterSeal]

@[simp] theorem State.enable_keeps (s : State) (us : List Nat) (w : Work) (part : Option Nat) :
    Keeps s (State.enable s us w part) := by simp [Keeps, State.enable]

@[simp] theorem State.bindGranted_keeps (s : State) (rid : Nat) : Keeps s (State.bindGranted s rid) := by
  unfold State.bindGranted
  (try dsimp only)
  (repeat' split) <;> simp [Keeps]

@[simp] theorem State.issue_keeps (s : State) (g : Grant) : Keeps s (State.issue s g) := by
  unfold State.issue
  (try dsimp only)
  (repeat' split) <;> simp [Keeps]

@[simp] theorem State.gateOn_keeps (s : State) (g : Grant) : Keeps s (State.gateOn s g) := by
  unfold State.gateOn
  (try dsimp only)
  (repeat' split) <;> simp [Keeps]

@[simp] theorem State.tryGrant_keeps (s x : State) (gate : Bool) (g : Grant) (h : Keeps s (x)) :
    Keeps s (((s.tryGrant gate g).getD x)) := by
  unfold State.tryGrant
  dsimp only
  (repeat' split) <;> simp_all [Keeps]

@[simp] theorem State.atOnce_keeps (s x : State) (g : Grant) (h : Keeps s x) : Keeps s ((s.atOnce g).getD x) := by
  unfold State.atOnce
  split
  · exact h
  · exact State.tryGrant_keeps s x false g h

@[simp] theorem State.negotiate_keeps (s : State) : Keeps s (State.negotiate s) := by simp [Keeps, State.negotiate]

@[simp] theorem State.issueNew_keeps (s : State) (since : Nat) :
    Keeps s (s.issueNew since) := by
  unfold State.issueNew
  refine Keeps.trans (Keeps.foldl _ (fun t x => ?_) _ _) (State.negotiate_keeps _)
  split
  · exact State.atOnce_keeps _ _ _ (State.countG_keeps _ _ _)
  · exact Keeps.refl _

@[simp] theorem State.serveGrant_keeps (s : State) :
    Keeps s (s.serveGrant) := by
  unfold State.serveGrant
  split
  · rename_i t h
    obtain ⟨g, _, hg⟩ := List.exists_of_findSome?_eq_some h
    have k := State.tryGrant_keeps s s true g ⟨rfl, rfl, rfl, rfl, rfl, rfl⟩
    rw [hg] at k
    exact Keeps.trans (t := t) k (State.negotiate_keeps t)
  · exact Keeps.trans (Keeps.foldl _ (fun t g => State.gateOn_keeps t g) _ _) (State.negotiate_keeps _)

@[simp] theorem State.placeGrant_keeps (s : State) (rid : Nat) (r : Req) (us : List Nat) :
    Keeps s (State.placeGrant s rid r us) := by simp [Keeps, State.placeGrant]

@[simp] theorem State.placeOn_keeps (s : State) (rid : Nat) (r : Req) : Keeps s (State.placeOn s rid r) := by simp [Keeps, State.placeOn]

@[simp] theorem State.chooseVictim_keeps (s : State) (l : List (Nat × Req)) :
    Keeps s ((s.chooseVictim l).1) := by
  induction l generalizing s with
  | nil => simp [Keeps, State.chooseVictim]
  | cons v vs ih => unfold State.chooseVictim; split <;> [exact Keeps.refl s; exact Keeps.trans (State.updPart_keeps s _ _) (ih _)]

@[simp] theorem State.preempt_keeps (s : State) (rid vid : Nat) (v : Req) : Keeps s (State.preempt s rid vid v) := by
  unfold State.preempt
  (try dsimp only)
  (repeat' split) <;> simp [Keeps]

@[simp] theorem State.deny_keeps (s : State) (rid : Nat) (r : Req) : Keeps s (State.deny s rid r) := by simp [Keeps, State.deny]

@[simp] theorem State.urgentPath_keeps (s : State) (k : UnitKind) (rid : Nat) (r : Req) :
    Keeps s (s.urgentPath k rid r) := by
  unfold State.urgentPath
  have k := State.chooseVictim_keeps s (s.victims k r.cls)
  (repeat' split)
  · simp [Keeps]
  all_goals
    rename_i h
    first
      | (rename_i h'; rw [h'] at k; exact Keeps.trans k (by first | exact State.preempt_keeps _ _ _ _ | exact State.deny_keeps _ _ _))
      | (rw [h] at k; exact Keeps.trans k (State.deny_keeps _ _ _))

@[simp] theorem State.urgentTakes_keeps (s : State) (v : Option Nat) (u : Nat) : Keeps s (State.urgentTakes s v u) := by
  unfold State.urgentTakes
  (repeat' split) <;> simp [Keeps]

@[simp] theorem State.rejoin_keeps (s : State) (k : UnitKind) : Keeps s (State.rejoin s k) := by simp [Keeps, State.rejoin]

@[simp] theorem State.pick_keeps (s : State) (rid : Nat) (r : Req) (f : State → Req → State) (hf : ∀ t r, Keeps t (f t r)) :
    Keeps s (s.pick rid r f) := by
  unfold State.pick
  (try dsimp only)
  (repeat' split)
  · exact hf s r
  · exact Keeps.trans (State.waitLease_keeps s rid) (hf _ _)
  · exact State.waitLease_keeps s rid
  · exact State.waitLease_keeps s rid

@[simp] theorem State.place_keeps (s : State) (k : UnitKind) : Keeps s (State.place s k) := by
  unfold State.place
  (try dsimp only)
  (repeat' split) <;> simp [Keeps]

@[simp] theorem State.pickUp_keeps (s : State) (rid : Nat) : Keeps s (State.pickUp s rid) := by simp [Keeps, State.pickUp]

@[simp] theorem State.stopSeg_keeps (s : State) (rid : Nat) (r : Req) (g : Segment) (n : Nat) : Keeps s (State.stopSeg s rid r g n) := by
  unfold State.stopSeg
  (try dsimp only)
  (repeat' split) <;> simp [Keeps]

@[simp] theorem State.stopGrove_keeps (s : State) (rid : Nat) (r : Req) (blocks : Nat) : Keeps s (State.stopGrove s rid r blocks) := by
  unfold State.stopGrove
  (try dsimp only)
  (repeat' split) <;> simp [Keeps]

@[simp] theorem State.writeStopped_keeps (s : State) (rid : Nat) (r : Req) (blocks : Nat) : Keeps s (State.writeStopped s rid r blocks) := by
  unfold State.writeStopped
  (try dsimp only)
  (repeat' split) <;> simp [Keeps]

@[simp] theorem State.keepContext_keeps (s : State) (rid u : Nat) (r : Req) :
    Keeps s (State.keepContext s rid u r) := by simp [Keeps, State.keepContext]

@[simp] theorem State.stopWhole_keeps (s : State) (rid : Nat) (r : Req) : Keeps s (State.stopWhole s rid r) := by
  unfold State.stopWhole
  (try dsimp only)
  (repeat' split) <;> simp [Keeps]

@[simp] theorem State.shedLane_keeps (s : State) (rid u urgent cycles : Nat) (r : Req) :
    Keeps s (State.shedLane s rid u urgent cycles r) := by simp [Keeps, State.shedLane]

@[simp] theorem State.exported_keeps (s : State) (rid : Nat) (r : Req) : Keeps s (State.exported s rid r) := by
  unfold State.exported
  (try dsimp only)
  (repeat' split) <;> simp [Keeps]

@[simp] theorem State.exportWritten_keeps (s : State) (rid : Nat) (ok : Bool) : Keeps s (State.exportWritten s rid ok) := by
  unfold State.exportWritten
  (try dsimp only)
  (repeat' split) <;> simp [Keeps]

@[simp] theorem State.absorb_keeps (s : State) (rid orig : Nat) : Keeps s (State.absorb s rid orig) := by
  unfold State.absorb
  (try dsimp only)
  (repeat' split) <;> simp [Keeps]

@[simp] theorem State.recordRead_keeps (s : State) (rid : Nat) (ok : Bool) : Keeps s (State.recordRead s rid ok) := by simp [Keeps, State.recordRead]

@[simp] theorem State.resumeUnwrapped_keeps (s : State) (rid : Nat) (r : Req) : Keeps s (State.resumeUnwrapped s rid r) := by
  unfold State.resumeUnwrapped
  (try dsimp only)
  (repeat' split) <;> simp [Keeps]

@[simp] theorem State.hmacUnwrapped_keeps (s : State) (rid : Nat) (r : Req) : Keeps s (State.hmacUnwrapped s rid r) := by
  unfold State.hmacUnwrapped
  (repeat' split) <;> simp [Keeps]

@[simp] theorem State.needRandom_keeps (s : State) (rid : Nat) : Keeps s (State.needRandom s rid) := by simp [Keeps, State.needRandom]

@[simp] theorem State.cipherStart_keeps (s : State) (rid op : Nat) : Keeps s (State.cipherStart s rid op) := by
  unfold State.cipherStart
  (try dsimp only)
  (repeat' split) <;> simp [Keeps]

@[simp] theorem State.digestStart_keeps (s : State) (rid op : Nat) : Keeps s (State.digestStart s rid op) := by
  unfold State.digestStart
  (repeat' split) <;> simp [Keeps]

@[simp] theorem State.pageStart_keeps (s : State) (rid : Nat) (verify : Bool) : Keeps s (State.pageStart s rid verify) := by
  unfold State.pageStart
  (repeat' split) <;> simp [Keeps]

@[simp] theorem State.unwrapStart_keeps (s : State) (rid : Nat) : Keeps s (State.unwrapStart s rid) := by
  unfold State.unwrapStart
  (try dsimp only)
  (repeat' split) <;> simp [Keeps]

@[simp] theorem State.ackDone_keeps (s : State) (rid : Nat) : Keeps s (State.ackDone s rid) := by
  unfold State.ackDone
  (repeat' split) <;> simp [Keeps]

@[simp] theorem State.eraseStart_keeps (s : State) (rid : Nat) : Keeps s (State.eraseStart s rid) := by
  unfold State.eraseStart
  (try dsimp only)
  (repeat' split) <;> simp [Keeps]

@[simp] theorem State.deriveStart_keeps (s : State) (rid : Nat) : Keeps s (State.deriveStart s rid) := by
  unfold State.deriveStart
  (try dsimp only)
  (repeat' split) <;> simp [Keeps]

@[simp] theorem State.exportStart_keeps (s : State) (rid : Nat) : Keeps s (State.exportStart s rid) := by
  unfold State.exportStart
  (try dsimp only)
  (repeat' split) <;> simp [Keeps]

@[simp] theorem State.pkaStart_keeps (s : State) (rid f : Nat) : Keeps s (State.pkaStart s rid f) := by
  unfold State.pkaStart
  (try dsimp only)
  (repeat' split) <;> simp [Keeps]

@[simp] theorem State.randomNext_keeps (s : State) (rid : Nat) : Keeps s (State.randomNext s rid) := by
  unfold State.randomNext
  (try dsimp only)
  (repeat' split) <;> simp [Keeps]

@[simp] theorem State.serveRandom_keeps (s : State) : Keeps s (State.serveRandom s) := by simp [Keeps, State.serveRandom]

@[simp] theorem State.rawAdmit_keeps (s : State) (rid : Nat) (r : Req) : Keeps s (State.rawAdmit s rid r) := by
  unfold State.rawAdmit
  (try dsimp only)
  (repeat' split) <;> simp [Keeps]

@[simp] theorem State.rfCtl_keeps (s : State) (part : Nat) (ben : BitVec 4) (data : Word) :
    Keeps s (State.rfCtl s part ben data) := by simp [Keeps, State.rfCtl]

@[simp] theorem State.fetchRead_keeps (s : State) (p q : Nat) (x : Queue) (v n : Nat) :
    Keeps s (State.fetchRead s p q x v n) := by simp [Keeps, State.fetchRead]

@[simp] theorem State.fetchMore_keeps (s : State) (p q n : Nat) :
    Keeps s (s.fetchMore p q n) := by
  induction n generalizing s with
  | zero => simp [Keeps, State.fetchMore]
  | succ n ih =>
    unfold State.fetchMore
    (try dsimp only); (repeat' split) <;> simp_all [Keeps]

@[simp] theorem State.refill_keeps (s : State) (p q : Nat) : Keeps s (State.refill s p q) := by
  unfold State.refill
  (repeat' split) <;> simp [Keeps]

@[simp] theorem State.queueWrite_keeps (s : State) (part q off : Nat) (ben : BitVec 4) (needAll : Bool) (f : State → Queue → State)
    (hf : ∀ x, Keeps s (f s x)) : Keeps s (s.queueWrite part q off ben needAll f) := by
  unfold State.queueWrite
  (repeat' split) <;> simp_all [Keeps]

@[simp] theorem State.queueErr_keeps (s : State) (p q : Nat) (f : Queue → Queue) : Keeps s (State.queueErr s p q f) := by simp [Keeps, State.queueErr]

@[simp] theorem State.cutReads_keeps (s : State) (p q : Nat) (x : Queue) (v0 : Nat) :
    Keeps s (State.cutReads s p q x v0) := by simp [Keeps, State.cutReads]

@[simp] theorem State.invalidate_keeps (s : State) (p q : Nat) (x : Queue) (first count : Nat) : Keeps s (State.invalidate s p q x first count) := by
  unfold State.invalidate
  (try dsimp only)
  (repeat' split) <;> simp [Keeps]

@[simp] theorem State.take_keeps (s : State) (part w qn : Nat) (p : Partition) (q : Queue) (data : Word) :
    Keeps s (State.take s part w qn p q data) := by
  unfold State.take
  (try dsimp only)
  (repeat' split) <;> simp [Keeps]

@[simp] theorem State.pushWrite_keeps (s : State) (part w word : Nat) (ben : BitVec 4) (data : Word) :
    Keeps s (State.pushWrite s part w word ben data) := by
  unfold State.pushWrite
  (try dsimp only)
  (repeat' split) <;> simp [Keeps]

@[simp] theorem State.popEntry_keeps (s : State) (p q v : Nat) : Keeps s (State.popEntry s p q v) := by simp [Keeps, State.popEntry]

@[simp] theorem State.postNow_keeps (s : State) (p q : Nat) (c : CacheEntry) (chained reserved : Bool) (st detail : Nat) :
    Keeps s (State.postNow s p q c chained reserved st detail) := by
  unfold State.postNow
  (try dsimp only)
  (repeat' split) <;> simp [Keeps]

@[simp] theorem State.letIn_keeps (s : State) (p q : Nat) (x : Queue) (c : CacheEntry) (chained reserved : Bool) :
    Keeps s (State.letIn s p q x c chained reserved) := by simp [Keeps, State.letIn]

@[simp] theorem State.badEntry_keeps (s : State) (bad : Option Nat) : Keeps s (State.badEntry s bad) := by simp [Keeps, State.badEntry]

@[simp] theorem State.admitChain_keeps (s : State) (p q : Nat) (x : Queue) (bad : Option Nat) : Keeps s (State.admitChain s p q x bad) := by
  unfold State.admitChain
  (try dsimp only)
  (repeat' split) <;> simp [Keeps]

@[simp] theorem State.failLink_keeps (s : State) (p q : Nat) (k : ChainRun) (c : CacheEntry) (st detail : Nat) :
    Keeps s (State.failLink s p q k c st detail) := by
  unfold State.failLink
  (try dsimp only)
  (repeat' split) <;> simp [Keeps]

@[simp] theorem State.admitLink_keeps (s : State) (p q : Nat) (x : Queue) (k : ChainRun) (c : CacheEntry) (bad : Option Nat) :
    Keeps s (State.admitLink s p q x k c bad) := by
  unfold State.admitLink
  (try dsimp only)
  (repeat' split) <;> simp [Keeps]

@[simp] theorem State.admitNext_keeps (s : State) (p q : Nat) (bad : Option Nat) : Keeps s (State.admitNext s p q bad) := by
  unfold State.admitNext
  (try dsimp only)
  (repeat' split) <;> simp [Keeps]

@[simp] theorem State.disable_keeps (s : State) (p q : Nat) : Keeps s (State.disable s p q) := by
  unfold State.disable
  (try dsimp only)
  (repeat' split) <;> simp [Keeps]

@[simp] theorem State.setQctl_keeps (s : State) (p q : Nat) (en cie : Bool) : Keeps s (State.setQctl s p q en cie) := by
  unfold State.setQctl
  (try dsimp only)
  (repeat' split) <;> simp [Keeps]

@[simp] theorem State.qctl_keeps (s : State) (part q : Nat) (en cie : Bool) : Keeps s (State.qctl s part q en cie) := by
  unfold State.qctl
  (repeat' split) <;> simp [Keeps]

@[simp] theorem State.grantTmo_keeps (s : State) : Keeps s (State.grantTmo s) := by simp [Keeps, State.grantTmo]

@[simp] theorem State.laneWoken_keeps (s : State) (u k : Nat) : Keeps s (State.laneWoken s u k) := by
  unfold State.laneWoken
  (repeat' split) <;> simp [Keeps]

@[simp] theorem State.unitReady_keeps (s : State) (u : Nat) : Keeps s (State.unitReady s u) := by
  unfold State.unitReady
  (try dsimp only)
  (repeat' split) <;> simp [Keeps]

@[simp] theorem State.setBudget_keeps (s : State) (mw : Nat) : Keeps s (State.setBudget s mw) := by simp [Keeps, State.setBudget]

@[simp] theorem State.lowerReq_keeps (s : State) : Keeps s (State.lowerReq s) := by simp [Keeps, State.lowerReq]

@[simp] theorem State.marker_keeps (s : State) (tap : Nat) : Keeps s (State.marker s tap) := by simp [Keeps, State.marker]

@[simp] theorem State.openFrame_keeps (s : State) (k : Nat) (x : Stream) (d : Bytes) (reason : Option Nat) :
    Keeps s (State.openFrame s k x d reason) := by simp [Keeps, State.openFrame]

@[simp] theorem State.cutOpen_keeps (s : State) (tap : Nat) : Keeps s (State.cutOpen s tap) := by
  unfold State.cutOpen
  (repeat' split) <;> simp [Keeps]

@[simp] theorem State.headerBeat_keeps (s : State) (tap : Nat) (d : Bytes) (eof : Bool) : Keeps s (State.headerBeat s tap d eof) := by
  unfold State.headerBeat
  (try dsimp only)
  (repeat' split) <;> simp [Keeps]

@[simp] theorem State.feed_keeps (s : State) (tap k : Nat) (bs : Bytes) (eof : Bool) : Keeps s (State.feed s tap k bs eof) := by
  unfold State.feed
  (try dsimp only)
  (repeat' split) <;> simp [Keeps]

@[simp] theorem State.dataBeat_keeps (s : State) (tap : Nat) (bs : Bytes) (eof : Bool) : Keeps s (State.dataBeat s tap bs eof) := by
  unfold State.dataBeat
  (try dsimp only)
  (repeat' split) <;> simp [Keeps]

@[simp] theorem State.abortBeat_keeps (s : State) (tap : Nat) : Keeps s (State.abortBeat s tap) := by
  unfold State.abortBeat
  (repeat' split) <;> simp [Keeps]

@[simp] theorem State.tapBeat_keeps (s : State) (tap : Nat) (data : BitVec 512) (mrk : BitVec 16) :
    Keeps s (State.tapBeat s tap data mrk) := by simp [Keeps, State.tapBeat]

@[simp] theorem State.sealLane_keeps (s : State) (u : Nat) (x : Stream) : Keeps s (State.sealLane s u x) := by simp [Keeps, State.sealLane]

@[simp] theorem State.sealFrame_keeps (s : State) (k : Nat) (x : Stream) (f : Frame) (u : Nat) :
    Keeps s (State.sealFrame s k x f u) := by simp [Keeps, State.sealFrame]

@[simp] theorem State.tileLost_keeps (s : State) (k : Nat) (x : Stream) (f : Frame) (n : Nat) :
    Keeps s (State.tileLost s k x f n) := by simp [Keeps, State.tileLost]

@[simp] theorem State.putCkpt_keeps (s : State) (k : Nat) (x : Stream) (c : Covered) (time : Nat) (final : Bool) (u : Nat) (sig : Bytes) :
    Keeps s (State.putCkpt s k x c time final u sig) := by simp [Keeps, State.putCkpt]

@[simp] theorem State.closeBy_keeps (s : State) (rid op cause : Nat) : Keeps s (State.closeBy s rid op cause) := by
  unfold State.closeBy
  (try dsimp only)
  (repeat' split) <;> simp [Keeps]

@[simp] theorem State.stopFetch_keeps (s : State) (p q : Nat) : Keeps s (State.stopFetch s p q) := by
  unfold State.stopFetch
  (repeat' split) <;> simp [Keeps]

@[simp] theorem State.beginReset_keeps (s : State) (p : Nat) (kind : ResetKind) (admin : Bool) : Keeps s (State.beginReset s p kind admin) := by
  unfold State.beginReset
  (try dsimp only)
  (repeat' split) <;> simp [Keeps]

@[simp] theorem State.closeStreams_keeps (s : State) (p : Nat) :
    Keeps s (s.closeStreams p) := by
  unfold State.closeStreams
  refine Keeps.foldl _ (fun t x => ?_) _ _
  (repeat' split) <;> simp [Keeps]

@[simp] theorem State.resetV_keeps (s : State) (p : Nat) : Keeps s (State.resetV s p) := by simp [Keeps, State.resetV]

@[simp] theorem State.resetClose_keeps (s : State) (p : Nat) : Keeps s (State.resetClose s p) := by simp [Keeps, State.resetClose]

@[simp] theorem State.resetTail_keeps (s : State) (p : Nat) (admin : Bool) : Keeps s (State.resetTail s p admin) := by simp [Keeps, State.resetTail]

@[simp] theorem State.pmDone_keeps (s : State) (p : Nat) : Keeps s (State.pmDone s p) := by simp [Keeps, State.pmDone]

@[simp] theorem State.destroyTail_keeps (s : State) (p : Nat) (r : PartReset) :
    Keeps s (State.destroyTail s p r) := by simp [Keeps, State.destroyTail]

@[simp] theorem State.destroyDone_keeps (s : State) (p : Nat) : Keeps s (State.destroyDone s p) := by
  unfold State.destroyDone
  (repeat' split) <;> simp [Keeps]

@[simp] theorem State.pmBegin_keeps (s : State) (p : Nat) (kind : ResetKind) : Keeps s (State.pmBegin s p kind) := by simp [Keeps, State.pmBegin]

@[simp] theorem State.endReset_keeps (s : State) (p : Nat) (r : PartReset) : Keeps s (State.endReset s p r) := by
  unfold State.endReset
  (try dsimp only)
  (repeat' split) <;> simp [Keeps]

@[simp] theorem State.resetOn_keeps (s : State) (p : Nat) : Keeps s (State.resetOn s p) := by
  unfold State.resetOn
  (try dsimp only)
  (repeat' split) <;> simp [Keeps]

@[simp] theorem State.pmReject_keeps (s : State) (reason p : Nat) : Keeps s (State.pmReject s reason p) := by simp [Keeps, State.pmReject]

@[simp] theorem State.pmCreate_keeps (s : State) (p : Nat) : Keeps s (State.pmCreate s p) := by
  unfold State.pmCreate
  (try dsimp only)
  (repeat' split) <;> simp [Keeps]

@[simp] theorem State.pmEnd_keeps (s : State) (p : Nat) (kind : ResetKind) : Keeps s (State.pmEnd s p kind) := by
  unfold State.pmEnd
  (try dsimp only)
  (repeat' split) <;> simp [Keeps]

@[simp] theorem State.cmdRw_keeps (s : State) (off : Nat) (busy : Bool) (ie : Nat) (ben : BitVec 4) (data : Word) :
    Keeps s (State.cmdRw s off busy ie ben data) := by simp [Keeps, State.cmdRw]

@[simp] theorem State.pmWrite_keeps (s : State) (priv : Bool) (ben : BitVec 4) (data : Word) (f : State → Nat → State)
    (hf : ∀ t n, Keeps t (f t n)) : Keeps s (s.pmWrite priv ben data f) := by
  unfold State.pmWrite
  (try dsimp only)
  (repeat' split) <;> simp_all [Keeps]

@[simp] theorem State.unmasked_keeps (s : State) (p v : Nat) : Keeps s (State.unmasked s p v) := by
  unfold State.unmasked
  (repeat' split) <;> simp [Keeps]

@[simp] theorem State.recoal_keeps (s : State) (p v : Nat) : Keeps s (State.recoal s p v) := by
  unfold State.recoal
  (try dsimp only)
  (repeat' split) <;> simp [Keeps]

@[simp] theorem State.setMask_keeps (s : State) (part v : Nat) (m : Bool) : Keeps s (State.setMask s part v m) := by simp [Keeps, State.setMask]

@[simp] theorem State.writeSection_keeps (s : State) (seq : Nat) (bank : Bool) (sec : Nat) :
    Keeps s (State.writeSection s seq bank sec) := by simp [Keeps, State.writeSection]

@[simp] theorem State.writeHeader_keeps (s : State) (seq : Nat) (bank : Bool) :
    Keeps s (State.writeHeader s seq bank) := by simp [Keeps, State.writeHeader]

@[simp] theorem State.grantLeases_keeps (s : State) (seq : Nat) :
    Keeps s (s.grantLeases seq) := by
  unfold State.grantLeases
  refine Keeps.foldl _ (fun t x => ?_) _ _
  dsimp only
  (repeat' split) <;> simp [Keeps]

@[simp] theorem State.startImage_keeps (s : State) : Keeps s (State.startImage s) := by simp [Keeps, State.startImage]

@[simp] theorem State.imageLost_keeps (s : State) : Keeps s (State.imageLost s) := by
  unfold State.imageLost
  (try dsimp only)
  (repeat' split) <;> simp [Keeps]

@[simp] theorem State.imageUnacked_keeps (s : State) : Keeps s (State.imageUnacked s) := by simp [Keeps, State.imageUnacked]

@[simp] theorem State.imageFailed_keeps (s : State) (seq : Nat) : Keeps s (State.imageFailed s seq) := by
  unfold State.imageFailed
  (try dsimp only)
  (repeat' split) <;> simp [Keeps]

@[simp] theorem State.sectionWritten_keeps (s : State) (seq : Nat) : Keeps s (State.sectionWritten s seq) := by
  unfold State.sectionWritten
  (try dsimp only)
  (repeat' split) <;> simp [Keeps]

@[simp] theorem State.headerWritten_keeps (s : State) (seq : Nat) : Keeps s (State.headerWritten s seq) := by
  unfold State.headerWritten
  (try dsimp only)
  (repeat' split) <;> simp [Keeps]

@[simp] theorem State.settleAcks_keeps (s : State) : Keeps s (State.settleAcks s) := by
  unfold State.settleAcks
  (try dsimp only)
  (repeat' split) <;> simp [Keeps]

@[simp] theorem State.linkChanged_keeps (s : State) : Keeps s (State.linkChanged s) := by simp [Keeps, State.linkChanged]

@[simp] theorem State.ackUp_keeps (s : State) : Keeps s (State.ackUp s) := by simp [Keeps, State.ackUp]

@[simp] theorem State.trySync_keeps (s : State) : Keeps s (State.trySync s) := by simp [Keeps, State.trySync]

@[simp] theorem State.clearSeq_keeps (s : State) (seq : Nat) (bank : Bool) : Keeps s (State.clearSeq s seq bank) := by simp [Keeps, State.clearSeq]

@[simp] theorem State.imageAcked_keeps (s : State) (o : ImgOut) : Keeps s (State.imageAcked s o) := by simp [Keeps, State.imageAcked]

@[simp] theorem State.late_keeps (s : State) : Keeps s (State.late s) := by simp [Keeps, State.late]

@[simp] theorem State.readBanks_keeps (s : State) : Keeps s (State.readBanks s) := by simp [Keeps, State.readBanks]

@[simp] theorem State.hwRefuse_keeps (s : State) (reason : Nat) : Keeps s (State.hwRefuse s reason) := by simp [Keeps, State.hwRefuse]

@[simp] theorem State.hwWrite_keeps (s : State) (priv : Bool) (ben : BitVec 4) (data : Word) (f : State → Nat → Nat → State)
    (hf : ∀ t n m, Keeps t (f t n m)) : Keeps s (s.hwWrite priv ben data f) := by
  unfold State.hwWrite
  (try dsimp only)
  (repeat' split) <;> simp_all [Keeps]

@[simp] theorem State.kekStart_keeps (s : State) (p : Nat) : Keeps s (State.kekStart s p) := by simp [Keeps, State.kekStart]

@[simp] theorem State.eraseTargets_keeps (s : State) (gs : List Nat) : Keeps s (State.eraseTargets s gs) := by simp [Keeps, State.eraseTargets]

@[simp] theorem State.eraseSlots_keeps (s : State) (gs : List Nat) : Keeps s (State.eraseSlots s gs) := by simp [Keeps, State.eraseSlots]

@[simp] theorem State.slotErase_keeps (s : State) (p loc : Nat) : Keeps s (State.slotErase s p loc) := by simp [Keeps, State.slotErase]

@[simp] theorem State.eraseKeks_keeps (s : State) (ps : List Nat) : Keeps s (State.eraseKeks s ps) := by simp [Keeps, State.eraseKeks]

@[simp] theorem State.wipePart_keeps (s : State) (p : Nat) : Keeps s (State.wipePart s p) := by simp [Keeps, State.wipePart]

@[simp] theorem State.wipeAll_keeps (s : State) : Keeps s (State.wipeAll s) := by simp [Keeps, State.wipeAll]

@[simp] theorem State.purgeAccts_keeps (s : State) : Keeps s (State.purgeAccts s) := by simp [Keeps, State.purgeAccts]

@[simp] theorem State.endSession_keeps (s : State) : Keeps s (State.endSession s) := by simp [Keeps, State.endSession]

@[simp] theorem State.unsynced_keeps (s : State) : Keeps s (State.unsynced s) := by simp [Keeps, State.unsynced]

@[simp] theorem State.linkTo_keeps (s : State) (l : Link) : Keeps s (State.linkTo s l) := by simp [Keeps, State.linkTo]

@[simp] theorem State.clearLanes_keeps (s : State) : Keeps s (State.clearLanes s) := by simp [Keeps, State.clearLanes]

@[simp] theorem State.linkReset_keeps (s : State) : Keeps s (State.linkReset s) := by simp [Keeps, State.linkReset]

@[simp] theorem State.linkCheck_keeps (s : State) : Keeps s (State.linkCheck s) := by simp [Keeps, State.linkCheck]

@[simp] theorem State.linkAlign_keeps (s : State) : Keeps s (State.linkAlign s) := by simp [Keeps, State.linkAlign]

@[simp] theorem State.keyAlarm_keeps (s : State) : Keeps s (State.keyAlarm s) := by simp [Keeps, State.keyAlarm]

@[simp] theorem State.haltCore_keeps (s : State) : Keeps s (State.haltCore s) := by simp [Keeps, State.haltCore]

@[simp] theorem State.dropReqPin_keeps (s : State) : Keeps s (State.dropReqPin s) := by simp [Keeps, State.dropReqPin]

@[simp] theorem State.quarantine_keeps (s : State) : Keeps s (State.quarantine s) := by simp [Keeps, State.quarantine]

@[simp] theorem State.failStart_keeps (s : State) : Keeps s (State.failStart s) := by simp [Keeps, State.failStart]

@[simp] theorem State.logFault_keeps (s : State) (m : FaultMsg) (fatal : Bool) : Keeps s (State.logFault s m fatal) := by
  unfold State.logFault
  (try dsimp only)
  (repeat' split) <;> simp [Keeps]

@[simp] theorem State.outputs_keeps (s : State) (bits : Nat) : Keeps s (State.outputs s bits) := by simp [Keeps, State.outputs]

@[simp] theorem State.laneLost_keeps (s : State) (u k : Nat) : Keeps s (State.laneLost s u k) := by
  unfold State.laneLost
  (try dsimp only)
  (repeat' split) <;> simp [Keeps]

@[simp] theorem State.ckptLost_keeps (s : State) (k : Nat) : Keeps s (State.ckptLost s k) := by simp [Keeps, State.ckptLost]

@[simp] theorem State.loseLane_keeps (s : State) (rid u : Nat) (r : Req) : Keeps s (State.loseLane s rid u r) := by simp [Keeps, State.loseLane]

@[simp] theorem State.trapWork_keeps (s : State) (u : Nat) (w : Work) : Keeps s (State.trapWork s u w) := by
  unfold State.trapWork
  (try dsimp only)
  (repeat' split) <;> simp [Keeps]

@[simp] theorem State.trapSave_keeps (s : State) (o : Option Nat) : Keeps s (State.trapSave s o) := by
  unfold State.trapSave
  (repeat' split) <;> simp [Keeps]

@[simp] theorem State.trapUnit_keeps (s : State) (u : Nat) : Keeps s (s.trapUnit u) := by
  rw [State.trapUnit]
  refine Keeps.trans ?_ (State.serveFrames_keeps _)
  refine Keeps.trans ?_ (State.updUnit_keeps _ _ _)
  refine Keeps.trans ?_ (State.trapSave_keeps _ _)
  exact Keeps.trans (State.updUnit_keeps _ _ _) (State.trapWork_keeps _ _ _)

@[simp] theorem State.trapTap_keeps (s : State) (u : Nat) : Keeps s (State.trapTap s u) := by simp [Keeps, State.trapTap]

@[simp] theorem State.act_keeps (s : State) (src a : Nat) : Keeps s (State.act s src a) := by simp [Keeps, State.act]

@[simp] theorem State.collect_keeps (s : State) (m : FaultMsg) : Keeps s (State.collect s m) := by simp [Keeps, State.collect]

@[simp] theorem State.rctWrite_keeps (s : State) (src : Nat) (ben : BitVec 4) (data : Word) :
    Keeps s (State.rctWrite s src ben data) := by simp [Keeps, State.rctWrite]

@[simp] theorem State.recordWritten_keeps (s : State) (eid : Nat) (ok : Bool) :
    Keeps s (State.recordWritten s eid ok) := by simp [Keeps, State.recordWritten]

@[simp] theorem State.ringCfg_keeps (s : State) (off : Nat) (ben : BitVec 4) (data : Word) :
    Keeps s (State.ringCfg s off ben data) := by simp [Keeps, State.ringCfg]

@[simp] theorem State.fltCfg_keeps (s : State) (ben : BitVec 4) (data : Word) : Keeps s (State.fltCfg s ben data) := by simp [Keeps, State.fltCfg]

@[simp] theorem State.scrubHeart_keeps (s : State) (tile : Nat) (again : Bool) : Keeps s (State.scrubHeart s tile again) := by
  unfold State.scrubHeart
  (try dsimp only)
  (repeat' split) <;> simp [Keeps]

@[simp] theorem State.scrubEntry_keeps (s : State) (part q i : Nat) : Keeps s (State.scrubEntry s part q i) := by
  unfold State.scrubEntry
  (repeat' split) <;> simp [Keeps]

@[simp] theorem State.scrubHolder_keeps (s : State) (store : StoreId) (sub tile : Nat) : Keeps s (State.scrubHolder s store sub tile) := by
  unfold State.scrubHolder
  (try dsimp only)
  (repeat' split) <;> simp [Keeps]

@[simp] theorem State.roomCheck_keeps (s : State) (store : StoreId) (tile : Nat) : Keeps s (State.roomCheck s store tile) := by
  unfold State.roomCheck
  (repeat' split) <;> simp [Keeps]

@[simp] theorem State.retireTile_keeps (s : State) (store : StoreId) (sub tile : Nat) :
    Keeps s (State.retireTile s store sub tile) := by simp [Keeps, State.retireTile]

@[simp] theorem State.scrubFailed_keeps (s : State) (store : StoreId) (sub tile : Nat) (again : Bool) :
    Keeps s (State.scrubFailed s store sub tile again) := by simp [Keeps, State.scrubFailed]

@[simp] theorem State.scrubStep_keeps (s : State) (store : StoreId) (sub tile : Nat) : Keeps s (State.scrubStep s store sub tile) := by
  unfold State.scrubStep
  split <;> simp [Keeps]

@[simp] theorem State.telPut_keeps (s : State) (r : Option Nat) : Keeps s (State.telPut s r) := by simp [Keeps, State.telPut]

@[simp] theorem State.telWritten_keeps (s : State) (ok : Bool) : Keeps s (State.telWritten s ok) := by simp [Keeps, State.telWritten]

@[simp] theorem State.telCfg_keeps (s : State) (ben : BitVec 4) (data : Word) : Keeps s (State.telCfg s ben data) := by simp [Keeps, State.telCfg]

@[simp] theorem State.unitReject_keeps (s : State) (reason u : Nat) : Keeps s (State.unitReject s reason u) := by simp [Keeps, State.unitReject]

@[simp] theorem State.unitOpDone_keeps (s : State) (u : Nat) : Keeps s (State.unitOpDone s u) := by simp [Keeps, State.unitOpDone]

@[simp] theorem State.unitWrite_keeps (s : State) (priv : Bool) (ben : BitVec 4) (data : Word) (f : State → Nat → State)
    (hf : ∀ t n, Keeps t (f t n)) : Keeps s (s.unitWrite priv ben data f) := by
  unfold State.unitWrite
  (try dsimp only)
  (repeat' split) <;> simp_all [Keeps]

@[simp] theorem State.fenceNow_keeps (s : State) (u : Nat) : Keeps s (State.fenceNow s u) := by simp [Keeps, State.fenceNow]

@[simp] theorem State.startEntropy_keeps (s : State) : Keeps s (State.startEntropy s) := by simp [Keeps, State.startEntropy]

@[simp] theorem State.updBox_keeps (s : State) (k : Nat) (f : Mbox → Mbox) : Keeps s (State.updBox s k f) := by simp [Keeps, State.updBox]

@[simp] theorem State.setTaken_keeps (s : State) (k : Nat) (l : List Taken) : Keeps s (State.setTaken s k l) := by simp [Keeps, State.setTaken]

@[simp] theorem State.setReplies_keeps (s : State) (k : Nat) (l : List (Bytes × Bool)) :
    Keeps s (State.setReplies s k l) := by simp [Keeps, State.setReplies]

@[simp] theorem State.mbCtl_keeps (s : State) (k : Nat) (data : Word) : Keeps s (State.mbCtl s k data) := by simp [Keeps, State.mbCtl]

@[simp] theorem State.serve_keeps (s : State) (k svc : Nat) (f : State → Bytes → Nat × Bytes × State)
    (hf : ∀ b, Keeps s ((f s b).2.2)) : Keeps s (s.serve k svc f) := by
  unfold State.serve
  (try dsimp only)
  (repeat' split) <;> simp_all [Keeps]

@[simp] theorem State.patchChunk_keeps (s : State) (sofar : Bytes) (total : Nat) (chunk : Bytes) :
    Keeps s ((s.patchChunk sofar total chunk).2.2) := by
  unfold State.patchChunk; dsimp only; (repeat' split) <;> simp [Keeps]

@[simp] theorem State.deliver_keeps (s : State) (k : Nat) (bytes : Bytes) (mark : Bool) :
    Keeps s (State.deliver s k bytes mark) := by simp [Keeps, State.deliver]

@[simp] theorem State.restartPair_keeps (s : State) (k : Nat) : Keeps s (State.restartPair s k) := by simp [Keeps, State.restartPair]

@[simp] theorem State.loseMail_keeps (s : State) (k : Nat) : Keeps s (State.loseMail s k) := by simp [Keeps, State.loseMail]

@[simp] theorem State.fwReset_keeps (s : State) : Keeps s (State.fwReset s) := by simp [Keeps, State.fwReset]

@[simp] theorem State.fwStart_keeps (s : State) : Keeps s (State.fwStart s) := by simp [Keeps, State.fwStart]

@[simp] theorem State.pairRefuse_keeps (s : State) (reason : Nat) : Keeps s (State.pairRefuse s reason) := by simp [Keeps, State.pairRefuse]

@[simp] theorem State.pairWrite_keeps (s : State) (priv : Bool) (ben : BitVec 4) (data : Word) (f : State → State)
    (hf : ∀ t, Keeps t (f t)) : Keeps s (s.pairWrite priv ben data f) := by
  unfold State.pairWrite
  (try dsimp only)
  (repeat' split) <;> simp_all [Keeps]

@[simp] theorem State.setIdent_keeps (s : State) (i : PairId) (wait : Bool) : Keeps s (State.setIdent s i wait) := by simp [Keeps, State.setIdent]

@[simp] theorem State.setLane_keeps (s : State) (k : Nat) (l : LinkLane) : Keeps s (State.setLane s k l) := by simp [Keeps, State.setLane]

@[simp] theorem State.train_keeps (s : State) (mask : Nat) (ready : Bool) : Keeps s (State.train s mask ready) := by
  unfold State.train
  (try dsimp only)
  (repeat' split) <;> simp [Keeps]

@[simp] theorem State.peerFaulted_keeps (s : State) : Keeps s (State.peerFaulted s) := by simp [Keeps, State.peerFaulted]

@[simp] theorem State.sendSnap_keeps (s : State) : Keeps s (State.sendSnap s) := by simp [Keeps, State.sendSnap]

@[simp] theorem State.authed_keeps (s : State) (mode : Nat) (nonce : Bytes) : Keeps s (State.authed s mode nonce) := by simp [Keeps, State.authed]

@[simp] theorem State.rxGraft_keeps (s : State) (gseq : Nat) (takes : Bool) (f : State → State)
    (hf : ∀ t, Keeps t (f t)) : Keeps s (s.rxGraft gseq takes f) := by
  unfold State.rxGraft
  (try dsimp only)
  (repeat' split) <;> simp_all [Keeps]

@[simp] theorem State.oweAck_keeps (s : State) (gseq : Nat) (snap : Bool) : Keeps s (State.oweAck s gseq snap) := by
  unfold State.oweAck
  (try dsimp only)
  (repeat' split) <;> simp [Keeps]

@[simp] theorem State.nak_keeps (s : State) (gseq : Nat) : Keeps s (State.nak s gseq) := by simp [Keeps, State.nak]

@[simp] theorem State.mergeAcct_keeps (s : State) (a : Acct) : Keeps s (State.mergeAcct s a) := by
  unfold State.mergeAcct
  (try dsimp only)
  (repeat' split) <;> simp [Keeps]

@[simp] theorem State.dropAcct_keeps (s : State) (n : Nat) : Keeps s (State.dropAcct s n) := by simp [Keeps, State.dropAcct]

@[simp] theorem State.takeSlot_keeps (s : State) (g : Nat) (x : HwSlot) : Keeps s (State.takeSlot s g x) := by simp [Keeps, State.takeSlot]

@[simp] theorem State.takeKek_keeps (s : State) (p : Nat) (kek : Bytes) : Keeps s (State.takeKek s p kek) := by simp [Keeps, State.takeKek]

@[simp] theorem State.commit_keeps (s : State) (img : Image) : Keeps s (State.commit s img) := by simp [Keeps, State.commit]

@[simp] theorem State.resyncAgain_keeps (s : State) : Keeps s (State.resyncAgain s) := by simp [Keeps, State.resyncAgain]

@[simp] theorem State.coreReset_keeps (s : State) : Keeps s (State.coreReset s) := by simp [Keeps, State.coreReset]

@[simp] theorem State.endLeases_keeps (s : State) : Keeps s (State.endLeases s) := by simp [Keeps, State.endLeases]

@[simp] theorem State.sleep_keeps (s : State) : Keeps s (State.sleep s) := by simp [Keeps, State.sleep]

@[simp] theorem State.restore_keeps (s : State) (r : Retained) : Keeps s (State.restore s r) := by simp [Keeps, State.restore]

@[simp] theorem State.stagesOver_keeps (s : State) : Keeps s (State.stagesOver s) := by simp [Keeps, State.stagesOver]

@[simp] theorem State.stageStart_keeps (s : State) (n : Nat) :
    Keeps s (s.stageStart n) := by
  induction n generalizing s with
  | zero => simp [Keeps, State.stageStart]
  | succ n ih =>
    unfold State.stageStart
    (try dsimp only); (repeat' split) <;> simp_all [Keeps]

@[simp] theorem State.resumeQueues_keeps (s : State) : Keeps s (State.resumeQueues s) := by simp [Keeps, State.resumeQueues]

@[simp] theorem State.resumeSeals_keeps (s : State) : Keeps s (State.resumeSeals s) := by simp [Keeps, State.resumeSeals]

@[simp] theorem State.enterServed_keeps (s : State) : Keeps s (State.enterServed s) := by simp [Keeps, State.enterServed]

@[simp] theorem State.badReq_keeps (s : State) : Keeps s (State.badReq s) := by simp [Keeps, State.badReq]

@[simp] theorem State.setTarget_keeps (s : State) (t : Target) : Keeps s (State.setTarget s t) := by simp [Keeps, State.setTarget]

@[simp] theorem State.pursue_keeps (s : State) : Keeps s (State.pursue s) := by
  unfold State.pursue
  (repeat' split) <;> simp [Keeps]

@[simp] theorem State.enterFollower_keeps (s : State) : Keeps s (State.enterFollower s) := by simp [Keeps, State.enterFollower]

@[simp] theorem State.promote_keeps (s : State) : Keeps s (State.promote s) := by simp [Keeps, State.promote]

@[simp] theorem State.drainExpire_keeps (s : State) : Keeps s (State.drainExpire s) := by simp [Keeps, State.drainExpire]

@[simp] theorem State.stopFabric_keeps (s : State) : Keeps s (State.stopFabric s) := by simp [Keeps, State.stopFabric]

@[simp] theorem State.cold_keeps (s : State) :
    (s.cold).pending = s.pending ∧ (s.cold).units.map Prod.fst = s.units.map Prod.fst ∧ (s.cold).pins.blkRel = false
      ∧ (s.cold).jtag = s.jtag := by
  simp [State.cold, Pins.reset]

@[simp] theorem State.sampleKey_keeps (s : State) : Keeps s (State.sampleKey s) := by
  unfold State.sampleKey
  (try dsimp only)
  (repeat' split) <;> simp [Keeps]

@[simp] theorem State.attestStart_keeps (s : State) : Keeps s (State.attestStart s) := by simp [Keeps, State.attestStart]

@[simp] theorem State.wake_keeps (s : State) : Keeps s (State.wake s) := by simp [Keeps, State.wake]

@[simp] theorem State.tryWake_keeps (s : State) : Keeps s (State.tryWake s) := by simp [Keeps, State.tryWake]

@[simp] theorem State.aim_keeps (s : State) (g : Target) : Keeps s (State.aim s g) := by
  unfold State.aim
  (try dsimp only)
  (repeat' split) <;> simp [Keeps]

@[simp] theorem State.modeWrite_keeps (s : State) (priv : Bool) (ben : BitVec 4) (chgIe : Bool) (f : State → State)
    (hf : ∀ t, Keeps t (f t)) : Keeps s (s.modeWrite priv ben chgIe f) := by
  unfold State.modeWrite
  (try dsimp only)
  (repeat' split) <;> simp_all [Keeps]

@[simp] theorem State.putSlots_keeps (s : State) (l : List (Nat × HwSlot)) : Keeps s (State.putSlots s l) := by simp [Keeps, State.putSlots]

@[simp] theorem State.restoreKeys_keeps (s : State) (img : Image) : Keeps s (State.restoreKeys s img) := by simp [Keeps, State.restoreKeys]

@[simp] theorem State.markHistory_keeps (s : State) : Keeps s (State.markHistory s) := by simp [Keeps, State.markHistory]

@[simp] theorem State.takeBank_keeps (s : State) (a b : BankRead) : Keeps s (State.takeBank s a b) := by
  unfold State.takeBank
  (try dsimp only)
  (repeat' split) <;> simp [Keeps]

@[simp] theorem State.tryServe_keeps (s : State) : Keeps s (State.tryServe s) := by simp [Keeps, State.tryServe]

@[simp] theorem State.setTxn_keeps (s : State) (port : Nat) (w : Bool) (tag : Nat) (f : Txn → Option Txn) :
    Keeps s (State.setTxn s port w tag f) := by simp [Keeps, State.setTxn]

@[simp] theorem State.ringFail_keeps (s : State) (p q : Nat) (f : Queue → Queue) : Keeps s (State.ringFail s p q f) := by
  unfold State.ringFail
  (repeat' split) <;> simp [Keeps]

@[simp] theorem State.readData_keeps (s : State) (pf : Purpose) (bs : Bytes) : Keeps s (State.readData s pf bs) := by
  unfold State.readData
  (try dsimp only)
  (repeat' split) <;> simp [Keeps]

@[simp] theorem State.readFail_keeps (s : State) (rid : Nat) : Keeps s (State.readFail s rid) := by
  unfold State.readFail
  (try dsimp only)
  (repeat' split) <;> simp [Keeps]

@[simp] theorem State.readLost_keeps (s : State) (pf : Purpose) : Keeps s (State.readLost s pf) := by
  unfold State.readLost
  (repeat' split) <;> simp [Keeps]

@[simp] theorem State.outWritten_keeps (s : State) (rid : Nat) (ok : Bool) (detail : Nat) : Keeps s (State.outWritten s rid ok detail) := by
  unfold State.outWritten
  (try dsimp only)
  (repeat' split) <;> simp [Keeps]

@[simp] theorem State.written_keeps (s : State) (t : Txn) (ok : Bool) : Keeps s (State.written s t ok) := by
  unfold State.written
  (try dsimp only)
  (repeat' split) <;> simp [Keeps]

@[simp] theorem State.stray_keeps (s : State) (port : Nat) : Keeps s (State.stray s port) := by
  unfold State.stray
  (try dsimp only)
  (repeat' split) <;> simp [Keeps]

@[simp] theorem State.beat_keeps (s : State) (port tag idx : Nat) (bs : Bytes) (bad : Bool) (t : Txn) :
    Keeps s (State.beat s port tag idx bs bad t) := by simp [Keeps, State.beat]

@[simp] theorem State.w1cIrq_keeps (s : State) (d : Word) : Keeps s (State.w1cIrq s d) := by simp [Keeps, State.w1cIrq]

@[simp] theorem State.w1cIntr_keeps (s : State) (base : Nat) (d : Word) : Keeps s (State.w1cIntr s base d) := by simp [Keeps, State.w1cIntr]

@[simp] theorem State.w1cMode_keeps (s : State) (d : Word) : Keeps s (State.w1cMode s d) := by simp [Keeps, State.w1cMode]

@[simp] theorem State.w1cGov_keeps (s : State) (d : Word) : Keeps s (State.w1cGov s d) := by simp [Keeps, State.w1cGov]

@[simp] theorem State.w1cLedger_keeps (s : State) (d : Word) : Keeps s (State.w1cLedger s d) := by simp [Keeps, State.w1cLedger]

@[simp] theorem State.w1cPurge_keeps (s : State) (d : Word) : Keeps s (State.w1cPurge s d) := by simp [Keeps, State.w1cPurge]

@[simp] theorem State.w1cPersist_keeps (s : State) (d : Word) : Keeps s (State.w1cPersist s d) := by simp [Keeps, State.w1cPersist]

@[simp] theorem State.w1cPair_keeps (s : State) (d : Word) : Keeps s (State.w1cPair s d) := by simp [Keeps, State.w1cPair]

@[simp] theorem State.w1cFlt_keeps (s : State) (d : Word) : Keeps s (State.w1cFlt s d) := by simp [Keeps, State.w1cFlt]

@[simp] theorem State.mbData_keeps (s : State) (k r : Nat) (ben : BitVec 4) (d : Word) :
    Keeps s (State.mbData s k r ben d) := by simp [Keeps, State.mbData]

@[simp] theorem State.leaveIso_keeps (s : State) : Keeps s s.leaveIso := by unfold State.leaveIso; split <;> simp [Keeps]

@[simp] theorem State.globalEffect_keeps (s : State) (off : Nat) (ben : BitVec 4) (d : Word) :
    Keeps s (s.globalEffect off ben d) := by
  unfold State.globalEffect
  split
  all_goals first
    | exact ⟨rfl, rfl, rfl, rfl, rfl, rfl⟩
    | simp [Keeps]

@[simp] theorem State.admWrite_keeps (s : State) (p off : Nat) (ben : BitVec 4) (d : Word) :
    Keeps s (State.admWrite s p off ben d) := by simp [Keeps, State.admWrite]

@[simp] theorem State.expWrite_keeps (s : State) (p off : Nat) (ben : BitVec 4) (d : Word) :
    Keeps s (State.expWrite s p off ben d) := by simp [Keeps, State.expWrite]

@[simp] theorem State.pageEffect_keeps (s : State) (p off : Nat) (ben : BitVec 4) (d : Word) : Keeps s (State.pageEffect s p off ben d) := by
  unfold State.pageEffect
  (try dsimp only)
  (repeat' split) <;> simp [Keeps]

end Sys2Proof.Machine
end

