-- ==== Sys2Proof/Laws/State.lean ====
section
/-! SUPPORT. What each named update of the state does to each field, so that no proof unfolds a record update. -/

namespace Sys2Proof.Machine

/-! #### State.bump -/

@[simp] theorem State.bump_pins (s : State) : (s.bump).pins = s.pins := rfl
@[simp] theorem State.bump_jtag (s : State) : (s.bump).jtag = s.jtag := rfl
@[simp] theorem State.bump_port (s : State) : (s.bump).port = s.port := rfl
@[simp] theorem State.bump_mode (s : State) : (s.bump).mode = s.mode := rfl
@[simp] theorem State.bump_regsAon (s : State) : (s.bump).regsAon = s.regsAon := rfl
@[simp] theorem State.bump_regsBlk (s : State) : (s.bump).regsBlk = s.regsBlk := rfl
@[simp] theorem State.bump_time (s : State) : (s.bump).time = s.time := rfl
@[simp] theorem State.bump_gov (s : State) : (s.bump).gov = s.gov := rfl
@[simp] theorem State.bump_fab (s : State) : (s.bump).fab = s.fab := rfl
@[simp] theorem State.bump_units (s : State) : (s.bump).units = s.units := rfl
@[simp] theorem State.bump_parts (s : State) : (s.bump).parts = s.parts := rfl
@[simp] theorem State.bump_reqs (s : State) : (s.bump).reqs = s.reqs := rfl
@[simp] theorem State.bump_hw (s : State) : (s.bump).hw = s.hw := rfl
@[simp] theorem State.bump_ledger (s : State) : (s.bump).ledger = s.ledger := rfl
@[simp] theorem State.bump_persist (s : State) : (s.bump).persist = s.persist := rfl
@[simp] theorem State.bump_seals (s : State) : (s.bump).seals = s.seals := rfl
@[simp] theorem State.bump_pair (s : State) : (s.bump).pair = s.pair := rfl
@[simp] theorem State.bump_mbx (s : State) : (s.bump).mbx = s.mbx := rfl
@[simp] theorem State.bump_flt (s : State) : (s.bump).flt = s.flt := rfl
@[simp] theorem State.bump_bg (s : State) : (s.bump).bg = s.bg := rfl
@[simp] theorem State.bump_rng (s : State) : (s.bump).rng = s.rng := rfl
@[simp] theorem State.bump_pm (s : State) : (s.bump).pm = s.pm := rfl
@[simp] theorem State.bump_irq (s : State) : (s.bump).irq = s.irq := rfl
@[simp] theorem State.bump_retained (s : State) : (s.bump).retained = s.retained := rfl
@[simp] theorem State.bump_sheds (s : State) : (s.bump).sheds = s.sheds := rfl
@[simp] theorem State.bump_free (s : State) : (s.bump).free = s.free := rfl
@[simp] theorem State.bump_nextId (s : State) : (s.bump).nextId = s.nextId + 1 := rfl
@[simp] theorem State.bump_now (s : State) : (s.bump).now = s.now := rfl
@[simp] theorem State.bump_pending (s : State) : (s.bump).pending = s.pending := rfl

/-! #### State.send -/

@[simp] theorem State.send_pins (s : State) (src kind addr : Nat) : (s.send src kind addr).pins = s.pins := rfl
@[simp] theorem State.send_jtag (s : State) (src kind addr : Nat) : (s.send src kind addr).jtag = s.jtag := rfl
@[simp] theorem State.send_port (s : State) (src kind addr : Nat) : (s.send src kind addr).port = s.port := rfl
@[simp] theorem State.send_mode (s : State) (src kind addr : Nat) : (s.send src kind addr).mode = s.mode := rfl
@[simp] theorem State.send_regsAon (s : State) (src kind addr : Nat) : (s.send src kind addr).regsAon = s.regsAon := rfl
@[simp] theorem State.send_regsBlk (s : State) (src kind addr : Nat) : (s.send src kind addr).regsBlk = s.regsBlk := rfl
@[simp] theorem State.send_time (s : State) (src kind addr : Nat) : (s.send src kind addr).time = s.time := rfl
@[simp] theorem State.send_gov (s : State) (src kind addr : Nat) : (s.send src kind addr).gov = s.gov := rfl
@[simp] theorem State.send_fab (s : State) (src kind addr : Nat) : (s.send src kind addr).fab = s.fab := rfl
@[simp] theorem State.send_units (s : State) (src kind addr : Nat) : (s.send src kind addr).units = s.units := rfl
@[simp] theorem State.send_parts (s : State) (src kind addr : Nat) : (s.send src kind addr).parts = s.parts := rfl
@[simp] theorem State.send_reqs (s : State) (src kind addr : Nat) : (s.send src kind addr).reqs = s.reqs := rfl
@[simp] theorem State.send_hw (s : State) (src kind addr : Nat) : (s.send src kind addr).hw = s.hw := rfl
@[simp] theorem State.send_ledger (s : State) (src kind addr : Nat) : (s.send src kind addr).ledger = s.ledger := rfl
@[simp] theorem State.send_persist (s : State) (src kind addr : Nat) : (s.send src kind addr).persist = s.persist := rfl
@[simp] theorem State.send_seals (s : State) (src kind addr : Nat) : (s.send src kind addr).seals = s.seals := rfl
@[simp] theorem State.send_pair (s : State) (src kind addr : Nat) : (s.send src kind addr).pair = s.pair := rfl
@[simp] theorem State.send_mbx (s : State) (src kind addr : Nat) : (s.send src kind addr).mbx = s.mbx := rfl
@[simp] theorem State.send_flt (s : State) (src kind addr : Nat) :
    (s.send src kind addr).flt = { s.flt with inFlight := s.flt.inFlight ++ [⟨src, kind, addr⟩] } := rfl
@[simp] theorem State.send_bg (s : State) (src kind addr : Nat) : (s.send src kind addr).bg = s.bg := rfl
@[simp] theorem State.send_rng (s : State) (src kind addr : Nat) : (s.send src kind addr).rng = s.rng := rfl
@[simp] theorem State.send_pm (s : State) (src kind addr : Nat) : (s.send src kind addr).pm = s.pm := rfl
@[simp] theorem State.send_irq (s : State) (src kind addr : Nat) : (s.send src kind addr).irq = s.irq := rfl
@[simp] theorem State.send_retained (s : State) (src kind addr : Nat) : (s.send src kind addr).retained = s.retained := rfl
@[simp] theorem State.send_sheds (s : State) (src kind addr : Nat) : (s.send src kind addr).sheds = s.sheds := rfl
@[simp] theorem State.send_free (s : State) (src kind addr : Nat) : (s.send src kind addr).free = s.free := rfl
@[simp] theorem State.send_nextId (s : State) (src kind addr : Nat) : (s.send src kind addr).nextId = s.nextId := rfl
@[simp] theorem State.send_now (s : State) (src kind addr : Nat) : (s.send src kind addr).now = s.now := rfl
@[simp] theorem State.send_pending (s : State) (src kind addr : Nat) : (s.send src kind addr).pending = s.pending := rfl

/-! #### State.setDb -/

@[simp] theorem State.setDb_pins (s : State) (w : Word) : (s.setDb w).pins = s.pins := rfl
@[simp] theorem State.setDb_jtag (s : State) (w : Word) : (s.setDb w).jtag = s.jtag := rfl
@[simp] theorem State.setDb_port (s : State) (w : Word) : (s.setDb w).port = s.port := rfl
@[simp] theorem State.setDb_mode (s : State) (w : Word) : (s.setDb w).mode = s.mode := rfl
@[simp] theorem State.setDb_regsAon (s : State) (w : Word) : (s.setDb w).regsAon = s.regsAon := rfl
@[simp] theorem State.setDb_regsBlk (s : State) (w : Word) : (s.setDb w).regsBlk = s.regsBlk := rfl
@[simp] theorem State.setDb_time (s : State) (w : Word) : (s.setDb w).time = s.time := rfl
@[simp] theorem State.setDb_gov (s : State) (w : Word) : (s.setDb w).gov = s.gov := rfl
@[simp] theorem State.setDb_fab (s : State) (w : Word) : (s.setDb w).fab = s.fab := rfl
@[simp] theorem State.setDb_units (s : State) (w : Word) : (s.setDb w).units = s.units := rfl
@[simp] theorem State.setDb_parts (s : State) (w : Word) : (s.setDb w).parts = s.parts := rfl
@[simp] theorem State.setDb_reqs (s : State) (w : Word) : (s.setDb w).reqs = s.reqs := rfl
@[simp] theorem State.setDb_hw (s : State) (w : Word) : (s.setDb w).hw = s.hw := rfl
@[simp] theorem State.setDb_ledger (s : State) (w : Word) : (s.setDb w).ledger = s.ledger := rfl
@[simp] theorem State.setDb_persist (s : State) (w : Word) : (s.setDb w).persist = s.persist := rfl
@[simp] theorem State.setDb_seals (s : State) (w : Word) : (s.setDb w).seals = s.seals := rfl
@[simp] theorem State.setDb_pair (s : State) (w : Word) : (s.setDb w).pair = s.pair := rfl
@[simp] theorem State.setDb_mbx (s : State) (w : Word) : (s.setDb w).mbx = { s.mbx with dbStat := s.mbx.dbStat ||| w } := rfl
@[simp] theorem State.setDb_flt (s : State) (w : Word) : (s.setDb w).flt = s.flt := rfl
@[simp] theorem State.setDb_bg (s : State) (w : Word) : (s.setDb w).bg = s.bg := rfl
@[simp] theorem State.setDb_rng (s : State) (w : Word) : (s.setDb w).rng = s.rng := rfl
@[simp] theorem State.setDb_pm (s : State) (w : Word) : (s.setDb w).pm = s.pm := rfl
@[simp] theorem State.setDb_irq (s : State) (w : Word) : (s.setDb w).irq = s.irq := rfl
@[simp] theorem State.setDb_retained (s : State) (w : Word) : (s.setDb w).retained = s.retained := rfl
@[simp] theorem State.setDb_sheds (s : State) (w : Word) : (s.setDb w).sheds = s.sheds := rfl
@[simp] theorem State.setDb_free (s : State) (w : Word) : (s.setDb w).free = s.free := rfl
@[simp] theorem State.setDb_nextId (s : State) (w : Word) : (s.setDb w).nextId = s.nextId := rfl
@[simp] theorem State.setDb_now (s : State) (w : Word) : (s.setDb w).now = s.now := rfl
@[simp] theorem State.setDb_pending (s : State) (w : Word) : (s.setDb w).pending = s.pending := rfl

/-! #### State.reads -/

@[simp] theorem State.reads_pins (s : State) (part cls addr len : Nat) (pf : Nat → Purpose) : (s.reads part cls addr len pf).pins = s.pins := rfl
@[simp] theorem State.reads_jtag (s : State) (part cls addr len : Nat) (pf : Nat → Purpose) : (s.reads part cls addr len pf).jtag = s.jtag := rfl
@[simp] theorem State.reads_port (s : State) (part cls addr len : Nat) (pf : Nat → Purpose) : (s.reads part cls addr len pf).port = s.port := rfl
@[simp] theorem State.reads_mode (s : State) (part cls addr len : Nat) (pf : Nat → Purpose) : (s.reads part cls addr len pf).mode = s.mode := rfl
@[simp] theorem State.reads_regsAon (s : State) (part cls addr len : Nat) (pf : Nat → Purpose) :
    (s.reads part cls addr len pf).regsAon = s.regsAon := rfl
@[simp] theorem State.reads_regsBlk (s : State) (part cls addr len : Nat) (pf : Nat → Purpose) :
    (s.reads part cls addr len pf).regsBlk = s.regsBlk := rfl
@[simp] theorem State.reads_time (s : State) (part cls addr len : Nat) (pf : Nat → Purpose) : (s.reads part cls addr len pf).time = s.time := rfl
@[simp] theorem State.reads_gov (s : State) (part cls addr len : Nat) (pf : Nat → Purpose) : (s.reads part cls addr len pf).gov = s.gov := rfl
@[simp] theorem State.reads_fab (s : State) (part cls addr len : Nat) (pf : Nat → Purpose) :
    (s.reads part cls addr len pf).fab = s.fab ++ s.readTxns part cls addr len pf := rfl
@[simp] theorem State.reads_units (s : State) (part cls addr len : Nat) (pf : Nat → Purpose) : (s.reads part cls addr len pf).units = s.units := rfl
@[simp] theorem State.reads_parts (s : State) (part cls addr len : Nat) (pf : Nat → Purpose) : (s.reads part cls addr len pf).parts = s.parts := rfl
@[simp] theorem State.reads_reqs (s : State) (part cls addr len : Nat) (pf : Nat → Purpose) : (s.reads part cls addr len pf).reqs = s.reqs := rfl
@[simp] theorem State.reads_hw (s : State) (part cls addr len : Nat) (pf : Nat → Purpose) : (s.reads part cls addr len pf).hw = s.hw := rfl
@[simp] theorem State.reads_ledger (s : State) (part cls addr len : Nat) (pf : Nat → Purpose) :
    (s.reads part cls addr len pf).ledger = s.ledger := rfl
@[simp] theorem State.reads_persist (s : State) (part cls addr len : Nat) (pf : Nat → Purpose) :
    (s.reads part cls addr len pf).persist = s.persist := rfl
@[simp] theorem State.reads_seals (s : State) (part cls addr len : Nat) (pf : Nat → Purpose) : (s.reads part cls addr len pf).seals = s.seals := rfl
@[simp] theorem State.reads_pair (s : State) (part cls addr len : Nat) (pf : Nat → Purpose) : (s.reads part cls addr len pf).pair = s.pair := rfl
@[simp] theorem State.reads_mbx (s : State) (part cls addr len : Nat) (pf : Nat → Purpose) : (s.reads part cls addr len pf).mbx = s.mbx := rfl
@[simp] theorem State.reads_flt (s : State) (part cls addr len : Nat) (pf : Nat → Purpose) : (s.reads part cls addr len pf).flt = s.flt := rfl
@[simp] theorem State.reads_bg (s : State) (part cls addr len : Nat) (pf : Nat → Purpose) : (s.reads part cls addr len pf).bg = s.bg := rfl
@[simp] theorem State.reads_rng (s : State) (part cls addr len : Nat) (pf : Nat → Purpose) : (s.reads part cls addr len pf).rng = s.rng := rfl
@[simp] theorem State.reads_pm (s : State) (part cls addr len : Nat) (pf : Nat → Purpose) : (s.reads part cls addr len pf).pm = s.pm := rfl
@[simp] theorem State.reads_irq (s : State) (part cls addr len : Nat) (pf : Nat → Purpose) : (s.reads part cls addr len pf).irq = s.irq := rfl
@[simp] theorem State.reads_retained (s : State) (part cls addr len : Nat) (pf : Nat → Purpose) :
    (s.reads part cls addr len pf).retained = s.retained := rfl
@[simp] theorem State.reads_sheds (s : State) (part cls addr len : Nat) (pf : Nat → Purpose) : (s.reads part cls addr len pf).sheds = s.sheds := rfl
@[simp] theorem State.reads_free (s : State) (part cls addr len : Nat) (pf : Nat → Purpose) : (s.reads part cls addr len pf).free = s.free := rfl
@[simp] theorem State.reads_nextId (s : State) (part cls addr len : Nat) (pf : Nat → Purpose) :
    (s.reads part cls addr len pf).nextId = s.nextId := rfl
@[simp] theorem State.reads_now (s : State) (part cls addr len : Nat) (pf : Nat → Purpose) : (s.reads part cls addr len pf).now = s.now := rfl
@[simp] theorem State.reads_pending (s : State) (part cls addr len : Nat) (pf : Nat → Purpose) :
    (s.reads part cls addr len pf).pending = s.pending := rfl

/-! #### State.writes -/

@[simp] theorem State.writes_pins (s : State) (part cls addr : Nat) (bs : Bytes) (pf : Purpose) : (s.writes part cls addr bs pf).pins = s.pins := rfl
@[simp] theorem State.writes_jtag (s : State) (part cls addr : Nat) (bs : Bytes) (pf : Purpose) : (s.writes part cls addr bs pf).jtag = s.jtag := rfl
@[simp] theorem State.writes_port (s : State) (part cls addr : Nat) (bs : Bytes) (pf : Purpose) : (s.writes part cls addr bs pf).port = s.port := rfl
@[simp] theorem State.writes_mode (s : State) (part cls addr : Nat) (bs : Bytes) (pf : Purpose) : (s.writes part cls addr bs pf).mode = s.mode := rfl
@[simp] theorem State.writes_regsAon (s : State) (part cls addr : Nat) (bs : Bytes) (pf : Purpose) :
    (s.writes part cls addr bs pf).regsAon = s.regsAon := rfl
@[simp] theorem State.writes_regsBlk (s : State) (part cls addr : Nat) (bs : Bytes) (pf : Purpose) :
    (s.writes part cls addr bs pf).regsBlk = s.regsBlk := rfl
@[simp] theorem State.writes_time (s : State) (part cls addr : Nat) (bs : Bytes) (pf : Purpose) : (s.writes part cls addr bs pf).time = s.time := rfl
@[simp] theorem State.writes_gov (s : State) (part cls addr : Nat) (bs : Bytes) (pf : Purpose) : (s.writes part cls addr bs pf).gov = s.gov := rfl
@[simp] theorem State.writes_fab (s : State) (part cls addr : Nat) (bs : Bytes) (pf : Purpose) :
    (s.writes part cls addr bs pf).fab = s.fab ++ s.writeTxns part cls addr bs pf := rfl
@[simp] theorem State.writes_units (s : State) (part cls addr : Nat) (bs : Bytes) (pf : Purpose) :
    (s.writes part cls addr bs pf).units = s.units := rfl
@[simp] theorem State.writes_parts (s : State) (part cls addr : Nat) (bs : Bytes) (pf : Purpose) :
    (s.writes part cls addr bs pf).parts = s.parts := rfl
@[simp] theorem State.writes_reqs (s : State) (part cls addr : Nat) (bs : Bytes) (pf : Purpose) : (s.writes part cls addr bs pf).reqs = s.reqs := rfl
@[simp] theorem State.writes_hw (s : State) (part cls addr : Nat) (bs : Bytes) (pf : Purpose) : (s.writes part cls addr bs pf).hw = s.hw := rfl
@[simp] theorem State.writes_ledger (s : State) (part cls addr : Nat) (bs : Bytes) (pf : Purpose) :
    (s.writes part cls addr bs pf).ledger = s.ledger := rfl
@[simp] theorem State.writes_persist (s : State) (part cls addr : Nat) (bs : Bytes) (pf : Purpose) :
    (s.writes part cls addr bs pf).persist = s.persist := rfl
@[simp] theorem State.writes_seals (s : State) (part cls addr : Nat) (bs : Bytes) (pf : Purpose) :
    (s.writes part cls addr bs pf).seals = s.seals := rfl
@[simp] theorem State.writes_pair (s : State) (part cls addr : Nat) (bs : Bytes) (pf : Purpose) : (s.writes part cls addr bs pf).pair = s.pair := rfl
@[simp] theorem State.writes_mbx (s : State) (part cls addr : Nat) (bs : Bytes) (pf : Purpose) : (s.writes part cls addr bs pf).mbx = s.mbx := rfl
@[simp] theorem State.writes_flt (s : State) (part cls addr : Nat) (bs : Bytes) (pf : Purpose) : (s.writes part cls addr bs pf).flt = s.flt := rfl
@[simp] theorem State.writes_bg (s : State) (part cls addr : Nat) (bs : Bytes) (pf : Purpose) : (s.writes part cls addr bs pf).bg = s.bg := rfl
@[simp] theorem State.writes_rng (s : State) (part cls addr : Nat) (bs : Bytes) (pf : Purpose) : (s.writes part cls addr bs pf).rng = s.rng := rfl
@[simp] theorem State.writes_pm (s : State) (part cls addr : Nat) (bs : Bytes) (pf : Purpose) : (s.writes part cls addr bs pf).pm = s.pm := rfl
@[simp] theorem State.writes_irq (s : State) (part cls addr : Nat) (bs : Bytes) (pf : Purpose) : (s.writes part cls addr bs pf).irq = s.irq := rfl
@[simp] theorem State.writes_retained (s : State) (part cls addr : Nat) (bs : Bytes) (pf : Purpose) :
    (s.writes part cls addr bs pf).retained = s.retained := rfl
@[simp] theorem State.writes_sheds (s : State) (part cls addr : Nat) (bs : Bytes) (pf : Purpose) :
    (s.writes part cls addr bs pf).sheds = s.sheds := rfl
@[simp] theorem State.writes_free (s : State) (part cls addr : Nat) (bs : Bytes) (pf : Purpose) : (s.writes part cls addr bs pf).free = s.free := rfl
@[simp] theorem State.writes_nextId (s : State) (part cls addr : Nat) (bs : Bytes) (pf : Purpose) :
    (s.writes part cls addr bs pf).nextId = s.nextId := rfl
@[simp] theorem State.writes_now (s : State) (part cls addr : Nat) (bs : Bytes) (pf : Purpose) : (s.writes part cls addr bs pf).now = s.now := rfl
@[simp] theorem State.writes_pending (s : State) (part cls addr : Nat) (bs : Bytes) (pf : Purpose) :
    (s.writes part cls addr bs pf).pending = s.pending := rfl

/-! #### State.updUnit -/

@[simp] theorem State.updUnit_pins (s : State) (u : Nat) (f : UnitSt → UnitSt) : (s.updUnit u f).pins = s.pins := rfl
@[simp] theorem State.updUnit_jtag (s : State) (u : Nat) (f : UnitSt → UnitSt) : (s.updUnit u f).jtag = s.jtag := rfl
@[simp] theorem State.updUnit_port (s : State) (u : Nat) (f : UnitSt → UnitSt) : (s.updUnit u f).port = s.port := rfl
@[simp] theorem State.updUnit_mode (s : State) (u : Nat) (f : UnitSt → UnitSt) : (s.updUnit u f).mode = s.mode := rfl
@[simp] theorem State.updUnit_regsAon (s : State) (u : Nat) (f : UnitSt → UnitSt) : (s.updUnit u f).regsAon = s.regsAon := rfl
@[simp] theorem State.updUnit_regsBlk (s : State) (u : Nat) (f : UnitSt → UnitSt) : (s.updUnit u f).regsBlk = s.regsBlk := rfl
@[simp] theorem State.updUnit_time (s : State) (u : Nat) (f : UnitSt → UnitSt) : (s.updUnit u f).time = s.time := rfl
@[simp] theorem State.updUnit_gov (s : State) (u : Nat) (f : UnitSt → UnitSt) : (s.updUnit u f).gov = s.gov := rfl
@[simp] theorem State.updUnit_fab (s : State) (u : Nat) (f : UnitSt → UnitSt) : (s.updUnit u f).fab = s.fab := rfl
@[simp] theorem State.updUnit_units (s : State) (u : Nat) (f : UnitSt → UnitSt) : (s.updUnit u f).units = Store.upd s.units u f := rfl
@[simp] theorem State.updUnit_parts (s : State) (u : Nat) (f : UnitSt → UnitSt) : (s.updUnit u f).parts = s.parts := rfl
@[simp] theorem State.updUnit_reqs (s : State) (u : Nat) (f : UnitSt → UnitSt) : (s.updUnit u f).reqs = s.reqs := rfl
@[simp] theorem State.updUnit_hw (s : State) (u : Nat) (f : UnitSt → UnitSt) : (s.updUnit u f).hw = s.hw := rfl
@[simp] theorem State.updUnit_ledger (s : State) (u : Nat) (f : UnitSt → UnitSt) : (s.updUnit u f).ledger = s.ledger := rfl
@[simp] theorem State.updUnit_persist (s : State) (u : Nat) (f : UnitSt → UnitSt) : (s.updUnit u f).persist = s.persist := rfl
@[simp] theorem State.updUnit_seals (s : State) (u : Nat) (f : UnitSt → UnitSt) : (s.updUnit u f).seals = s.seals := rfl
@[simp] theorem State.updUnit_pair (s : State) (u : Nat) (f : UnitSt → UnitSt) : (s.updUnit u f).pair = s.pair := rfl
@[simp] theorem State.updUnit_mbx (s : State) (u : Nat) (f : UnitSt → UnitSt) : (s.updUnit u f).mbx = s.mbx := rfl
@[simp] theorem State.updUnit_flt (s : State) (u : Nat) (f : UnitSt → UnitSt) : (s.updUnit u f).flt = s.flt := rfl
@[simp] theorem State.updUnit_bg (s : State) (u : Nat) (f : UnitSt → UnitSt) : (s.updUnit u f).bg = s.bg := rfl
@[simp] theorem State.updUnit_rng (s : State) (u : Nat) (f : UnitSt → UnitSt) : (s.updUnit u f).rng = s.rng := rfl
@[simp] theorem State.updUnit_pm (s : State) (u : Nat) (f : UnitSt → UnitSt) : (s.updUnit u f).pm = s.pm := rfl
@[simp] theorem State.updUnit_irq (s : State) (u : Nat) (f : UnitSt → UnitSt) : (s.updUnit u f).irq = s.irq := rfl
@[simp] theorem State.updUnit_retained (s : State) (u : Nat) (f : UnitSt → UnitSt) : (s.updUnit u f).retained = s.retained := rfl
@[simp] theorem State.updUnit_sheds (s : State) (u : Nat) (f : UnitSt → UnitSt) : (s.updUnit u f).sheds = s.sheds := rfl
@[simp] theorem State.updUnit_free (s : State) (u : Nat) (f : UnitSt → UnitSt) : (s.updUnit u f).free = s.free := rfl
@[simp] theorem State.updUnit_nextId (s : State) (u : Nat) (f : UnitSt → UnitSt) : (s.updUnit u f).nextId = s.nextId := rfl
@[simp] theorem State.updUnit_now (s : State) (u : Nat) (f : UnitSt → UnitSt) : (s.updUnit u f).now = s.now := rfl
@[simp] theorem State.updUnit_pending (s : State) (u : Nat) (f : UnitSt → UnitSt) : (s.updUnit u f).pending = s.pending := rfl

/-! #### State.updPart -/

@[simp] theorem State.updPart_pins (s : State) (p : Nat) (f : Partition → Partition) : (s.updPart p f).pins = s.pins := rfl
@[simp] theorem State.updPart_jtag (s : State) (p : Nat) (f : Partition → Partition) : (s.updPart p f).jtag = s.jtag := rfl
@[simp] theorem State.updPart_port (s : State) (p : Nat) (f : Partition → Partition) : (s.updPart p f).port = s.port := rfl
@[simp] theorem State.updPart_mode (s : State) (p : Nat) (f : Partition → Partition) : (s.updPart p f).mode = s.mode := rfl
@[simp] theorem State.updPart_regsAon (s : State) (p : Nat) (f : Partition → Partition) : (s.updPart p f).regsAon = s.regsAon := rfl
@[simp] theorem State.updPart_regsBlk (s : State) (p : Nat) (f : Partition → Partition) : (s.updPart p f).regsBlk = s.regsBlk := rfl
@[simp] theorem State.updPart_time (s : State) (p : Nat) (f : Partition → Partition) : (s.updPart p f).time = s.time := rfl
@[simp] theorem State.updPart_gov (s : State) (p : Nat) (f : Partition → Partition) : (s.updPart p f).gov = s.gov := rfl
@[simp] theorem State.updPart_fab (s : State) (p : Nat) (f : Partition → Partition) : (s.updPart p f).fab = s.fab := rfl
@[simp] theorem State.updPart_units (s : State) (p : Nat) (f : Partition → Partition) : (s.updPart p f).units = s.units := rfl
@[simp] theorem State.updPart_parts (s : State) (p : Nat) (f : Partition → Partition) : (s.updPart p f).parts = Store.upd s.parts p f := rfl
@[simp] theorem State.updPart_reqs (s : State) (p : Nat) (f : Partition → Partition) : (s.updPart p f).reqs = s.reqs := rfl
@[simp] theorem State.updPart_hw (s : State) (p : Nat) (f : Partition → Partition) : (s.updPart p f).hw = s.hw := rfl
@[simp] theorem State.updPart_ledger (s : State) (p : Nat) (f : Partition → Partition) : (s.updPart p f).ledger = s.ledger := rfl
@[simp] theorem State.updPart_persist (s : State) (p : Nat) (f : Partition → Partition) : (s.updPart p f).persist = s.persist := rfl
@[simp] theorem State.updPart_seals (s : State) (p : Nat) (f : Partition → Partition) : (s.updPart p f).seals = s.seals := rfl
@[simp] theorem State.updPart_pair (s : State) (p : Nat) (f : Partition → Partition) : (s.updPart p f).pair = s.pair := rfl
@[simp] theorem State.updPart_mbx (s : State) (p : Nat) (f : Partition → Partition) : (s.updPart p f).mbx = s.mbx := rfl
@[simp] theorem State.updPart_flt (s : State) (p : Nat) (f : Partition → Partition) : (s.updPart p f).flt = s.flt := rfl
@[simp] theorem State.updPart_bg (s : State) (p : Nat) (f : Partition → Partition) : (s.updPart p f).bg = s.bg := rfl
@[simp] theorem State.updPart_rng (s : State) (p : Nat) (f : Partition → Partition) : (s.updPart p f).rng = s.rng := rfl
@[simp] theorem State.updPart_pm (s : State) (p : Nat) (f : Partition → Partition) : (s.updPart p f).pm = s.pm := rfl
@[simp] theorem State.updPart_irq (s : State) (p : Nat) (f : Partition → Partition) : (s.updPart p f).irq = s.irq := rfl
@[simp] theorem State.updPart_retained (s : State) (p : Nat) (f : Partition → Partition) : (s.updPart p f).retained = s.retained := rfl
@[simp] theorem State.updPart_sheds (s : State) (p : Nat) (f : Partition → Partition) : (s.updPart p f).sheds = s.sheds := rfl
@[simp] theorem State.updPart_free (s : State) (p : Nat) (f : Partition → Partition) : (s.updPart p f).free = s.free := rfl
@[simp] theorem State.updPart_nextId (s : State) (p : Nat) (f : Partition → Partition) : (s.updPart p f).nextId = s.nextId := rfl
@[simp] theorem State.updPart_now (s : State) (p : Nat) (f : Partition → Partition) : (s.updPart p f).now = s.now := rfl
@[simp] theorem State.updPart_pending (s : State) (p : Nat) (f : Partition → Partition) : (s.updPart p f).pending = s.pending := rfl

/-! #### State.updReq -/

@[simp] theorem State.updReq_pins (s : State) (rid : Nat) (f : Req → Req) : (s.updReq rid f).pins = s.pins := rfl
@[simp] theorem State.updReq_jtag (s : State) (rid : Nat) (f : Req → Req) : (s.updReq rid f).jtag = s.jtag := rfl
@[simp] theorem State.updReq_port (s : State) (rid : Nat) (f : Req → Req) : (s.updReq rid f).port = s.port := rfl
@[simp] theorem State.updReq_mode (s : State) (rid : Nat) (f : Req → Req) : (s.updReq rid f).mode = s.mode := rfl
@[simp] theorem State.updReq_regsAon (s : State) (rid : Nat) (f : Req → Req) : (s.updReq rid f).regsAon = s.regsAon := rfl
@[simp] theorem State.updReq_regsBlk (s : State) (rid : Nat) (f : Req → Req) : (s.updReq rid f).regsBlk = s.regsBlk := rfl
@[simp] theorem State.updReq_time (s : State) (rid : Nat) (f : Req → Req) : (s.updReq rid f).time = s.time := rfl
@[simp] theorem State.updReq_gov (s : State) (rid : Nat) (f : Req → Req) : (s.updReq rid f).gov = s.gov := rfl
@[simp] theorem State.updReq_fab (s : State) (rid : Nat) (f : Req → Req) : (s.updReq rid f).fab = s.fab := rfl
@[simp] theorem State.updReq_units (s : State) (rid : Nat) (f : Req → Req) : (s.updReq rid f).units = s.units := rfl
@[simp] theorem State.updReq_parts (s : State) (rid : Nat) (f : Req → Req) : (s.updReq rid f).parts = s.parts := rfl
@[simp] theorem State.updReq_reqs (s : State) (rid : Nat) (f : Req → Req) : (s.updReq rid f).reqs = Store.upd s.reqs rid f := rfl
@[simp] theorem State.updReq_hw (s : State) (rid : Nat) (f : Req → Req) : (s.updReq rid f).hw = s.hw := rfl
@[simp] theorem State.updReq_ledger (s : State) (rid : Nat) (f : Req → Req) : (s.updReq rid f).ledger = s.ledger := rfl
@[simp] theorem State.updReq_persist (s : State) (rid : Nat) (f : Req → Req) : (s.updReq rid f).persist = s.persist := rfl
@[simp] theorem State.updReq_seals (s : State) (rid : Nat) (f : Req → Req) : (s.updReq rid f).seals = s.seals := rfl
@[simp] theorem State.updReq_pair (s : State) (rid : Nat) (f : Req → Req) : (s.updReq rid f).pair = s.pair := rfl
@[simp] theorem State.updReq_mbx (s : State) (rid : Nat) (f : Req → Req) : (s.updReq rid f).mbx = s.mbx := rfl
@[simp] theorem State.updReq_flt (s : State) (rid : Nat) (f : Req → Req) : (s.updReq rid f).flt = s.flt := rfl
@[simp] theorem State.updReq_bg (s : State) (rid : Nat) (f : Req → Req) : (s.updReq rid f).bg = s.bg := rfl
@[simp] theorem State.updReq_rng (s : State) (rid : Nat) (f : Req → Req) : (s.updReq rid f).rng = s.rng := rfl
@[simp] theorem State.updReq_pm (s : State) (rid : Nat) (f : Req → Req) : (s.updReq rid f).pm = s.pm := rfl
@[simp] theorem State.updReq_irq (s : State) (rid : Nat) (f : Req → Req) : (s.updReq rid f).irq = s.irq := rfl
@[simp] theorem State.updReq_retained (s : State) (rid : Nat) (f : Req → Req) : (s.updReq rid f).retained = s.retained := rfl
@[simp] theorem State.updReq_sheds (s : State) (rid : Nat) (f : Req → Req) : (s.updReq rid f).sheds = s.sheds := rfl
@[simp] theorem State.updReq_free (s : State) (rid : Nat) (f : Req → Req) : (s.updReq rid f).free = s.free := rfl
@[simp] theorem State.updReq_nextId (s : State) (rid : Nat) (f : Req → Req) : (s.updReq rid f).nextId = s.nextId := rfl
@[simp] theorem State.updReq_now (s : State) (rid : Nat) (f : Req → Req) : (s.updReq rid f).now = s.now := rfl
@[simp] theorem State.updReq_pending (s : State) (rid : Nat) (f : Req → Req) : (s.updReq rid f).pending = s.pending := rfl

/-! #### State.setPhase -/

@[simp] theorem State.setPhase_pins (s : State) (rid : Nat) (ph : ReqPhase) : (s.setPhase rid ph).pins = s.pins := rfl
@[simp] theorem State.setPhase_jtag (s : State) (rid : Nat) (ph : ReqPhase) : (s.setPhase rid ph).jtag = s.jtag := rfl
@[simp] theorem State.setPhase_port (s : State) (rid : Nat) (ph : ReqPhase) : (s.setPhase rid ph).port = s.port := rfl
@[simp] theorem State.setPhase_mode (s : State) (rid : Nat) (ph : ReqPhase) : (s.setPhase rid ph).mode = s.mode := rfl
@[simp] theorem State.setPhase_regsAon (s : State) (rid : Nat) (ph : ReqPhase) : (s.setPhase rid ph).regsAon = s.regsAon := rfl
@[simp] theorem State.setPhase_regsBlk (s : State) (rid : Nat) (ph : ReqPhase) : (s.setPhase rid ph).regsBlk = s.regsBlk := rfl
@[simp] theorem State.setPhase_time (s : State) (rid : Nat) (ph : ReqPhase) : (s.setPhase rid ph).time = s.time := rfl
@[simp] theorem State.setPhase_gov (s : State) (rid : Nat) (ph : ReqPhase) : (s.setPhase rid ph).gov = s.gov := rfl
@[simp] theorem State.setPhase_fab (s : State) (rid : Nat) (ph : ReqPhase) : (s.setPhase rid ph).fab = s.fab := rfl
@[simp] theorem State.setPhase_units (s : State) (rid : Nat) (ph : ReqPhase) : (s.setPhase rid ph).units = s.units := rfl
@[simp] theorem State.setPhase_parts (s : State) (rid : Nat) (ph : ReqPhase) : (s.setPhase rid ph).parts = s.parts := rfl
@[simp] theorem State.setPhase_reqs (s : State) (rid : Nat) (ph : ReqPhase) :
    (s.setPhase rid ph).reqs = Store.upd s.reqs rid (fun r => { r with phase := ph }) := rfl
@[simp] theorem State.setPhase_hw (s : State) (rid : Nat) (ph : ReqPhase) : (s.setPhase rid ph).hw = s.hw := rfl
@[simp] theorem State.setPhase_ledger (s : State) (rid : Nat) (ph : ReqPhase) : (s.setPhase rid ph).ledger = s.ledger := rfl
@[simp] theorem State.setPhase_persist (s : State) (rid : Nat) (ph : ReqPhase) : (s.setPhase rid ph).persist = s.persist := rfl
@[simp] theorem State.setPhase_seals (s : State) (rid : Nat) (ph : ReqPhase) : (s.setPhase rid ph).seals = s.seals := rfl
@[simp] theorem State.setPhase_pair (s : State) (rid : Nat) (ph : ReqPhase) : (s.setPhase rid ph).pair = s.pair := rfl
@[simp] theorem State.setPhase_mbx (s : State) (rid : Nat) (ph : ReqPhase) : (s.setPhase rid ph).mbx = s.mbx := rfl
@[simp] theorem State.setPhase_flt (s : State) (rid : Nat) (ph : ReqPhase) : (s.setPhase rid ph).flt = s.flt := rfl
@[simp] theorem State.setPhase_bg (s : State) (rid : Nat) (ph : ReqPhase) : (s.setPhase rid ph).bg = s.bg := rfl
@[simp] theorem State.setPhase_rng (s : State) (rid : Nat) (ph : ReqPhase) : (s.setPhase rid ph).rng = s.rng := rfl
@[simp] theorem State.setPhase_pm (s : State) (rid : Nat) (ph : ReqPhase) : (s.setPhase rid ph).pm = s.pm := rfl
@[simp] theorem State.setPhase_irq (s : State) (rid : Nat) (ph : ReqPhase) : (s.setPhase rid ph).irq = s.irq := rfl
@[simp] theorem State.setPhase_retained (s : State) (rid : Nat) (ph : ReqPhase) : (s.setPhase rid ph).retained = s.retained := rfl
@[simp] theorem State.setPhase_sheds (s : State) (rid : Nat) (ph : ReqPhase) : (s.setPhase rid ph).sheds = s.sheds := rfl
@[simp] theorem State.setPhase_free (s : State) (rid : Nat) (ph : ReqPhase) : (s.setPhase rid ph).free = s.free := rfl
@[simp] theorem State.setPhase_nextId (s : State) (rid : Nat) (ph : ReqPhase) : (s.setPhase rid ph).nextId = s.nextId := rfl
@[simp] theorem State.setPhase_now (s : State) (rid : Nat) (ph : ReqPhase) : (s.setPhase rid ph).now = s.now := rfl
@[simp] theorem State.setPhase_pending (s : State) (rid : Nat) (ph : ReqPhase) : (s.setPhase rid ph).pending = s.pending := rfl

/-! #### State.updQueue -/

@[simp] theorem State.updQueue_pins (s : State) (p q : Nat) (f : Queue → Queue) : (s.updQueue p q f).pins = s.pins := rfl
@[simp] theorem State.updQueue_jtag (s : State) (p q : Nat) (f : Queue → Queue) : (s.updQueue p q f).jtag = s.jtag := rfl
@[simp] theorem State.updQueue_port (s : State) (p q : Nat) (f : Queue → Queue) : (s.updQueue p q f).port = s.port := rfl
@[simp] theorem State.updQueue_mode (s : State) (p q : Nat) (f : Queue → Queue) : (s.updQueue p q f).mode = s.mode := rfl
@[simp] theorem State.updQueue_regsAon (s : State) (p q : Nat) (f : Queue → Queue) : (s.updQueue p q f).regsAon = s.regsAon := rfl
@[simp] theorem State.updQueue_regsBlk (s : State) (p q : Nat) (f : Queue → Queue) : (s.updQueue p q f).regsBlk = s.regsBlk := rfl
@[simp] theorem State.updQueue_time (s : State) (p q : Nat) (f : Queue → Queue) : (s.updQueue p q f).time = s.time := rfl
@[simp] theorem State.updQueue_gov (s : State) (p q : Nat) (f : Queue → Queue) : (s.updQueue p q f).gov = s.gov := rfl
@[simp] theorem State.updQueue_fab (s : State) (p q : Nat) (f : Queue → Queue) : (s.updQueue p q f).fab = s.fab := rfl
@[simp] theorem State.updQueue_units (s : State) (p q : Nat) (f : Queue → Queue) : (s.updQueue p q f).units = s.units := rfl
@[simp] theorem State.updQueue_reqs (s : State) (p q : Nat) (f : Queue → Queue) : (s.updQueue p q f).reqs = s.reqs := rfl
@[simp] theorem State.updQueue_hw (s : State) (p q : Nat) (f : Queue → Queue) : (s.updQueue p q f).hw = s.hw := rfl
@[simp] theorem State.updQueue_ledger (s : State) (p q : Nat) (f : Queue → Queue) : (s.updQueue p q f).ledger = s.ledger := rfl
@[simp] theorem State.updQueue_persist (s : State) (p q : Nat) (f : Queue → Queue) : (s.updQueue p q f).persist = s.persist := rfl
@[simp] theorem State.updQueue_seals (s : State) (p q : Nat) (f : Queue → Queue) : (s.updQueue p q f).seals = s.seals := rfl
@[simp] theorem State.updQueue_pair (s : State) (p q : Nat) (f : Queue → Queue) : (s.updQueue p q f).pair = s.pair := rfl
@[simp] theorem State.updQueue_mbx (s : State) (p q : Nat) (f : Queue → Queue) : (s.updQueue p q f).mbx = s.mbx := rfl
@[simp] theorem State.updQueue_flt (s : State) (p q : Nat) (f : Queue → Queue) : (s.updQueue p q f).flt = s.flt := rfl
@[simp] theorem State.updQueue_bg (s : State) (p q : Nat) (f : Queue → Queue) : (s.updQueue p q f).bg = s.bg := rfl
@[simp] theorem State.updQueue_rng (s : State) (p q : Nat) (f : Queue → Queue) : (s.updQueue p q f).rng = s.rng := rfl
@[simp] theorem State.updQueue_pm (s : State) (p q : Nat) (f : Queue → Queue) : (s.updQueue p q f).pm = s.pm := rfl
@[simp] theorem State.updQueue_irq (s : State) (p q : Nat) (f : Queue → Queue) : (s.updQueue p q f).irq = s.irq := rfl
@[simp] theorem State.updQueue_retained (s : State) (p q : Nat) (f : Queue → Queue) : (s.updQueue p q f).retained = s.retained := rfl
@[simp] theorem State.updQueue_sheds (s : State) (p q : Nat) (f : Queue → Queue) : (s.updQueue p q f).sheds = s.sheds := rfl
@[simp] theorem State.updQueue_free (s : State) (p q : Nat) (f : Queue → Queue) : (s.updQueue p q f).free = s.free := rfl
@[simp] theorem State.updQueue_nextId (s : State) (p q : Nat) (f : Queue → Queue) : (s.updQueue p q f).nextId = s.nextId := rfl
@[simp] theorem State.updQueue_now (s : State) (p q : Nat) (f : Queue → Queue) : (s.updQueue p q f).now = s.now := rfl
@[simp] theorem State.updQueue_pending (s : State) (p q : Nat) (f : Queue → Queue) : (s.updQueue p q f).pending = s.pending := rfl

/-! #### State.wrote -/

@[simp] theorem State.wrote_pins (s : State) (err : Bool) : (s.wrote err).pins = s.pins := rfl
@[simp] theorem State.wrote_jtag (s : State) (err : Bool) : (s.wrote err).jtag = s.jtag := rfl
@[simp] theorem State.wrote_port (s : State) (err : Bool) : (s.wrote err).port = ⟨0, err⟩ := rfl
@[simp] theorem State.wrote_mode (s : State) (err : Bool) : (s.wrote err).mode = s.mode := rfl
@[simp] theorem State.wrote_regsAon (s : State) (err : Bool) : (s.wrote err).regsAon = s.regsAon := rfl
@[simp] theorem State.wrote_regsBlk (s : State) (err : Bool) : (s.wrote err).regsBlk = s.regsBlk := rfl
@[simp] theorem State.wrote_time (s : State) (err : Bool) : (s.wrote err).time = s.time := rfl
@[simp] theorem State.wrote_gov (s : State) (err : Bool) : (s.wrote err).gov = s.gov := rfl
@[simp] theorem State.wrote_fab (s : State) (err : Bool) : (s.wrote err).fab = s.fab := rfl
@[simp] theorem State.wrote_units (s : State) (err : Bool) : (s.wrote err).units = s.units := rfl
@[simp] theorem State.wrote_parts (s : State) (err : Bool) : (s.wrote err).parts = s.parts := rfl
@[simp] theorem State.wrote_reqs (s : State) (err : Bool) : (s.wrote err).reqs = s.reqs := rfl
@[simp] theorem State.wrote_hw (s : State) (err : Bool) : (s.wrote err).hw = s.hw := rfl
@[simp] theorem State.wrote_ledger (s : State) (err : Bool) : (s.wrote err).ledger = s.ledger := rfl
@[simp] theorem State.wrote_persist (s : State) (err : Bool) : (s.wrote err).persist = s.persist := rfl
@[simp] theorem State.wrote_seals (s : State) (err : Bool) : (s.wrote err).seals = s.seals := rfl
@[simp] theorem State.wrote_pair (s : State) (err : Bool) : (s.wrote err).pair = s.pair := rfl
@[simp] theorem State.wrote_mbx (s : State) (err : Bool) : (s.wrote err).mbx = s.mbx := rfl
@[simp] theorem State.wrote_flt (s : State) (err : Bool) : (s.wrote err).flt = s.flt := rfl
@[simp] theorem State.wrote_bg (s : State) (err : Bool) : (s.wrote err).bg = s.bg := rfl
@[simp] theorem State.wrote_rng (s : State) (err : Bool) : (s.wrote err).rng = s.rng := rfl
@[simp] theorem State.wrote_pm (s : State) (err : Bool) : (s.wrote err).pm = s.pm := rfl
@[simp] theorem State.wrote_irq (s : State) (err : Bool) : (s.wrote err).irq = s.irq := rfl
@[simp] theorem State.wrote_retained (s : State) (err : Bool) : (s.wrote err).retained = s.retained := rfl
@[simp] theorem State.wrote_sheds (s : State) (err : Bool) : (s.wrote err).sheds = s.sheds := rfl
@[simp] theorem State.wrote_free (s : State) (err : Bool) : (s.wrote err).free = s.free := rfl
@[simp] theorem State.wrote_nextId (s : State) (err : Bool) : (s.wrote err).nextId = s.nextId := rfl
@[simp] theorem State.wrote_now (s : State) (err : Bool) : (s.wrote err).now = s.now := rfl
@[simp] theorem State.wrote_pending (s : State) (err : Bool) : (s.wrote err).pending = s.pending := rfl

/-! #### State.readOut -/

@[simp] theorem State.readOut_pins (s : State) (v : Nat) (err : Bool) : (s.readOut v err).pins = s.pins := rfl
@[simp] theorem State.readOut_jtag (s : State) (v : Nat) (err : Bool) : (s.readOut v err).jtag = s.jtag := rfl
@[simp] theorem State.readOut_port (s : State) (v : Nat) (err : Bool) : (s.readOut v err).port = ⟨wordOf v, err⟩ := rfl
@[simp] theorem State.readOut_mode (s : State) (v : Nat) (err : Bool) : (s.readOut v err).mode = s.mode := rfl
@[simp] theorem State.readOut_regsAon (s : State) (v : Nat) (err : Bool) : (s.readOut v err).regsAon = s.regsAon := rfl
@[simp] theorem State.readOut_regsBlk (s : State) (v : Nat) (err : Bool) : (s.readOut v err).regsBlk = s.regsBlk := rfl
@[simp] theorem State.readOut_time (s : State) (v : Nat) (err : Bool) : (s.readOut v err).time = s.time := rfl
@[simp] theorem State.readOut_gov (s : State) (v : Nat) (err : Bool) : (s.readOut v err).gov = s.gov := rfl
@[simp] theorem State.readOut_fab (s : State) (v : Nat) (err : Bool) : (s.readOut v err).fab = s.fab := rfl
@[simp] theorem State.readOut_units (s : State) (v : Nat) (err : Bool) : (s.readOut v err).units = s.units := rfl
@[simp] theorem State.readOut_parts (s : State) (v : Nat) (err : Bool) : (s.readOut v err).parts = s.parts := rfl
@[simp] theorem State.readOut_reqs (s : State) (v : Nat) (err : Bool) : (s.readOut v err).reqs = s.reqs := rfl
@[simp] theorem State.readOut_hw (s : State) (v : Nat) (err : Bool) : (s.readOut v err).hw = s.hw := rfl
@[simp] theorem State.readOut_ledger (s : State) (v : Nat) (err : Bool) : (s.readOut v err).ledger = s.ledger := rfl
@[simp] theorem State.readOut_persist (s : State) (v : Nat) (err : Bool) : (s.readOut v err).persist = s.persist := rfl
@[simp] theorem State.readOut_seals (s : State) (v : Nat) (err : Bool) : (s.readOut v err).seals = s.seals := rfl
@[simp] theorem State.readOut_pair (s : State) (v : Nat) (err : Bool) : (s.readOut v err).pair = s.pair := rfl
@[simp] theorem State.readOut_mbx (s : State) (v : Nat) (err : Bool) : (s.readOut v err).mbx = s.mbx := rfl
@[simp] theorem State.readOut_flt (s : State) (v : Nat) (err : Bool) : (s.readOut v err).flt = s.flt := rfl
@[simp] theorem State.readOut_bg (s : State) (v : Nat) (err : Bool) : (s.readOut v err).bg = s.bg := rfl
@[simp] theorem State.readOut_rng (s : State) (v : Nat) (err : Bool) : (s.readOut v err).rng = s.rng := rfl
@[simp] theorem State.readOut_pm (s : State) (v : Nat) (err : Bool) : (s.readOut v err).pm = s.pm := rfl
@[simp] theorem State.readOut_irq (s : State) (v : Nat) (err : Bool) : (s.readOut v err).irq = s.irq := rfl
@[simp] theorem State.readOut_retained (s : State) (v : Nat) (err : Bool) : (s.readOut v err).retained = s.retained := rfl
@[simp] theorem State.readOut_sheds (s : State) (v : Nat) (err : Bool) : (s.readOut v err).sheds = s.sheds := rfl
@[simp] theorem State.readOut_free (s : State) (v : Nat) (err : Bool) : (s.readOut v err).free = s.free := rfl
@[simp] theorem State.readOut_nextId (s : State) (v : Nat) (err : Bool) : (s.readOut v err).nextId = s.nextId := rfl
@[simp] theorem State.readOut_now (s : State) (v : Nat) (err : Bool) : (s.readOut v err).now = s.now := rfl
@[simp] theorem State.readOut_pending (s : State) (v : Nat) (err : Bool) : (s.readOut v err).pending = s.pending := rfl

/-! #### State.setAon -/

@[simp] theorem State.setAon_pins (s : State) (off : Nat) (w : Word) : (s.setAon off w).pins = s.pins := rfl
@[simp] theorem State.setAon_jtag (s : State) (off : Nat) (w : Word) : (s.setAon off w).jtag = s.jtag := rfl
@[simp] theorem State.setAon_port (s : State) (off : Nat) (w : Word) : (s.setAon off w).port = s.port := rfl
@[simp] theorem State.setAon_mode (s : State) (off : Nat) (w : Word) : (s.setAon off w).mode = s.mode := rfl
@[simp] theorem State.setAon_regsBlk (s : State) (off : Nat) (w : Word) : (s.setAon off w).regsBlk = s.regsBlk := rfl
@[simp] theorem State.setAon_time (s : State) (off : Nat) (w : Word) : (s.setAon off w).time = s.time := rfl
@[simp] theorem State.setAon_gov (s : State) (off : Nat) (w : Word) : (s.setAon off w).gov = s.gov := rfl
@[simp] theorem State.setAon_fab (s : State) (off : Nat) (w : Word) : (s.setAon off w).fab = s.fab := rfl
@[simp] theorem State.setAon_units (s : State) (off : Nat) (w : Word) : (s.setAon off w).units = s.units := rfl
@[simp] theorem State.setAon_parts (s : State) (off : Nat) (w : Word) : (s.setAon off w).parts = s.parts := rfl
@[simp] theorem State.setAon_reqs (s : State) (off : Nat) (w : Word) : (s.setAon off w).reqs = s.reqs := rfl
@[simp] theorem State.setAon_hw (s : State) (off : Nat) (w : Word) : (s.setAon off w).hw = s.hw := rfl
@[simp] theorem State.setAon_ledger (s : State) (off : Nat) (w : Word) : (s.setAon off w).ledger = s.ledger := rfl
@[simp] theorem State.setAon_persist (s : State) (off : Nat) (w : Word) : (s.setAon off w).persist = s.persist := rfl
@[simp] theorem State.setAon_seals (s : State) (off : Nat) (w : Word) : (s.setAon off w).seals = s.seals := rfl
@[simp] theorem State.setAon_pair (s : State) (off : Nat) (w : Word) : (s.setAon off w).pair = s.pair := rfl
@[simp] theorem State.setAon_mbx (s : State) (off : Nat) (w : Word) : (s.setAon off w).mbx = s.mbx := rfl
@[simp] theorem State.setAon_flt (s : State) (off : Nat) (w : Word) : (s.setAon off w).flt = s.flt := rfl
@[simp] theorem State.setAon_bg (s : State) (off : Nat) (w : Word) : (s.setAon off w).bg = s.bg := rfl
@[simp] theorem State.setAon_rng (s : State) (off : Nat) (w : Word) : (s.setAon off w).rng = s.rng := rfl
@[simp] theorem State.setAon_pm (s : State) (off : Nat) (w : Word) : (s.setAon off w).pm = s.pm := rfl
@[simp] theorem State.setAon_irq (s : State) (off : Nat) (w : Word) : (s.setAon off w).irq = s.irq := rfl
@[simp] theorem State.setAon_retained (s : State) (off : Nat) (w : Word) : (s.setAon off w).retained = s.retained := rfl
@[simp] theorem State.setAon_sheds (s : State) (off : Nat) (w : Word) : (s.setAon off w).sheds = s.sheds := rfl
@[simp] theorem State.setAon_free (s : State) (off : Nat) (w : Word) : (s.setAon off w).free = s.free := rfl
@[simp] theorem State.setAon_nextId (s : State) (off : Nat) (w : Word) : (s.setAon off w).nextId = s.nextId := rfl
@[simp] theorem State.setAon_now (s : State) (off : Nat) (w : Word) : (s.setAon off w).now = s.now := rfl
@[simp] theorem State.setAon_pending (s : State) (off : Nat) (w : Word) : (s.setAon off w).pending = s.pending := rfl

/-! #### State.setBlk -/

@[simp] theorem State.setBlk_pins (s : State) (off : Nat) (w : Word) : (s.setBlk off w).pins = s.pins := rfl
@[simp] theorem State.setBlk_jtag (s : State) (off : Nat) (w : Word) : (s.setBlk off w).jtag = s.jtag := rfl
@[simp] theorem State.setBlk_port (s : State) (off : Nat) (w : Word) : (s.setBlk off w).port = s.port := rfl
@[simp] theorem State.setBlk_mode (s : State) (off : Nat) (w : Word) : (s.setBlk off w).mode = s.mode := rfl
@[simp] theorem State.setBlk_regsAon (s : State) (off : Nat) (w : Word) : (s.setBlk off w).regsAon = s.regsAon := rfl
@[simp] theorem State.setBlk_time (s : State) (off : Nat) (w : Word) : (s.setBlk off w).time = s.time := rfl
@[simp] theorem State.setBlk_gov (s : State) (off : Nat) (w : Word) : (s.setBlk off w).gov = s.gov := rfl
@[simp] theorem State.setBlk_fab (s : State) (off : Nat) (w : Word) : (s.setBlk off w).fab = s.fab := rfl
@[simp] theorem State.setBlk_units (s : State) (off : Nat) (w : Word) : (s.setBlk off w).units = s.units := rfl
@[simp] theorem State.setBlk_parts (s : State) (off : Nat) (w : Word) : (s.setBlk off w).parts = s.parts := rfl
@[simp] theorem State.setBlk_reqs (s : State) (off : Nat) (w : Word) : (s.setBlk off w).reqs = s.reqs := rfl
@[simp] theorem State.setBlk_hw (s : State) (off : Nat) (w : Word) : (s.setBlk off w).hw = s.hw := rfl
@[simp] theorem State.setBlk_ledger (s : State) (off : Nat) (w : Word) : (s.setBlk off w).ledger = s.ledger := rfl
@[simp] theorem State.setBlk_persist (s : State) (off : Nat) (w : Word) : (s.setBlk off w).persist = s.persist := rfl
@[simp] theorem State.setBlk_seals (s : State) (off : Nat) (w : Word) : (s.setBlk off w).seals = s.seals := rfl
@[simp] theorem State.setBlk_pair (s : State) (off : Nat) (w : Word) : (s.setBlk off w).pair = s.pair := rfl
@[simp] theorem State.setBlk_mbx (s : State) (off : Nat) (w : Word) : (s.setBlk off w).mbx = s.mbx := rfl
@[simp] theorem State.setBlk_flt (s : State) (off : Nat) (w : Word) : (s.setBlk off w).flt = s.flt := rfl
@[simp] theorem State.setBlk_bg (s : State) (off : Nat) (w : Word) : (s.setBlk off w).bg = s.bg := rfl
@[simp] theorem State.setBlk_rng (s : State) (off : Nat) (w : Word) : (s.setBlk off w).rng = s.rng := rfl
@[simp] theorem State.setBlk_pm (s : State) (off : Nat) (w : Word) : (s.setBlk off w).pm = s.pm := rfl
@[simp] theorem State.setBlk_irq (s : State) (off : Nat) (w : Word) : (s.setBlk off w).irq = s.irq := rfl
@[simp] theorem State.setBlk_retained (s : State) (off : Nat) (w : Word) : (s.setBlk off w).retained = s.retained := rfl
@[simp] theorem State.setBlk_sheds (s : State) (off : Nat) (w : Word) : (s.setBlk off w).sheds = s.sheds := rfl
@[simp] theorem State.setBlk_free (s : State) (off : Nat) (w : Word) : (s.setBlk off w).free = s.free := rfl
@[simp] theorem State.setBlk_nextId (s : State) (off : Nat) (w : Word) : (s.setBlk off w).nextId = s.nextId := rfl
@[simp] theorem State.setBlk_now (s : State) (off : Nat) (w : Word) : (s.setBlk off w).now = s.now := rfl
@[simp] theorem State.setBlk_pending (s : State) (off : Nat) (w : Word) : (s.setBlk off w).pending = s.pending := rfl

/-! #### State.setTxn -/

@[simp] theorem State.setTxn_pins (s : State) (port : Nat) (w : Bool) (tag : Nat) (f : Txn → Option Txn) :
    (s.setTxn port w tag f).pins = s.pins := rfl
@[simp] theorem State.setTxn_jtag (s : State) (port : Nat) (w : Bool) (tag : Nat) (f : Txn → Option Txn) :
    (s.setTxn port w tag f).jtag = s.jtag := rfl
@[simp] theorem State.setTxn_port (s : State) (port : Nat) (w : Bool) (tag : Nat) (f : Txn → Option Txn) :
    (s.setTxn port w tag f).port = s.port := rfl
@[simp] theorem State.setTxn_mode (s : State) (port : Nat) (w : Bool) (tag : Nat) (f : Txn → Option Txn) :
    (s.setTxn port w tag f).mode = s.mode := rfl
@[simp] theorem State.setTxn_regsAon (s : State) (port : Nat) (w : Bool) (tag : Nat) (f : Txn → Option Txn) :
    (s.setTxn port w tag f).regsAon = s.regsAon := rfl
@[simp] theorem State.setTxn_regsBlk (s : State) (port : Nat) (w : Bool) (tag : Nat) (f : Txn → Option Txn) :
    (s.setTxn port w tag f).regsBlk = s.regsBlk := rfl
@[simp] theorem State.setTxn_time (s : State) (port : Nat) (w : Bool) (tag : Nat) (f : Txn → Option Txn) :
    (s.setTxn port w tag f).time = s.time := rfl
@[simp] theorem State.setTxn_gov (s : State) (port : Nat) (w : Bool) (tag : Nat) (f : Txn → Option Txn) : (s.setTxn port w tag f).gov = s.gov := rfl
@[simp] theorem State.setTxn_units (s : State) (port : Nat) (w : Bool) (tag : Nat) (f : Txn → Option Txn) :
    (s.setTxn port w tag f).units = s.units := rfl
@[simp] theorem State.setTxn_parts (s : State) (port : Nat) (w : Bool) (tag : Nat) (f : Txn → Option Txn) :
    (s.setTxn port w tag f).parts = s.parts := rfl
@[simp] theorem State.setTxn_reqs (s : State) (port : Nat) (w : Bool) (tag : Nat) (f : Txn → Option Txn) :
    (s.setTxn port w tag f).reqs = s.reqs := rfl
@[simp] theorem State.setTxn_hw (s : State) (port : Nat) (w : Bool) (tag : Nat) (f : Txn → Option Txn) : (s.setTxn port w tag f).hw = s.hw := rfl
@[simp] theorem State.setTxn_ledger (s : State) (port : Nat) (w : Bool) (tag : Nat) (f : Txn → Option Txn) :
    (s.setTxn port w tag f).ledger = s.ledger := rfl
@[simp] theorem State.setTxn_persist (s : State) (port : Nat) (w : Bool) (tag : Nat) (f : Txn → Option Txn) :
    (s.setTxn port w tag f).persist = s.persist := rfl
@[simp] theorem State.setTxn_seals (s : State) (port : Nat) (w : Bool) (tag : Nat) (f : Txn → Option Txn) :
    (s.setTxn port w tag f).seals = s.seals := rfl
@[simp] theorem State.setTxn_pair (s : State) (port : Nat) (w : Bool) (tag : Nat) (f : Txn → Option Txn) :
    (s.setTxn port w tag f).pair = s.pair := rfl
@[simp] theorem State.setTxn_mbx (s : State) (port : Nat) (w : Bool) (tag : Nat) (f : Txn → Option Txn) : (s.setTxn port w tag f).mbx = s.mbx := rfl
@[simp] theorem State.setTxn_flt (s : State) (port : Nat) (w : Bool) (tag : Nat) (f : Txn → Option Txn) : (s.setTxn port w tag f).flt = s.flt := rfl
@[simp] theorem State.setTxn_bg (s : State) (port : Nat) (w : Bool) (tag : Nat) (f : Txn → Option Txn) : (s.setTxn port w tag f).bg = s.bg := rfl
@[simp] theorem State.setTxn_rng (s : State) (port : Nat) (w : Bool) (tag : Nat) (f : Txn → Option Txn) : (s.setTxn port w tag f).rng = s.rng := rfl
@[simp] theorem State.setTxn_pm (s : State) (port : Nat) (w : Bool) (tag : Nat) (f : Txn → Option Txn) : (s.setTxn port w tag f).pm = s.pm := rfl
@[simp] theorem State.setTxn_irq (s : State) (port : Nat) (w : Bool) (tag : Nat) (f : Txn → Option Txn) : (s.setTxn port w tag f).irq = s.irq := rfl
@[simp] theorem State.setTxn_retained (s : State) (port : Nat) (w : Bool) (tag : Nat) (f : Txn → Option Txn) :
    (s.setTxn port w tag f).retained = s.retained := rfl
@[simp] theorem State.setTxn_sheds (s : State) (port : Nat) (w : Bool) (tag : Nat) (f : Txn → Option Txn) :
    (s.setTxn port w tag f).sheds = s.sheds := rfl
@[simp] theorem State.setTxn_free (s : State) (port : Nat) (w : Bool) (tag : Nat) (f : Txn → Option Txn) :
    (s.setTxn port w tag f).free = s.free := rfl
@[simp] theorem State.setTxn_nextId (s : State) (port : Nat) (w : Bool) (tag : Nat) (f : Txn → Option Txn) :
    (s.setTxn port w tag f).nextId = s.nextId := rfl
@[simp] theorem State.setTxn_now (s : State) (port : Nat) (w : Bool) (tag : Nat) (f : Txn → Option Txn) : (s.setTxn port w tag f).now = s.now := rfl
@[simp] theorem State.setTxn_pending (s : State) (port : Nat) (w : Bool) (tag : Nat) (f : Txn → Option Txn) :
    (s.setTxn port w tag f).pending = s.pending := rfl

/-! #### State.updStream -/

@[simp] theorem State.updStream_pins (s : State) (k : Nat) (f : Stream → Stream) : (s.updStream k f).pins = s.pins := rfl
@[simp] theorem State.updStream_jtag (s : State) (k : Nat) (f : Stream → Stream) : (s.updStream k f).jtag = s.jtag := rfl
@[simp] theorem State.updStream_port (s : State) (k : Nat) (f : Stream → Stream) : (s.updStream k f).port = s.port := rfl
@[simp] theorem State.updStream_mode (s : State) (k : Nat) (f : Stream → Stream) : (s.updStream k f).mode = s.mode := rfl
@[simp] theorem State.updStream_regsAon (s : State) (k : Nat) (f : Stream → Stream) : (s.updStream k f).regsAon = s.regsAon := rfl
@[simp] theorem State.updStream_regsBlk (s : State) (k : Nat) (f : Stream → Stream) : (s.updStream k f).regsBlk = s.regsBlk := rfl
@[simp] theorem State.updStream_time (s : State) (k : Nat) (f : Stream → Stream) : (s.updStream k f).time = s.time := rfl
@[simp] theorem State.updStream_gov (s : State) (k : Nat) (f : Stream → Stream) : (s.updStream k f).gov = s.gov := rfl
@[simp] theorem State.updStream_fab (s : State) (k : Nat) (f : Stream → Stream) : (s.updStream k f).fab = s.fab := rfl
@[simp] theorem State.updStream_units (s : State) (k : Nat) (f : Stream → Stream) : (s.updStream k f).units = s.units := rfl
@[simp] theorem State.updStream_parts (s : State) (k : Nat) (f : Stream → Stream) : (s.updStream k f).parts = s.parts := rfl
@[simp] theorem State.updStream_reqs (s : State) (k : Nat) (f : Stream → Stream) : (s.updStream k f).reqs = s.reqs := rfl
@[simp] theorem State.updStream_hw (s : State) (k : Nat) (f : Stream → Stream) : (s.updStream k f).hw = s.hw := rfl
@[simp] theorem State.updStream_ledger (s : State) (k : Nat) (f : Stream → Stream) : (s.updStream k f).ledger = s.ledger := rfl
@[simp] theorem State.updStream_persist (s : State) (k : Nat) (f : Stream → Stream) : (s.updStream k f).persist = s.persist := rfl
@[simp] theorem State.updStream_seals (s : State) (k : Nat) (f : Stream → Stream) :
    (s.updStream k f).seals = { s.seals with streams := Store.upd s.seals.streams k f } := rfl
@[simp] theorem State.updStream_pair (s : State) (k : Nat) (f : Stream → Stream) : (s.updStream k f).pair = s.pair := rfl
@[simp] theorem State.updStream_mbx (s : State) (k : Nat) (f : Stream → Stream) : (s.updStream k f).mbx = s.mbx := rfl
@[simp] theorem State.updStream_flt (s : State) (k : Nat) (f : Stream → Stream) : (s.updStream k f).flt = s.flt := rfl
@[simp] theorem State.updStream_bg (s : State) (k : Nat) (f : Stream → Stream) : (s.updStream k f).bg = s.bg := rfl
@[simp] theorem State.updStream_rng (s : State) (k : Nat) (f : Stream → Stream) : (s.updStream k f).rng = s.rng := rfl
@[simp] theorem State.updStream_pm (s : State) (k : Nat) (f : Stream → Stream) : (s.updStream k f).pm = s.pm := rfl
@[simp] theorem State.updStream_irq (s : State) (k : Nat) (f : Stream → Stream) : (s.updStream k f).irq = s.irq := rfl
@[simp] theorem State.updStream_retained (s : State) (k : Nat) (f : Stream → Stream) : (s.updStream k f).retained = s.retained := rfl
@[simp] theorem State.updStream_sheds (s : State) (k : Nat) (f : Stream → Stream) : (s.updStream k f).sheds = s.sheds := rfl
@[simp] theorem State.updStream_free (s : State) (k : Nat) (f : Stream → Stream) : (s.updStream k f).free = s.free := rfl
@[simp] theorem State.updStream_nextId (s : State) (k : Nat) (f : Stream → Stream) : (s.updStream k f).nextId = s.nextId := rfl
@[simp] theorem State.updStream_now (s : State) (k : Nat) (f : Stream → Stream) : (s.updStream k f).now = s.now := rfl
@[simp] theorem State.updStream_pending (s : State) (k : Nat) (f : Stream → Stream) : (s.updStream k f).pending = s.pending := rfl

/-! #### State.setOpen -/

@[simp] theorem State.setOpen_pins (s : State) (tap v : Nat) : (s.setOpen tap v).pins = s.pins := rfl
@[simp] theorem State.setOpen_jtag (s : State) (tap v : Nat) : (s.setOpen tap v).jtag = s.jtag := rfl
@[simp] theorem State.setOpen_port (s : State) (tap v : Nat) : (s.setOpen tap v).port = s.port := rfl
@[simp] theorem State.setOpen_mode (s : State) (tap v : Nat) : (s.setOpen tap v).mode = s.mode := rfl
@[simp] theorem State.setOpen_regsAon (s : State) (tap v : Nat) : (s.setOpen tap v).regsAon = s.regsAon := rfl
@[simp] theorem State.setOpen_regsBlk (s : State) (tap v : Nat) : (s.setOpen tap v).regsBlk = s.regsBlk := rfl
@[simp] theorem State.setOpen_time (s : State) (tap v : Nat) : (s.setOpen tap v).time = s.time := rfl
@[simp] theorem State.setOpen_gov (s : State) (tap v : Nat) : (s.setOpen tap v).gov = s.gov := rfl
@[simp] theorem State.setOpen_fab (s : State) (tap v : Nat) : (s.setOpen tap v).fab = s.fab := rfl
@[simp] theorem State.setOpen_units (s : State) (tap v : Nat) : (s.setOpen tap v).units = s.units := rfl
@[simp] theorem State.setOpen_parts (s : State) (tap v : Nat) : (s.setOpen tap v).parts = s.parts := rfl
@[simp] theorem State.setOpen_reqs (s : State) (tap v : Nat) : (s.setOpen tap v).reqs = s.reqs := rfl
@[simp] theorem State.setOpen_hw (s : State) (tap v : Nat) : (s.setOpen tap v).hw = s.hw := rfl
@[simp] theorem State.setOpen_ledger (s : State) (tap v : Nat) : (s.setOpen tap v).ledger = s.ledger := rfl
@[simp] theorem State.setOpen_persist (s : State) (tap v : Nat) : (s.setOpen tap v).persist = s.persist := rfl
@[simp] theorem State.setOpen_pair (s : State) (tap v : Nat) : (s.setOpen tap v).pair = s.pair := rfl
@[simp] theorem State.setOpen_mbx (s : State) (tap v : Nat) : (s.setOpen tap v).mbx = s.mbx := rfl
@[simp] theorem State.setOpen_flt (s : State) (tap v : Nat) : (s.setOpen tap v).flt = s.flt := rfl
@[simp] theorem State.setOpen_bg (s : State) (tap v : Nat) : (s.setOpen tap v).bg = s.bg := rfl
@[simp] theorem State.setOpen_rng (s : State) (tap v : Nat) : (s.setOpen tap v).rng = s.rng := rfl
@[simp] theorem State.setOpen_pm (s : State) (tap v : Nat) : (s.setOpen tap v).pm = s.pm := rfl
@[simp] theorem State.setOpen_irq (s : State) (tap v : Nat) : (s.setOpen tap v).irq = s.irq := rfl
@[simp] theorem State.setOpen_retained (s : State) (tap v : Nat) : (s.setOpen tap v).retained = s.retained := rfl
@[simp] theorem State.setOpen_sheds (s : State) (tap v : Nat) : (s.setOpen tap v).sheds = s.sheds := rfl
@[simp] theorem State.setOpen_free (s : State) (tap v : Nat) : (s.setOpen tap v).free = s.free := rfl
@[simp] theorem State.setOpen_nextId (s : State) (tap v : Nat) : (s.setOpen tap v).nextId = s.nextId := rfl
@[simp] theorem State.setOpen_now (s : State) (tap v : Nat) : (s.setOpen tap v).now = s.now := rfl
@[simp] theorem State.setOpen_pending (s : State) (tap v : Nat) : (s.setOpen tap v).pending = s.pending := rfl

/-! #### State.noOpen -/

@[simp] theorem State.noOpen_pins (s : State) (tap : Nat) : (s.noOpen tap).pins = s.pins := rfl
@[simp] theorem State.noOpen_jtag (s : State) (tap : Nat) : (s.noOpen tap).jtag = s.jtag := rfl
@[simp] theorem State.noOpen_port (s : State) (tap : Nat) : (s.noOpen tap).port = s.port := rfl
@[simp] theorem State.noOpen_mode (s : State) (tap : Nat) : (s.noOpen tap).mode = s.mode := rfl
@[simp] theorem State.noOpen_regsAon (s : State) (tap : Nat) : (s.noOpen tap).regsAon = s.regsAon := rfl
@[simp] theorem State.noOpen_regsBlk (s : State) (tap : Nat) : (s.noOpen tap).regsBlk = s.regsBlk := rfl
@[simp] theorem State.noOpen_time (s : State) (tap : Nat) : (s.noOpen tap).time = s.time := rfl
@[simp] theorem State.noOpen_gov (s : State) (tap : Nat) : (s.noOpen tap).gov = s.gov := rfl
@[simp] theorem State.noOpen_fab (s : State) (tap : Nat) : (s.noOpen tap).fab = s.fab := rfl
@[simp] theorem State.noOpen_units (s : State) (tap : Nat) : (s.noOpen tap).units = s.units := rfl
@[simp] theorem State.noOpen_parts (s : State) (tap : Nat) : (s.noOpen tap).parts = s.parts := rfl
@[simp] theorem State.noOpen_reqs (s : State) (tap : Nat) : (s.noOpen tap).reqs = s.reqs := rfl
@[simp] theorem State.noOpen_hw (s : State) (tap : Nat) : (s.noOpen tap).hw = s.hw := rfl
@[simp] theorem State.noOpen_ledger (s : State) (tap : Nat) : (s.noOpen tap).ledger = s.ledger := rfl
@[simp] theorem State.noOpen_persist (s : State) (tap : Nat) : (s.noOpen tap).persist = s.persist := rfl
@[simp] theorem State.noOpen_pair (s : State) (tap : Nat) : (s.noOpen tap).pair = s.pair := rfl
@[simp] theorem State.noOpen_mbx (s : State) (tap : Nat) : (s.noOpen tap).mbx = s.mbx := rfl
@[simp] theorem State.noOpen_flt (s : State) (tap : Nat) : (s.noOpen tap).flt = s.flt := rfl
@[simp] theorem State.noOpen_bg (s : State) (tap : Nat) : (s.noOpen tap).bg = s.bg := rfl
@[simp] theorem State.noOpen_rng (s : State) (tap : Nat) : (s.noOpen tap).rng = s.rng := rfl
@[simp] theorem State.noOpen_pm (s : State) (tap : Nat) : (s.noOpen tap).pm = s.pm := rfl
@[simp] theorem State.noOpen_irq (s : State) (tap : Nat) : (s.noOpen tap).irq = s.irq := rfl
@[simp] theorem State.noOpen_retained (s : State) (tap : Nat) : (s.noOpen tap).retained = s.retained := rfl
@[simp] theorem State.noOpen_sheds (s : State) (tap : Nat) : (s.noOpen tap).sheds = s.sheds := rfl
@[simp] theorem State.noOpen_free (s : State) (tap : Nat) : (s.noOpen tap).free = s.free := rfl
@[simp] theorem State.noOpen_nextId (s : State) (tap : Nat) : (s.noOpen tap).nextId = s.nextId := rfl
@[simp] theorem State.noOpen_now (s : State) (tap : Nat) : (s.noOpen tap).now = s.now := rfl
@[simp] theorem State.noOpen_pending (s : State) (tap : Nat) : (s.noOpen tap).pending = s.pending := rfl

/-! #### State.addGrant -/

@[simp] theorem State.addGrant_pins (s : State) (what : GrantFor) (us : List Nat) (part : Option Nat) (charge cls : Nat) :
    (s.addGrant what us part charge cls).pins = s.pins := rfl
@[simp] theorem State.addGrant_jtag (s : State) (what : GrantFor) (us : List Nat) (part : Option Nat) (charge cls : Nat) :
    (s.addGrant what us part charge cls).jtag = s.jtag := rfl
@[simp] theorem State.addGrant_port (s : State) (what : GrantFor) (us : List Nat) (part : Option Nat) (charge cls : Nat) :
    (s.addGrant what us part charge cls).port = s.port := rfl
@[simp] theorem State.addGrant_mode (s : State) (what : GrantFor) (us : List Nat) (part : Option Nat) (charge cls : Nat) :
    (s.addGrant what us part charge cls).mode = s.mode := rfl
@[simp] theorem State.addGrant_regsAon (s : State) (what : GrantFor) (us : List Nat) (part : Option Nat) (charge cls : Nat) :
    (s.addGrant what us part charge cls).regsAon = s.regsAon := rfl
@[simp] theorem State.addGrant_regsBlk (s : State) (what : GrantFor) (us : List Nat) (part : Option Nat) (charge cls : Nat) :
    (s.addGrant what us part charge cls).regsBlk = s.regsBlk := rfl
@[simp] theorem State.addGrant_time (s : State) (what : GrantFor) (us : List Nat) (part : Option Nat) (charge cls : Nat) :
    (s.addGrant what us part charge cls).time = s.time := rfl
@[simp] theorem State.addGrant_fab (s : State) (what : GrantFor) (us : List Nat) (part : Option Nat) (charge cls : Nat) :
    (s.addGrant what us part charge cls).fab = s.fab := rfl
@[simp] theorem State.addGrant_units (s : State) (what : GrantFor) (us : List Nat) (part : Option Nat) (charge cls : Nat) :
    (s.addGrant what us part charge cls).units = s.units := rfl
@[simp] theorem State.addGrant_parts (s : State) (what : GrantFor) (us : List Nat) (part : Option Nat) (charge cls : Nat) :
    (s.addGrant what us part charge cls).parts = s.parts := rfl
@[simp] theorem State.addGrant_reqs (s : State) (what : GrantFor) (us : List Nat) (part : Option Nat) (charge cls : Nat) :
    (s.addGrant what us part charge cls).reqs = s.reqs := rfl
@[simp] theorem State.addGrant_hw (s : State) (what : GrantFor) (us : List Nat) (part : Option Nat) (charge cls : Nat) :
    (s.addGrant what us part charge cls).hw = s.hw := rfl
@[simp] theorem State.addGrant_ledger (s : State) (what : GrantFor) (us : List Nat) (part : Option Nat) (charge cls : Nat) :
    (s.addGrant what us part charge cls).ledger = s.ledger := rfl
@[simp] theorem State.addGrant_persist (s : State) (what : GrantFor) (us : List Nat) (part : Option Nat) (charge cls : Nat) :
    (s.addGrant what us part charge cls).persist = s.persist := rfl
@[simp] theorem State.addGrant_seals (s : State) (what : GrantFor) (us : List Nat) (part : Option Nat) (charge cls : Nat) :
    (s.addGrant what us part charge cls).seals = s.seals := rfl
@[simp] theorem State.addGrant_pair (s : State) (what : GrantFor) (us : List Nat) (part : Option Nat) (charge cls : Nat) :
    (s.addGrant what us part charge cls).pair = s.pair := rfl
@[simp] theorem State.addGrant_mbx (s : State) (what : GrantFor) (us : List Nat) (part : Option Nat) (charge cls : Nat) :
    (s.addGrant what us part charge cls).mbx = s.mbx := rfl
@[simp] theorem State.addGrant_flt (s : State) (what : GrantFor) (us : List Nat) (part : Option Nat) (charge cls : Nat) :
    (s.addGrant what us part charge cls).flt = s.flt := rfl
@[simp] theorem State.addGrant_bg (s : State) (what : GrantFor) (us : List Nat) (part : Option Nat) (charge cls : Nat) :
    (s.addGrant what us part charge cls).bg = s.bg := rfl
@[simp] theorem State.addGrant_rng (s : State) (what : GrantFor) (us : List Nat) (part : Option Nat) (charge cls : Nat) :
    (s.addGrant what us part charge cls).rng = s.rng := rfl
@[simp] theorem State.addGrant_pm (s : State) (what : GrantFor) (us : List Nat) (part : Option Nat) (charge cls : Nat) :
    (s.addGrant what us part charge cls).pm = s.pm := rfl
@[simp] theorem State.addGrant_irq (s : State) (what : GrantFor) (us : List Nat) (part : Option Nat) (charge cls : Nat) :
    (s.addGrant what us part charge cls).irq = s.irq := rfl
@[simp] theorem State.addGrant_retained (s : State) (what : GrantFor) (us : List Nat) (part : Option Nat) (charge cls : Nat) :
    (s.addGrant what us part charge cls).retained = s.retained := rfl
@[simp] theorem State.addGrant_sheds (s : State) (what : GrantFor) (us : List Nat) (part : Option Nat) (charge cls : Nat) :
    (s.addGrant what us part charge cls).sheds = s.sheds := rfl
@[simp] theorem State.addGrant_free (s : State) (what : GrantFor) (us : List Nat) (part : Option Nat) (charge cls : Nat) :
    (s.addGrant what us part charge cls).free = s.free := rfl
@[simp] theorem State.addGrant_nextId (s : State) (what : GrantFor) (us : List Nat) (part : Option Nat) (charge cls : Nat) :
    (s.addGrant what us part charge cls).nextId = s.nextId + 1 := rfl
@[simp] theorem State.addGrant_now (s : State) (what : GrantFor) (us : List Nat) (part : Option Nat) (charge cls : Nat) :
    (s.addGrant what us part charge cls).now = s.now := rfl
@[simp] theorem State.addGrant_pending (s : State) (what : GrantFor) (us : List Nat) (part : Option Nat) (charge cls : Nat) :
    (s.addGrant what us part charge cls).pending = s.pending := rfl

/-! #### State.updBox -/

@[simp] theorem State.updBox_pins (s : State) (k : Nat) (f : Mbox → Mbox) : (s.updBox k f).pins = s.pins := rfl
@[simp] theorem State.updBox_jtag (s : State) (k : Nat) (f : Mbox → Mbox) : (s.updBox k f).jtag = s.jtag := rfl
@[simp] theorem State.updBox_port (s : State) (k : Nat) (f : Mbox → Mbox) : (s.updBox k f).port = s.port := rfl
@[simp] theorem State.updBox_mode (s : State) (k : Nat) (f : Mbox → Mbox) : (s.updBox k f).mode = s.mode := rfl
@[simp] theorem State.updBox_regsAon (s : State) (k : Nat) (f : Mbox → Mbox) : (s.updBox k f).regsAon = s.regsAon := rfl
@[simp] theorem State.updBox_regsBlk (s : State) (k : Nat) (f : Mbox → Mbox) : (s.updBox k f).regsBlk = s.regsBlk := rfl
@[simp] theorem State.updBox_time (s : State) (k : Nat) (f : Mbox → Mbox) : (s.updBox k f).time = s.time := rfl
@[simp] theorem State.updBox_gov (s : State) (k : Nat) (f : Mbox → Mbox) : (s.updBox k f).gov = s.gov := rfl
@[simp] theorem State.updBox_fab (s : State) (k : Nat) (f : Mbox → Mbox) : (s.updBox k f).fab = s.fab := rfl
@[simp] theorem State.updBox_units (s : State) (k : Nat) (f : Mbox → Mbox) : (s.updBox k f).units = s.units := rfl
@[simp] theorem State.updBox_parts (s : State) (k : Nat) (f : Mbox → Mbox) : (s.updBox k f).parts = s.parts := rfl
@[simp] theorem State.updBox_reqs (s : State) (k : Nat) (f : Mbox → Mbox) : (s.updBox k f).reqs = s.reqs := rfl
@[simp] theorem State.updBox_hw (s : State) (k : Nat) (f : Mbox → Mbox) : (s.updBox k f).hw = s.hw := rfl
@[simp] theorem State.updBox_ledger (s : State) (k : Nat) (f : Mbox → Mbox) : (s.updBox k f).ledger = s.ledger := rfl
@[simp] theorem State.updBox_persist (s : State) (k : Nat) (f : Mbox → Mbox) : (s.updBox k f).persist = s.persist := rfl
@[simp] theorem State.updBox_seals (s : State) (k : Nat) (f : Mbox → Mbox) : (s.updBox k f).seals = s.seals := rfl
@[simp] theorem State.updBox_pair (s : State) (k : Nat) (f : Mbox → Mbox) : (s.updBox k f).pair = s.pair := rfl
@[simp] theorem State.updBox_mbx (s : State) (k : Nat) (f : Mbox → Mbox) :
    (s.updBox k f).mbx = { s.mbx with boxes := s.mbx.boxes.set k (f (s.box k)) } := rfl
@[simp] theorem State.updBox_flt (s : State) (k : Nat) (f : Mbox → Mbox) : (s.updBox k f).flt = s.flt := rfl
@[simp] theorem State.updBox_bg (s : State) (k : Nat) (f : Mbox → Mbox) : (s.updBox k f).bg = s.bg := rfl
@[simp] theorem State.updBox_rng (s : State) (k : Nat) (f : Mbox → Mbox) : (s.updBox k f).rng = s.rng := rfl
@[simp] theorem State.updBox_pm (s : State) (k : Nat) (f : Mbox → Mbox) : (s.updBox k f).pm = s.pm := rfl
@[simp] theorem State.updBox_irq (s : State) (k : Nat) (f : Mbox → Mbox) : (s.updBox k f).irq = s.irq := rfl
@[simp] theorem State.updBox_retained (s : State) (k : Nat) (f : Mbox → Mbox) : (s.updBox k f).retained = s.retained := rfl
@[simp] theorem State.updBox_sheds (s : State) (k : Nat) (f : Mbox → Mbox) : (s.updBox k f).sheds = s.sheds := rfl
@[simp] theorem State.updBox_free (s : State) (k : Nat) (f : Mbox → Mbox) : (s.updBox k f).free = s.free := rfl
@[simp] theorem State.updBox_nextId (s : State) (k : Nat) (f : Mbox → Mbox) : (s.updBox k f).nextId = s.nextId := rfl
@[simp] theorem State.updBox_now (s : State) (k : Nat) (f : Mbox → Mbox) : (s.updBox k f).now = s.now := rfl
@[simp] theorem State.updBox_pending (s : State) (k : Nat) (f : Mbox → Mbox) : (s.updBox k f).pending = s.pending := rfl

/-! #### State.setTaken -/

@[simp] theorem State.setTaken_pins (s : State) (k : Nat) (l : List Taken) : (s.setTaken k l).pins = s.pins := rfl
@[simp] theorem State.setTaken_jtag (s : State) (k : Nat) (l : List Taken) : (s.setTaken k l).jtag = s.jtag := rfl
@[simp] theorem State.setTaken_port (s : State) (k : Nat) (l : List Taken) : (s.setTaken k l).port = s.port := rfl
@[simp] theorem State.setTaken_mode (s : State) (k : Nat) (l : List Taken) : (s.setTaken k l).mode = s.mode := rfl
@[simp] theorem State.setTaken_regsAon (s : State) (k : Nat) (l : List Taken) : (s.setTaken k l).regsAon = s.regsAon := rfl
@[simp] theorem State.setTaken_regsBlk (s : State) (k : Nat) (l : List Taken) : (s.setTaken k l).regsBlk = s.regsBlk := rfl
@[simp] theorem State.setTaken_time (s : State) (k : Nat) (l : List Taken) : (s.setTaken k l).time = s.time := rfl
@[simp] theorem State.setTaken_gov (s : State) (k : Nat) (l : List Taken) : (s.setTaken k l).gov = s.gov := rfl
@[simp] theorem State.setTaken_fab (s : State) (k : Nat) (l : List Taken) : (s.setTaken k l).fab = s.fab := rfl
@[simp] theorem State.setTaken_units (s : State) (k : Nat) (l : List Taken) : (s.setTaken k l).units = s.units := rfl
@[simp] theorem State.setTaken_parts (s : State) (k : Nat) (l : List Taken) : (s.setTaken k l).parts = s.parts := rfl
@[simp] theorem State.setTaken_reqs (s : State) (k : Nat) (l : List Taken) : (s.setTaken k l).reqs = s.reqs := rfl
@[simp] theorem State.setTaken_hw (s : State) (k : Nat) (l : List Taken) : (s.setTaken k l).hw = s.hw := rfl
@[simp] theorem State.setTaken_ledger (s : State) (k : Nat) (l : List Taken) : (s.setTaken k l).ledger = s.ledger := rfl
@[simp] theorem State.setTaken_persist (s : State) (k : Nat) (l : List Taken) : (s.setTaken k l).persist = s.persist := rfl
@[simp] theorem State.setTaken_seals (s : State) (k : Nat) (l : List Taken) : (s.setTaken k l).seals = s.seals := rfl
@[simp] theorem State.setTaken_pair (s : State) (k : Nat) (l : List Taken) : (s.setTaken k l).pair = s.pair := rfl
@[simp] theorem State.setTaken_mbx (s : State) (k : Nat) (l : List Taken) : (s.setTaken k l).mbx = { s.mbx with taken := s.mbx.taken.set k l } := rfl
@[simp] theorem State.setTaken_flt (s : State) (k : Nat) (l : List Taken) : (s.setTaken k l).flt = s.flt := rfl
@[simp] theorem State.setTaken_bg (s : State) (k : Nat) (l : List Taken) : (s.setTaken k l).bg = s.bg := rfl
@[simp] theorem State.setTaken_rng (s : State) (k : Nat) (l : List Taken) : (s.setTaken k l).rng = s.rng := rfl
@[simp] theorem State.setTaken_pm (s : State) (k : Nat) (l : List Taken) : (s.setTaken k l).pm = s.pm := rfl
@[simp] theorem State.setTaken_irq (s : State) (k : Nat) (l : List Taken) : (s.setTaken k l).irq = s.irq := rfl
@[simp] theorem State.setTaken_retained (s : State) (k : Nat) (l : List Taken) : (s.setTaken k l).retained = s.retained := rfl
@[simp] theorem State.setTaken_sheds (s : State) (k : Nat) (l : List Taken) : (s.setTaken k l).sheds = s.sheds := rfl
@[simp] theorem State.setTaken_free (s : State) (k : Nat) (l : List Taken) : (s.setTaken k l).free = s.free := rfl
@[simp] theorem State.setTaken_nextId (s : State) (k : Nat) (l : List Taken) : (s.setTaken k l).nextId = s.nextId := rfl
@[simp] theorem State.setTaken_now (s : State) (k : Nat) (l : List Taken) : (s.setTaken k l).now = s.now := rfl
@[simp] theorem State.setTaken_pending (s : State) (k : Nat) (l : List Taken) : (s.setTaken k l).pending = s.pending := rfl

/-! #### State.setReplies -/

@[simp] theorem State.setReplies_pins (s : State) (k : Nat) (l : List (Bytes × Bool)) : (s.setReplies k l).pins = s.pins := rfl
@[simp] theorem State.setReplies_jtag (s : State) (k : Nat) (l : List (Bytes × Bool)) : (s.setReplies k l).jtag = s.jtag := rfl
@[simp] theorem State.setReplies_port (s : State) (k : Nat) (l : List (Bytes × Bool)) : (s.setReplies k l).port = s.port := rfl
@[simp] theorem State.setReplies_mode (s : State) (k : Nat) (l : List (Bytes × Bool)) : (s.setReplies k l).mode = s.mode := rfl
@[simp] theorem State.setReplies_regsAon (s : State) (k : Nat) (l : List (Bytes × Bool)) : (s.setReplies k l).regsAon = s.regsAon := rfl
@[simp] theorem State.setReplies_regsBlk (s : State) (k : Nat) (l : List (Bytes × Bool)) : (s.setReplies k l).regsBlk = s.regsBlk := rfl
@[simp] theorem State.setReplies_time (s : State) (k : Nat) (l : List (Bytes × Bool)) : (s.setReplies k l).time = s.time := rfl
@[simp] theorem State.setReplies_gov (s : State) (k : Nat) (l : List (Bytes × Bool)) : (s.setReplies k l).gov = s.gov := rfl
@[simp] theorem State.setReplies_fab (s : State) (k : Nat) (l : List (Bytes × Bool)) : (s.setReplies k l).fab = s.fab := rfl
@[simp] theorem State.setReplies_units (s : State) (k : Nat) (l : List (Bytes × Bool)) : (s.setReplies k l).units = s.units := rfl
@[simp] theorem State.setReplies_parts (s : State) (k : Nat) (l : List (Bytes × Bool)) : (s.setReplies k l).parts = s.parts := rfl
@[simp] theorem State.setReplies_reqs (s : State) (k : Nat) (l : List (Bytes × Bool)) : (s.setReplies k l).reqs = s.reqs := rfl
@[simp] theorem State.setReplies_hw (s : State) (k : Nat) (l : List (Bytes × Bool)) : (s.setReplies k l).hw = s.hw := rfl
@[simp] theorem State.setReplies_ledger (s : State) (k : Nat) (l : List (Bytes × Bool)) : (s.setReplies k l).ledger = s.ledger := rfl
@[simp] theorem State.setReplies_persist (s : State) (k : Nat) (l : List (Bytes × Bool)) : (s.setReplies k l).persist = s.persist := rfl
@[simp] theorem State.setReplies_seals (s : State) (k : Nat) (l : List (Bytes × Bool)) : (s.setReplies k l).seals = s.seals := rfl
@[simp] theorem State.setReplies_pair (s : State) (k : Nat) (l : List (Bytes × Bool)) : (s.setReplies k l).pair = s.pair := rfl
@[simp] theorem State.setReplies_mbx (s : State) (k : Nat) (l : List (Bytes × Bool)) :
    (s.setReplies k l).mbx = { s.mbx with replies := s.mbx.replies.set k l } := rfl
@[simp] theorem State.setReplies_flt (s : State) (k : Nat) (l : List (Bytes × Bool)) : (s.setReplies k l).flt = s.flt := rfl
@[simp] theorem State.setReplies_bg (s : State) (k : Nat) (l : List (Bytes × Bool)) : (s.setReplies k l).bg = s.bg := rfl
@[simp] theorem State.setReplies_rng (s : State) (k : Nat) (l : List (Bytes × Bool)) : (s.setReplies k l).rng = s.rng := rfl
@[simp] theorem State.setReplies_pm (s : State) (k : Nat) (l : List (Bytes × Bool)) : (s.setReplies k l).pm = s.pm := rfl
@[simp] theorem State.setReplies_irq (s : State) (k : Nat) (l : List (Bytes × Bool)) : (s.setReplies k l).irq = s.irq := rfl
@[simp] theorem State.setReplies_retained (s : State) (k : Nat) (l : List (Bytes × Bool)) : (s.setReplies k l).retained = s.retained := rfl
@[simp] theorem State.setReplies_sheds (s : State) (k : Nat) (l : List (Bytes × Bool)) : (s.setReplies k l).sheds = s.sheds := rfl
@[simp] theorem State.setReplies_free (s : State) (k : Nat) (l : List (Bytes × Bool)) : (s.setReplies k l).free = s.free := rfl
@[simp] theorem State.setReplies_nextId (s : State) (k : Nat) (l : List (Bytes × Bool)) : (s.setReplies k l).nextId = s.nextId := rfl
@[simp] theorem State.setReplies_now (s : State) (k : Nat) (l : List (Bytes × Bool)) : (s.setReplies k l).now = s.now := rfl
@[simp] theorem State.setReplies_pending (s : State) (k : Nat) (l : List (Bytes × Bool)) : (s.setReplies k l).pending = s.pending := rfl

/-! #### State.useKeys -/

@[simp] theorem State.useKeys_pins (s : State) (rid : Nat) (gs : List Nat) : (s.useKeys rid gs).pins = s.pins := rfl
@[simp] theorem State.useKeys_jtag (s : State) (rid : Nat) (gs : List Nat) : (s.useKeys rid gs).jtag = s.jtag := rfl
@[simp] theorem State.useKeys_port (s : State) (rid : Nat) (gs : List Nat) : (s.useKeys rid gs).port = s.port := rfl
@[simp] theorem State.useKeys_mode (s : State) (rid : Nat) (gs : List Nat) : (s.useKeys rid gs).mode = s.mode := rfl
@[simp] theorem State.useKeys_regsAon (s : State) (rid : Nat) (gs : List Nat) : (s.useKeys rid gs).regsAon = s.regsAon := rfl
@[simp] theorem State.useKeys_regsBlk (s : State) (rid : Nat) (gs : List Nat) : (s.useKeys rid gs).regsBlk = s.regsBlk := rfl
@[simp] theorem State.useKeys_time (s : State) (rid : Nat) (gs : List Nat) : (s.useKeys rid gs).time = s.time := rfl
@[simp] theorem State.useKeys_gov (s : State) (rid : Nat) (gs : List Nat) : (s.useKeys rid gs).gov = s.gov := rfl
@[simp] theorem State.useKeys_fab (s : State) (rid : Nat) (gs : List Nat) : (s.useKeys rid gs).fab = s.fab := rfl
@[simp] theorem State.useKeys_units (s : State) (rid : Nat) (gs : List Nat) : (s.useKeys rid gs).units = s.units := rfl
@[simp] theorem State.useKeys_parts (s : State) (rid : Nat) (gs : List Nat) : (s.useKeys rid gs).parts = s.parts := rfl
@[simp] theorem State.useKeys_hw (s : State) (rid : Nat) (gs : List Nat) : (s.useKeys rid gs).hw = s.hw := rfl
@[simp] theorem State.useKeys_ledger (s : State) (rid : Nat) (gs : List Nat) : (s.useKeys rid gs).ledger = s.ledger := rfl
@[simp] theorem State.useKeys_persist (s : State) (rid : Nat) (gs : List Nat) : (s.useKeys rid gs).persist = s.persist := rfl
@[simp] theorem State.useKeys_seals (s : State) (rid : Nat) (gs : List Nat) : (s.useKeys rid gs).seals = s.seals := rfl
@[simp] theorem State.useKeys_pair (s : State) (rid : Nat) (gs : List Nat) : (s.useKeys rid gs).pair = s.pair := rfl
@[simp] theorem State.useKeys_mbx (s : State) (rid : Nat) (gs : List Nat) : (s.useKeys rid gs).mbx = s.mbx := rfl
@[simp] theorem State.useKeys_flt (s : State) (rid : Nat) (gs : List Nat) : (s.useKeys rid gs).flt = s.flt := rfl
@[simp] theorem State.useKeys_bg (s : State) (rid : Nat) (gs : List Nat) : (s.useKeys rid gs).bg = s.bg := rfl
@[simp] theorem State.useKeys_rng (s : State) (rid : Nat) (gs : List Nat) : (s.useKeys rid gs).rng = s.rng := rfl
@[simp] theorem State.useKeys_pm (s : State) (rid : Nat) (gs : List Nat) : (s.useKeys rid gs).pm = s.pm := rfl
@[simp] theorem State.useKeys_irq (s : State) (rid : Nat) (gs : List Nat) : (s.useKeys rid gs).irq = s.irq := rfl
@[simp] theorem State.useKeys_retained (s : State) (rid : Nat) (gs : List Nat) : (s.useKeys rid gs).retained = s.retained := rfl
@[simp] theorem State.useKeys_sheds (s : State) (rid : Nat) (gs : List Nat) : (s.useKeys rid gs).sheds = s.sheds := rfl
@[simp] theorem State.useKeys_free (s : State) (rid : Nat) (gs : List Nat) : (s.useKeys rid gs).free = s.free := rfl
@[simp] theorem State.useKeys_nextId (s : State) (rid : Nat) (gs : List Nat) : (s.useKeys rid gs).nextId = s.nextId := rfl
@[simp] theorem State.useKeys_now (s : State) (rid : Nat) (gs : List Nat) : (s.useKeys rid gs).now = s.now := rfl
@[simp] theorem State.useKeys_pending (s : State) (rid : Nat) (gs : List Nat) : (s.useKeys rid gs).pending = s.pending := rfl

/-! #### State.pmDone -/

@[simp] theorem State.pmDone_pins (s : State) (p : Nat) : (s.pmDone p).pins = s.pins := rfl
@[simp] theorem State.pmDone_jtag (s : State) (p : Nat) : (s.pmDone p).jtag = s.jtag := rfl
@[simp] theorem State.pmDone_port (s : State) (p : Nat) : (s.pmDone p).port = s.port := rfl
@[simp] theorem State.pmDone_mode (s : State) (p : Nat) : (s.pmDone p).mode = s.mode := rfl
@[simp] theorem State.pmDone_regsAon (s : State) (p : Nat) : (s.pmDone p).regsAon = s.regsAon := rfl
@[simp] theorem State.pmDone_regsBlk (s : State) (p : Nat) : (s.pmDone p).regsBlk = s.regsBlk := rfl
@[simp] theorem State.pmDone_time (s : State) (p : Nat) : (s.pmDone p).time = s.time := rfl
@[simp] theorem State.pmDone_gov (s : State) (p : Nat) : (s.pmDone p).gov = s.gov := rfl
@[simp] theorem State.pmDone_fab (s : State) (p : Nat) : (s.pmDone p).fab = s.fab := rfl
@[simp] theorem State.pmDone_units (s : State) (p : Nat) : (s.pmDone p).units = s.units := rfl
@[simp] theorem State.pmDone_parts (s : State) (p : Nat) : (s.pmDone p).parts = s.parts := rfl
@[simp] theorem State.pmDone_reqs (s : State) (p : Nat) : (s.pmDone p).reqs = s.reqs := rfl
@[simp] theorem State.pmDone_hw (s : State) (p : Nat) : (s.pmDone p).hw = s.hw := rfl
@[simp] theorem State.pmDone_ledger (s : State) (p : Nat) : (s.pmDone p).ledger = s.ledger := rfl
@[simp] theorem State.pmDone_persist (s : State) (p : Nat) : (s.pmDone p).persist = s.persist := rfl
@[simp] theorem State.pmDone_seals (s : State) (p : Nat) : (s.pmDone p).seals = s.seals := rfl
@[simp] theorem State.pmDone_pair (s : State) (p : Nat) : (s.pmDone p).pair = s.pair := rfl
@[simp] theorem State.pmDone_mbx (s : State) (p : Nat) : (s.pmDone p).mbx = s.mbx := rfl
@[simp] theorem State.pmDone_flt (s : State) (p : Nat) : (s.pmDone p).flt = s.flt := rfl
@[simp] theorem State.pmDone_bg (s : State) (p : Nat) : (s.pmDone p).bg = s.bg := rfl
@[simp] theorem State.pmDone_rng (s : State) (p : Nat) : (s.pmDone p).rng = s.rng := rfl
@[simp] theorem State.pmDone_irq (s : State) (p : Nat) : (s.pmDone p).irq = s.irq := rfl
@[simp] theorem State.pmDone_retained (s : State) (p : Nat) : (s.pmDone p).retained = s.retained := rfl
@[simp] theorem State.pmDone_sheds (s : State) (p : Nat) : (s.pmDone p).sheds = s.sheds := rfl
@[simp] theorem State.pmDone_free (s : State) (p : Nat) : (s.pmDone p).free = s.free := rfl
@[simp] theorem State.pmDone_nextId (s : State) (p : Nat) : (s.pmDone p).nextId = s.nextId := rfl
@[simp] theorem State.pmDone_now (s : State) (p : Nat) : (s.pmDone p).now = s.now := rfl
@[simp] theorem State.pmDone_pending (s : State) (p : Nat) : (s.pmDone p).pending = s.pending := rfl

end Sys2Proof.Machine
end

