-- ==== Sys2Proof/Laws/Ops.lean ====
section
/-! SUPPORT. One lemma for each shared operation that says what it can do: the fields that it may change, and what they become. -/

set_option linter.unusedSimpArgs false

namespace Sys2Proof.Machine

theorem State.loseMail_mbx (s : State) (k : Nat) : ∃ m, s.loseMail k = { s with mbx := m } := by
  unfold State.loseMail
  dsimp only
  simp only [State.updBox, State.setDb, State.setTaken, State.setReplies]
  (repeat' split) <;> exact ⟨_, rfl⟩

theorem State.foldl_loseMail_mbx (l : List Nat) (s : State) : ∃ m, l.foldl State.loseMail s = { s with mbx := m } := by
  induction l generalizing s with
  | nil => exact ⟨s.mbx, rfl⟩
  | cons k l ih =>
    obtain ⟨m, h⟩ := State.loseMail_mbx s k
    obtain ⟨n, h'⟩ := ih (s.loseMail k)
    exact ⟨n, by rw [List.foldl_cons, h', h]⟩

theorem State.fwReset_mbx (s : State) : ∃ m, s.fwReset = { s with mbx := m } := by
  obtain ⟨m, h⟩ := State.foldl_loseMail_mbx [0,1,2,3] s
  exact ⟨_, by unfold State.fwReset; rw [h]⟩

/-- What the grant of a warm wake's first lane leaves as it is. -/
abbrev SameWork (t s : State) : Prop :=
  t.parts = s.parts ∧ t.ledger = s.ledger ∧ t.seals = s.seals ∧ t.retained = s.retained ∧ t.mode = s.mode

theorem State.negotiate_sameWork (s : State) : SameWork s.negotiate s := by
  unfold State.negotiate; (repeat' split) <;> simp [SameWork]

theorem State.enable_sameWork (us : List Nat) (s : State) (w : Work) (p : Option Nat) : SameWork (s.enable us w p) s := by
  unfold State.enable
  induction us generalizing s with
  | nil => simp [SameWork]
  | cons u us ih =>
    simp only [List.foldl_cons]
    have := ih (s.updUnit u (fun x => { x with power := if x.power = .gated then .waking else x.power, work := w, charge := p }))
    simpa [State.updUnit] using this

theorem State.issueNew_firstLane (s : State) (g : Grant) (n : Nat) (h : s.gov.grants = [g]) (hw : g.what = .firstLane) :
    SameWork (s.issueNew n) s := by
  have one : SameWork ((s.atOnce g).getD (s.countG 32 1)) s := by
    unfold State.atOnce
    split
    · simp [SameWork, State.countG]
    · unfold State.tryGrant
      simp only [State.refit, hw]
      split
      · simp [SameWork, State.countG]
      · cases hf : (unitsOf .cipher).find? (fun u => (s.unit u).free) with
        | none => simp [SameWork, State.countG]
        | some u =>
          simp only [Option.map_some]
          split
          · simp [SameWork, State.countG]
          · simp only [Bool.false_eq_true, if_false]
            split
            · simp only [Option.getD_some, State.issue, hw]
              exact State.enable_sameWork _ _ _ _
            · simp [SameWork, State.countG]
  unfold State.issueNew
  rw [h]
  obtain ⟨a, b, c, d, e⟩ := State.negotiate_sameWork (([g].filter (fun g => decide (n ≤ g.gid))).foldl (fun t g =>
    match t.gov.grants.find? (fun x => x.gid == g.gid) with
    | some h => (t.atOnce h).getD (t.countG 32 1)
    | none => t) s)
  by_cases hg : n ≤ g.gid
  · simp only [List.filter_cons, hg, decide_true, if_true, List.filter_nil, List.foldl_cons, List.foldl_nil, h, List.find?_cons,
    beq_self_eq_true] at a b c d e ⊢
    obtain ⟨a', b', c', d', e'⟩ := one
    exact ⟨a.trans a', b.trans b', c.trans c', d.trans d', e.trans e'⟩
  · simp only [List.filter_cons, hg, decide_false, List.filter_nil, List.foldl_nil, Bool.false_eq_true, if_false] at a b c d e ⊢
    exact ⟨a, b, c, d, e⟩

theorem bitList_getElem (n : Nat) : (bitList n 32).length = 32 ∧ ∀ i, i < 32 → (bitList n 32)[i]? = some (bitAt n i) := by
  refine ⟨by simp [bitList], fun i h => by simp [bitList, h]⟩

theorem State.linkChanged_fields (w : State) : ∃ p i, w.linkChanged = { w with pair := { w.pair with linkChg := p }, irq := i } := by
  unfold State.linkChanged State.pairRise
  split
  · exact ⟨w.pair.linkChg, w.irq, rfl⟩
  · split <;> exact ⟨true, _, rfl⟩

theorem State.linkCheck_off (v : State) (h : v.pair.link = .off) :
   ∃ p i q, v.linkCheck = { v with pair := p, irq := i, pins := q } ∧ p.ident = v.pair.ident ∧ p.acctWait = v.pair.acctWait := by
  have L : ∀ l', ∃ p i, (v.linkTo l') = { v with pair := p, irq := i } ∧ p.ident = v.pair.ident ∧ p.acctWait = v.pair.acctWait := by
    intro l'
    unfold State.linkTo
    rw [h]
    by_cases q : Link.off = l'
    · rw [if_pos q]; exact ⟨v.pair, v.irq, rfl, rfl, rfl⟩
    · obtain ⟨p, i, e⟩ := State.linkChanged_fields { v with pair := { v.pair with link := l' } }
      rw [if_neg q]; simp only [reduceCtorEq, if_false, false_and]; rw [e]; exact ⟨_, _, rfl, rfl, rfl⟩
  unfold State.linkCheck
  rw [h]
  split
  · obtain ⟨p, i, e, f, g⟩ := L .reset
    rw [if_pos rfl]; unfold State.linkReset State.clearLanes; rw [e]; exact ⟨_, _, _, rfl, f, g⟩
  · obtain ⟨p, i, e, f, g⟩ := L .off
    unfold State.clearLanes; rw [e]; exact ⟨_, _, _, rfl, f, g⟩

theorem State.putSlots_eq (l) (s : State) : ∃ h n, s.putSlots l = { s with hw := { s.hw with slots := h }, nextId := n } := by
  unfold State.putSlots
  induction l generalizing s with
  | nil => exact ⟨_, _, rfl⟩
  | cons x l ih =>
    simp only [List.foldl_cons]
    split
    · exact ih s
    · obtain ⟨h, n, e⟩ := ih ({ s with hw := { s.hw with slots := Store.put s.hw.slots x.1 { x.2 with keyId := s.nextId, bad := false } } } : State).bump
      exact ⟨h, n, e⟩

theorem State.foldl_send_flt (l : List Nat) (g : Nat → Nat) (s : State) : ∃ f, l.foldl (fun t p => t.send 0x48 0 (g p)) s = { s with flt := f } := by
  induction l generalizing s with
  | nil => exact ⟨_, rfl⟩
  | cons x l ih => obtain ⟨f, e⟩ := ih (s.send 0x48 0 (g x)); exact ⟨f, e⟩

theorem foldl_put_keks (l : List (Nat × Bytes)) (s : State) : ∃ h, l.foldl (fun (t : State) k =>
      { t with hw := { t.hw with keks := Store.put t.hw.keks k.1 k.2 } }) s = { s with hw := h } := by
  induction l generalizing s with
  | nil => exact ⟨_, rfl⟩
  | cons x l ih => obtain ⟨f, e⟩ := ih { s with hw := { s.hw with keks := Store.put s.hw.keks x.1 x.2 } }; exact ⟨f, e⟩

theorem State.restoreKeys_eq (s : State) (img) : ∃ h n f, s.restoreKeys img = { s with hw := h, nextId := n, flt := f } ∧
  ((s.hw.alarm = true ∨ s.mode.fresh = true) → h.slots = [] ∧ h.keks = []) := by
  unfold State.restoreKeys
  dsimp only
  split
  · exact ⟨_, _, _, rfl, fun _ => ⟨rfl, rfl⟩⟩
  · next hx =>
    simp only [hx, false_imp_iff, and_true]
    split
    · obtain ⟨h, n, e⟩ := State.putSlots_eq img.slots ({ s with hw := { s.hw with slots := [], keks := [], badSlots := [], badKeks := [] } } : State)
      rw [e]; exact ⟨_, _, _, rfl⟩
    · set t0 : State := { s with hw := _ } with ht0
      obtain ⟨h, n, e⟩ := State.putSlots_eq (img.slots.filter (fun x => s.hw.badSlots.contains x.1)) t0
      rw [e]
      obtain ⟨h2, e2⟩ := foldl_put_keks (img.keks.filter (fun k => s.hw.badKeks.contains k.1)) { t0 with hw := { t0.hw with slots := h }, nextId := n }
      rw [e2]
      obtain ⟨f3, e3⟩ := State.foldl_send_flt s.hw.badSlots (fun g => g) { t0 with hw := h2, nextId := n }
      rw [show ({ ({ t0 with hw := { t0.hw with slots := h }, nextId := n } : State) with hw := h2 } : State) = { t0 with hw := h2, nextId := n } from rfl, e3]
      obtain ⟨f4, e4⟩ := State.foldl_send_flt s.hw.badKeks (fun p => 0x20000 + p) { t0 with hw := h2, nextId := n, flt := f3 }
      rw [show ({ ({ t0 with hw := h2, nextId := n } : State) with flt := f3 } : State) = { t0 with hw := h2, nextId := n, flt := f3 } from rfl, e4]
      exact ⟨_, _, _, rfl⟩

theorem unit_tested_of_other (s : State) (n m : Nat) (f) (h : m ≠ n) (k : (s.unit m).tested = false) : (({ s with units := Store.upd s.units n f } : State).unit m).tested = false := by
  unfold State.unit at *; simpa [Store.find_upd_other, Ne.symm h] using k

theorem State.tryServe_of_not_attest (v : State) (h : v.mode.mode ≠ .attest) : v.tryServe = v := by
  unfold State.tryServe; rw [if_neg (by simp [h])]

theorem State.gateFor_units (b : Nat) (us : List Nat) (n : Nat) (s : State) : ∃ x, s.gateFor b us n = { s with units := x } := by
  induction n generalizing s with
  | zero => exact ⟨_, rfl⟩
  | succ n ih =>
    unfold State.gateFor
    split
    · exact ⟨_, rfl⟩
    · split
      · obtain ⟨x, e⟩ := ih (s.updUnit _ UnitSt.gate); exact ⟨x, e⟩
      · exact ⟨_, rfl⟩

theorem State.negotiate_pwrReq (s : State) : ∃ x, s.negotiate = { s with pins := { s.pins with pwrReq := x } } := by
  unfold State.negotiate; (repeat' split) <;> first | exact ⟨s.pins.pwrReq, rfl⟩ | exact ⟨true, rfl⟩

theorem State.queue_updQueue (s : State) (p q : Nat) (f : Queue → Queue) (x : Queue) (h : s.queue p q = some x) :
    (s.updQueue p q f).queue p q = some (f x) := by
  unfold State.queue State.part at *
  simp only [State.updQueue, State.updPart, Store.find_upd_self]
  cases hp : Store.find s.parts p with
  | none => simp [hp] at h
  | some y => simp [hp] at h; simp [h]

theorem find_lowest_unused (l : List Nat) (n k : Nat) (hn : n < k) (h1 : n ∉ l) (h2 : ∀ m < n, m ∈ l) :
    (List.range k).find? (fun n => !(l.contains n)) = some n := by
  rw [List.find?_eq_some_iff_append]
  refine ⟨by simpa using h1, List.range n, (List.range (k - n - 1)).map (· + (n+1)), ?_, ?_⟩
  · apply List.ext_getElem
    · simp; omega
    · intro i hi hj
      simp [List.getElem_append, List.getElem_cons]
      split <;> simp_all <;> omega
  · intro a ha; simp at ha; simpa using h2 a ha

theorem Store.any_put (l : List (Nat × Bytes)) (n k : Nat) (x : Bytes) :
    (Store.put l n x).any (fun b => b.1 == k) = (n == k || l.any (fun b => b.1 == k)) := by
  induction l with
  | nil => simp [Store.put]
  | cons y r ih =>
    obtain ⟨m, z⟩ := y
    unfold Store.put
    split
    · simp
    · split
      · rename_i h1 h2; subst h2; simp
      · simp only [List.any_cons, ih]; cases (n == k) <;> cases (m == k) <;> simp

theorem Txn.mark_full (u : Txn) (h : u.full = true) : u.mark.full = true := by
  unfold Txn.full at *
  simp only [List.all_eq_true] at *
  intro i hi
  have := h i hi
  show (Store.put u.got failMark []).any (fun b => b.1 == i) = true
  rw [Store.any_put]; simp only [Txn.has] at this; rw [this]; simp

theorem State.updQueue_eq (s : State) (p q : Nat) (f : Queue → Queue) : s.updQueue p q f = { s with parts := (s.updQueue p q f).parts } := rfl

theorem State.fetchMore_eq (s : State) (p q n : Nat) : s.fetchMore p q n = { s with parts := (s.fetchMore p q n).parts, fab := (s.fetchMore p q n).fab } := by
  induction n generalizing s with
  | zero => rfl
  | succ n ih =>
    unfold State.fetchMore
    split
    · rfl
    · simp only []
      split
      · rfl
      · split
        · rw [ih]; rfl
        · split
          · rfl
          · split
            · rw [ih]; rfl
            · rfl

theorem State.fetchMore_queue (s : State) (p q n : Nat) (x : Queue) (h : s.queue p q = some x) :
    ∃ y, (s.fetchMore p q n).queue p q = some y ∧ y = { x with fetch := y.fetch } := by
  induction n generalizing s x with
  | zero => exact ⟨x, h, rfl⟩
  | succ n ih =>
    unfold State.fetchMore
    rw [h]
    simp only []
    split
    · exact ⟨x, h, rfl⟩
    · split
      · exact ih _ _ h
      · split
        · exact ⟨x, h, rfl⟩
        · split
          · rename_i v m _
            obtain ⟨y, h1, h2⟩ := ih ((s.updQueue p q (fun y => { y with fetch := x.adv v m })).fetchRead p q x v m) _ (State.queue_updQueue s p q _ x h)
            exact ⟨y, h1, h2⟩
          · exact ⟨x, h, rfl⟩

theorem dbIndex_some (n : Nat) (d : Word) (h1 : d.toNat / 2 ^ 17 = 0) (h2 : d.toNat % 2 ^ 16 < n) :
    dbIndex n d = some (n * (d.toNat / 2 ^ 16 % 2) + d.toNat % 2 ^ 16) := by
  unfold dbIndex; simp only []; rw [if_pos ⟨h1, h2⟩]

theorem dbIndex_none (n : Nat) (d : Word) (h : d.toNat / 2 ^ 17 ≠ 0 ∨ n ≤ d.toNat % 2 ^ 16) : dbIndex n d = none := by
  unfold dbIndex; simp only []; rw [if_neg]; rintro ⟨a, b⟩; omega

theorem Queue.parseOne_keeps (q y : Queue) (b : Bool) (h : q.parseOne b = some y) : y.tail = q.tail ∧ y.en = q.en := by
  unfold Queue.parseOne at h
  simp only [] at h
  split at h
  · injection h with h; subst h; exact ⟨rfl, rfl⟩
  · split at h
    · cases h
    · split at h
      · cases h
      · split at h
        · injection h with h; subst h; exact ⟨rfl, rfl⟩
        · split at h
          · cases h
          · injection h with h; subst h; exact ⟨rfl, rfl⟩

theorem Queue.fixHead_keeps (q : Queue) : q.fixHead.tail = q.tail ∧ q.fixHead.en = q.en := by
  unfold Queue.fixHead; split <;> exact ⟨rfl, rfl⟩

theorem Queue.parseAll_keeps (b : Bool) (n : Nat) (q : Queue) : (q.parseAll b n).tail = q.tail ∧ (q.parseAll b n).en = q.en := by
  induction n generalizing q with
  | zero => exact Queue.fixHead_keeps q
  | succ n ih =>
    unfold Queue.parseAll
    split
    · rename_i t h; have := Queue.parseOne_keeps q t b h; rw [(ih t).1, (ih t).2]; exact this
    · exact Queue.fixHead_keeps q

theorem State.fresh_some (s : State) (rid : Nat) (r : Req) (p : Req → Bool) (h : s.req rid = some r) (a : r.phase = .admitted) (b : p r = true) :
    s.fresh rid p = some r := by simp [State.fresh, h, a, b]

theorem State.req_updReq (s : State) (rid : Nat) (r : Req) (f : Req → Req) (h : s.req rid = some r) : (s.updReq rid f).req rid = some (f r) := by
  unfold State.req at *; simp [State.updReq, h]

theorem State.req_useKeys (s : State) (rid : Nat) (r : Req) (gs : List Nat) (h : s.req rid = some r) :
    (s.useKeys rid gs).req rid = some { r with keys := gs.map (fun g => (g, s.keyIdOf g)) } := State.req_updReq s rid r _ h

theorem State.useKeys_eq (s : State) (rid : Nat) (gs : List Nat) : s.useKeys rid gs = { s with reqs := (s.useKeys rid gs).reqs } := rfl

theorem State.raiseV_eq (s : State) (k : UnitKind) (p q rid : Nat) : s.raiseV k p q rid = { s with parts := (s.raiseV k p q rid).parts } := by
  unfold State.raiseV; split <;> simp only [] <;> split <;> rfl

theorem State.enqueue_spec (s : State) (rid : Nat) (r : Req) (h : s.req rid = some r) :
    ∃ t x, s.enqueue rid = t ∧ t.req rid = some x ∧
      x = { r with phase := if r.stagingNeed = 0 then .waitPlace else .waitStaging, waitSeq := x.waitSeq } ∧
      t = { s with reqs := t.reqs, parts := t.parts, nextId := s.nextId + 1 } := by
  unfold State.enqueue
  rw [h]; simp only []
  by_cases hz : r.stagingNeed = 0
  · rw [if_pos hz]
    unfold State.toPlace; rw [h]; simp only []
    cases hk : r.kind with
    | none =>
      refine ⟨_, { r with phase := .waitPlace }, rfl, State.req_updReq s rid r _ h, by simp [hz], rfl⟩
    | some k =>
      have e := State.raiseV_eq s k r.part r.qid rid
      refine ⟨_, { r with phase := .waitPlace }, rfl, ?_, by simp [hz], ?_⟩
      · simp only [Option.elim]; rw [e]; exact State.req_updReq _ rid r _ (by exact h)
      · simp only [Option.elim]; rw [e]; rfl
  · rw [if_neg hz]
    exact ⟨_, { r with phase := .waitStaging, waitSeq := s.nextId }, rfl, State.req_updReq s rid r _ h, by simp [hz], rfl⟩

theorem Store.upd_upd {α : Type} (st : Store α) (n : Nat) (f g : α → α) : Store.upd (Store.upd st n f) n g = Store.upd st n (fun x => g (f x)) := by
  induction st with
  | nil => rfl
  | cons p r ih =>
    obtain ⟨k, a⟩ := p
    by_cases h : k = n <;> simp [Store.upd, h, ih]

theorem State.foldl_dirty_eq (l : List Nat) (s : State) (h : s.persist.change = true) :
    l.foldl (fun x t => x.dirty (18 + t / 256)) s = { s with persist := (l.foldl (fun x t => x.dirty (18 + t / 256)) s).persist } ∧
    (l.foldl (fun x t => x.dirty (18 + t / 256)) s).persist.change = true := by
  induction l generalizing s with
  | nil => exact ⟨rfl, h⟩
  | cons a l ih => 
    simp only [List.foldl_cons]
    obtain ⟨e1, e2⟩ := ih (s.dirty (18 + a / 256)) rfl
    refine ⟨?_, e2⟩
    rw [e1]; rfl

theorem State.slotDirty_eq (s : State) (g : Nat) (l : List Nat) : s.slotDirty g l = { s with persist := (s.slotDirty g l).persist } ∧
  (s.slotDirty g l).persist.change = true := by
  unfold State.slotDirty
  obtain ⟨e1, e2⟩ := State.foldl_dirty_eq l (s.dirty (2 + g / 256)) rfl
  refine ⟨?_, e2⟩
  rw [e1]; rfl

theorem State.cfgGraft_eq (s : State) (b : GraftBody) : s.cfgGraft b = { s with pair := (s.cfgGraft b).pair } := by
  unfold State.cfgGraft State.graft; (repeat' split) <;> rfl

theorem State.part_updPart (s : State) (p : Nat) (f : Partition → Partition) (x : Partition) (h : s.part p = some x) :
    (s.updPart p f).part p = some (f x) := by unfold State.part at *; simp [State.updPart, h]

theorem State.postCq_spec (u : State) (rid : Nat) (r y : Req) (x : Queue) (uq : u.queue r.part r.qid = some x) (ur : u.req rid = some y) :
    ∃ t, u.postCq rid r = t ∧ t.fab = u.fab ++ (u.updQueue r.part r.qid (fun x => { x with cqTail := (x.cqTail + 1) % (2 * x.cqN), reserved := x.reserved - 1 })).writeTxns r.part 3 (x.cfg.cqBase + 16 * (x.cqTail % x.cqN)) (cqEntry x r r.status r.detail r.result) (.cmpl r.part r.qid (some rid)) ∧
      t.req rid = some { y with phase := .completing, credit := false } ∧
      t.queue r.part r.qid = some { x with cqTail := (x.cqTail + 1) % (2 * x.cqN), reserved := x.reserved - 1 } ∧
      t = { u with fab := t.fab, reqs := t.reqs, parts := t.parts } := by
  unfold State.postCq; rw [uq]
  refine ⟨_, rfl, rfl, ?_, ?_, rfl⟩
  · exact State.req_updReq (u.updQueue r.part r.qid _) rid y _ ur
  · exact State.queue_updQueue u r.part r.qid _ x uq

theorem mem_finishSeg (segs : List Segment) (lane : Nat) (g : Segment) (h : g ∈ segs) :
    (g.lane = some lane → g.done = false → { g with done := true } ∈ finishSeg segs lane) ∧
    (g.lane ≠ some lane → g ∈ finishSeg segs lane) := by
  refine ⟨fun h1 h2 => ?_, fun h1 => ?_⟩ <;>
  · simp only [finishSeg, List.mem_map]
    exact ⟨g, h, by simp [h1, *]⟩

theorem finishSeg_ranges (segs : List Segment) (lane : Nat) :
    (finishSeg segs lane).map (fun y => (y.start, y.len)) = segs.map (fun y => (y.start, y.len)) := by
  simp only [finishSeg, List.map_map]
  apply List.map_congr_left
  intro g _
  simp only [Function.comp]
  split <;> rfl

/-- Handing segments out changes nothing but the lanes of those that wait. -/
theorem handOut_ranges (us : List Nat) (segs : List Segment) :
    (handOut us segs).map (fun y => (y.start, y.len, y.done)) = segs.map (fun y => (y.start, y.len, y.done)) := by
  induction segs generalizing us with
  | nil => cases us <;> rfl
  | cons g gs ih =>
    cases us with
    | nil => rfl
    | cons u us =>
      unfold handOut
      split <;> simp [ih]

theorem mem_handOut (us : List Nat) (segs : List Segment) (g : Segment) (h : g ∈ segs) (hl : g.done = true ∨ g.lane ≠ none) :
    g ∈ handOut us segs := by
  induction segs generalizing us with
  | nil => cases h
  | cons x xs ih =>
    cases us with
    | nil => simpa [handOut] using h
    | cons u us =>
      have b : (g.done || g.lane.isSome) = true := by
        rcases hl with hl | hl
        · simp [hl]
        · cases hg : g.lane <;> simp_all
      unfold handOut
      rcases List.mem_cons.mp h with rfl | h
      · simp [b]
      · split
        · exact List.mem_cons_of_mem _ (ih _ h)
        · exact List.mem_cons_of_mem _ (ih _ h)

/-- With no seal stream bound, seal work only withdraws the grants that waited for frames. -/
theorem State.serveFrames_of_no_stream (s : State) (h : s.seals.streams = []) : s.serveFrames = s.trimFrames := by
  have fw : ∀ t : State, t.seals.streams = [] → t.frameWaits = [] := by
    intro t ht; simp [State.frameWaits, State.boundStreams, ht]
  have a : s.frameLanes 17 = s := by
    unfold State.frameLanes; simp [State.frameTakers, fw s h, oldestFrame]
  rw [State.serveFrames, a]
  unfold State.frameDemand; simp [fw s.trimFrames h]

theorem State.trimFrames_eq (s : State) : s.trimFrames = { s with gov := s.trimFrames.gov } := rfl

theorem State.chargeV_eq (s : State) (r : Req) (c : Nat) : s.chargeV r c = { s with parts := (s.chargeV r c).parts } := by
  unfold State.chargeV
  split
  · split <;> rfl
  · rfl

theorem State.toPlace_spec (s : State) (rid : Nat) (r : Req) (h : s.req rid = some r) :
    (s.toPlace rid).req rid = some { r with phase := .waitPlace } ∧
      s.toPlace rid = { s with reqs := (s.toPlace rid).reqs, parts := (s.toPlace rid).parts, nextId := s.nextId + 1 } := by
  unfold State.toPlace; rw [h]; simp only []
  cases hk : r.kind with
  | none => exact ⟨State.req_updReq s rid r _ h, rfl⟩
  | some k =>
    have e := State.raiseV_eq s k r.part r.qid rid
    refine ⟨?_, ?_⟩
    · simp only [Option.elim]; rw [e]; exact State.req_updReq _ rid r _ (by exact h)
    · simp only [Option.elim]; rw [e]; rfl

theorem State.unit_updUnit (s : State) (u : Nat) (f : UnitSt → UnitSt) (h : (Store.find s.units u).isSome = true) :
    (s.updUnit u f).unit u = f (s.unit u) := by
  unfold State.unit; simp only [State.updUnit, Store.find_upd_self]
  cases hh : Store.find s.units u <;> simp_all

theorem length_leBytes (n v : Nat) : (leBytes n v).length = n := by
  induction n generalizing v with
  | zero => rfl
  | succ n ih => simp [leBytes, ih]

theorem Req.length_recordHead (r : Req) (a b : Nat) : (r.recordHead a b).length = 32 := by
  unfold Req.recordHead; simp [length_leBytes, zeros]

theorem State.cfgGraft_keeps_parts (s : State) (b : GraftBody) : (s.cfgGraft b).parts = s.parts ∧ (s.cfgGraft b).persist = s.persist := by
  rw [State.cfgGraft_eq]; exact ⟨rfl, rfl⟩

theorem State.queue_put (s : State) (part q : Nat) (p : Partition) (x : Queue) (hp : s.part part = some p) :
    (s.updPart part (fun p => { p with queues := Store.put p.queues q x })).queue part q = some x ∧
    (∀ k, k ≠ q → (s.updPart part (fun p => { p with queues := Store.put p.queues q x })).queue part k = s.queue part k) := by
  unfold State.queue
  rw [State.part_updPart s part _ p hp, hp]
  simp only [Option.bind_some, Store.find_put_self]
  exact ⟨trivial, fun k hk => Store.find_put_other _ _ _ _ (Ne.symm hk)⟩

theorem State.cmdRw_eq (s : State) (o : Nat) (b : Bool) (ie : Nat) (ben : BitVec 4) (d : Word) : s.cmdRw o b ie ben d = { s with regsBlk := (s.cmdRw o b ie ben d).regsBlk } := by
  unfold State.cmdRw State.rwBlk; split
  · rfl
  · split <;> rfl

theorem State.part_updPart_map (s : State) (p : Nat) (f : Partition → Partition) : (s.updPart p f).part p = (s.part p).map f := by
  simp [State.part, State.updPart]

theorem State.resetV_spec (s : State) (p : Nat) (x : Partition) (h : s.part p = some x) :
    ∃ vt, (s.resetV p).part p = some { x with vt := vt } ∧ (∀ k, k ≠ p → (s.resetV p).part k = s.part k) ∧
      s.resetV p = { s with parts := (s.resetV p).parts } := by
  unfold State.resetV
  simp only [List.foldl_cons, List.foldl_nil]
  have q : ∀ (a b c : Partition → List (Nat × Nat)), ∃ vt,
    (((s.updPart p fun x => { x with vt := a x }).updPart p fun x => { x with vt := b x }).updPart p fun x => { x with vt := c x }).part p = some { x with vt := vt } := by
    intro a b c
    rw [State.part_updPart_map, State.part_updPart_map, State.part_updPart_map, h]; exact ⟨_, rfl⟩
  obtain ⟨vt, hvt⟩ := q _ _ _
  refine Exists.intro vt (And.intro hvt (And.intro ?_ rfl))
  · intro k hk
    simp only [State.part, State.updPart]
    rw [Store.find_upd_other _ _ _ _ (Ne.symm hk), Store.find_upd_other _ _ _ _ (Ne.symm hk), Store.find_upd_other _ _ _ _ (Ne.symm hk)]

theorem State.portWrite_served (s : State) (p : Bool) (off : Nat) (ben : BitVec 4) (n : Bool) (f : State → State) (h1 : s.pins.fabClk = true)
    (h2 : s.portErr p false off = false) (h3 : n = false ∨ fullBen ben = true) (h4 : s.pins.aonRel = true) :
    s.portWrite p off ben n f = { f s with port := ⟨0, false⟩ } := by
  rcases h3 with h | h <;> simp [State.portWrite, h1, h2, h, h4, State.wrote]

theorem Store.exists_mem_of_find {α : Type} (st : Store α) (k : Nat) (x : α) (h : Store.find st k = some x) : ∃ p ∈ st, p.2 = x := by
  induction st with
  | nil => simp [Store.find] at h
  | cons p r ih =>
    obtain ⟨n, a⟩ := p
    by_cases e : n = k
    · simp [Store.find, e] at h; exact ⟨(n, a), by simp, h⟩
    · simp [Store.find, e] at h; obtain ⟨q, h1, h2⟩ := ih h; exact ⟨q, by simp [h1], h2⟩

theorem State.stream_of_streamOf (s : State) (p k : Nat) (x : Stream) (h : s.streamOf p k = some x) : s.stream k = some x := by
  unfold State.streamOf at h; unfold State.stream
  cases hk : Store.find s.seals.streams k with
  | none => simp [hk] at h
  | some y => simp [hk] at h; simp [h.2]

theorem rowAt_tapOwn (t : Nat) (h : t < 16) : rowAt aonTable (0xA40 + 4 * t) = some ⟨0xA40 + 4 * t, 0xBF, 0⟩ := by
  interval_cases t <;> decide

theorem State.eraseG_eq (s : State) (g : Nat) : s.eraseG g = { s with persist := (s.eraseG g).persist, units := (s.eraseG g).units, hw := { s.hw with slots := Store.del s.hw.slots g } } := by
  obtain ⟨e, -⟩ := State.slotDirty_eq s g (s.tilesAt g)
  unfold State.eraseG; simp only []
  rw [e]; rfl

theorem State.slot_eraseG (s : State) (g h : Nat) : (s.eraseG g).slot h = if h = g then HwSlot.blank else s.slot h := by
  unfold State.slot; rw [State.eraseG_eq]
  by_cases e : h = g
  · subst e; simp
  · simp [e, Ne.symm e, Store.find_del_other]

theorem State.foldl_eraseG_spec (l : List Nat) (s : State) : ∃ t, l.foldl (fun t g => t.eraseG g) s = t ∧
    t = { s with persist := t.persist, units := t.units, hw := { s.hw with slots := t.hw.slots } } ∧
    ∀ h, t.slot h = if h ∈ l then HwSlot.blank else s.slot h := by
  induction l generalizing s with
  | nil => exact ⟨s, rfl, rfl, by simp⟩
  | cons a l ih =>
    obtain ⟨t, e1, e2, e3⟩ := ih (s.eraseG a)
    refine ⟨t, by simpa using e1, ?_, ?_⟩
    · rw [e2, State.eraseG_eq]
    · intro h; rw [e3, State.slot_eraseG]
      by_cases h1 : h ∈ l <;> by_cases h2 : h = a <;> simp [h1, h2]

theorem State.eraseSlots_spec (s : State) (gs : List Nat) : ∃ t, s.eraseSlots gs = t ∧
    t = { s with reqs := t.reqs, persist := t.persist, units := t.units, hw := { s.hw with slots := t.hw.slots } } ∧
    (∀ h ∈ gs, (t.slot h).st = .empty) ∧ (∀ h, h ∉ gs → t.slot h = s.slot h) := by
  obtain ⟨t, e1, e2, e3⟩ := State.foldl_eraseG_spec (gs.filter (fun g => (s.slot g).st != .empty)) (s.eraseTargets gs)
  have sl : ∀ h, (s.eraseTargets gs).slot h = s.slot h := fun _ => rfl
  refine ⟨t, e1, ?_, ?_, ?_⟩
  · rw [e2]; rfl
  · intro h hh; rw [e3, sl]
    by_cases q : (s.slot h).st = .empty
    · simp [q]
    · simp [q, hh]; rfl
  · intro h hh; rw [e3, sl]; simp [hh]

theorem Store.del_eq_filter {α : Type} (st : Store α) (n : Nat) : Store.del st n = st.filter (fun p => p.1 != n) := by
  induction st with
  | nil => rfl
  | cons p r ih =>
    obtain ⟨k, a⟩ := p
    by_cases h : k = n <;> simp [Store.del, h, ih]

theorem foldl_del_eq_filter (l : List Nat) (st : Store Bytes) : l.foldl (fun t p => Store.del t p) st = st.filter (fun p => !l.contains p.1) := by
  induction l generalizing st with
  | nil => simp
  | cons a l ih =>
    simp only [List.foldl_cons]; rw [ih, Store.del_eq_filter, List.filter_filter]
    congr 1; funext p
    by_cases h1 : p.1 = a <;> by_cases h2 : p.1 ∈ l <;> simp [h1, h2]

theorem State.eraseKeks_spec (s : State) (ps : List Nat) : ∃ t, s.eraseKeks ps = t ∧
    t = { s with persist := t.persist, units := t.units, hw := { s.hw with keks := ps.foldl (fun t p => Store.del t p) s.hw.keks, badKeks := t.hw.badKeks } } ∧
    (∀ h, t.slot h = s.slot h) := by
  induction ps generalizing s with
  | nil => exact ⟨s, rfl, rfl, fun _ => rfl⟩
  | cons a l ih =>
    unfold State.eraseKeks
    simp only [List.foldl_cons]
    obtain ⟨t, e1, e2, e3⟩ := ih ((({ s with hw := { s.hw with keks := Store.del s.hw.keks a, badKeks := s.hw.badKeks.filter (· != a) } } : State).dirty 0).markStale (4608 + a))
    refine ⟨t, e1, ?_, fun h => e3 h⟩
    rw [e2]; rfl

theorem State.foldl_acctDirty_eq (l : List Nat) (s : State) : l.foldl (fun t n => t.acctDirty n) s = { s with persist := (l.foldl (fun t n => t.acctDirty n) s).persist } := by
  induction l generalizing s with
  | nil => rfl
  | cons a l ih => simp only [List.foldl_cons]; rw [ih]; rfl

theorem State.graft_eq (s : State) (b : GraftBody) : s.graft b = { s with pair := (s.graft b).pair } := by
  unfold State.graft; (repeat' split) <;> rfl

theorem State.grantLeases_spec (s : State) (seq : Nat) : ∃ t, s.grantLeases seq = t ∧
  t = { s with ledger := t.ledger, persist := t.persist, pair := t.pair } ∧
    t.persist.lastSeq = s.persist.lastSeq ∧ t.persist.ackBank = s.persist.ackBank := by
  unfold State.grantLeases
  generalize s.ledger.leases = l
  have key : ∀ (l : List Lease) (u : State), u = { s with ledger := u.ledger, persist := u.persist, pair := u.pair } →
    u.persist.lastSeq = s.persist.lastSeq → u.persist.ackBank = s.persist.ackBank →
    ∃ t, l.foldl (fun t l =>
      if l.image.isSome then t
      else
        match Store.find t.ledger.accts l.acct with
        | none => t
        | some a =>
          let n := max (acctHwm a t.inst) (l.idx + 1)
          let t := (t.putAcct l.acct (acctSetHwm a t.inst n)).graft (.lease l.acct n)
          let g := if t.pair.ident.paired ∧ t.session then some t.pair.txSeq else none
          { t with ledger := { t.ledger with leases := t.ledger.leases.map (fun (x : Lease) =>
              if x.acct = l.acct ∧ x.idx = l.idx then { x with image := some seq, graft := g } else x) } }) u = t ∧
                t = { s with ledger := t.ledger, persist := t.persist, pair := t.pair } ∧
    t.persist.lastSeq = s.persist.lastSeq ∧ t.persist.ackBank = s.persist.ackBank := by
    intro l
    induction l with
    | nil => intro u h1 h2 h3; exact ⟨u, rfl, h1, h2, h3⟩
    | cons a l ih =>
      intro u h1 h2 h3
      simp only [List.foldl_cons]
      split
      · exact ih u h1 h2 h3
      · split
        · exact ih u h1 h2 h3
        · rename_i _ b _
          have ge : ∀ (v : State) (b : GraftBody), v.graft b = { v with pair := (v.graft b).pair } := by
            intro v b; unfold State.graft; (repeat' split) <;> rfl
          refine ih _ ?_ ?_ ?_
          · rw [ge]; simp only [State.putAcct, State.acctDirty, State.dirty]; rw [h1]
          · rw [ge]; exact h2
          · rw [ge]; exact h3
  exact key l s rfl rfl rfl

theorem State.foldl_writeSection_eq (l : List Nat) (s : State) (seq : Nat) (b : Bool) : l.foldl (fun t c => t.writeSection seq b c) s = { s with fab := (l.foldl (fun t c => t.writeSection seq b c) s).fab } := by
  induction l generalizing s with
  | nil => rfl
  | cons a l ih => simp only [List.foldl_cons]; rw [ih]; rfl

theorem State.startImage_spec (s : State) : ∃ t o, s.startImage = t ∧ t.persist.out = some o ∧ o.seq = s.persist.lastSeq + 1 ∧
  o.bank = !s.persist.ackBank ∧ o.valid = false ∧
        t.persist.lastSeq = s.persist.lastSeq + 1 ∧ t.persist.change = false ∧ t.persist.lease = false ∧ t.persist.batch = false ∧
        t = { s with fab := t.fab, ledger := t.ledger, persist := t.persist, pair := t.pair } := by
  obtain ⟨t, e1, e2, e3, e4⟩ := State.grantLeases_spec s (s.persist.lastSeq + 1)
  unfold State.startImage
  simp only []; rw [e1, ← e4]
  cases hb : t.persist.ackBank <;> simp only [Bool.not_false, Bool.not_true, if_true, Bool.false_eq_true, if_false]
  all_goals (generalize List.filter _ allSections = w)
  all_goals
    cases w with
    | nil =>
      refine ⟨_, _, rfl, rfl, rfl, rfl, rfl, rfl, rfl, rfl, rfl, ?_⟩
      simp only [State.writeHeader, State.writes, List.isEmpty_nil, if_true]; rw [e2]
    | cons a l =>
      simp only [List.isEmpty_cons, Bool.false_eq_true, if_false]
      rw [State.foldl_writeSection_eq]
      refine ⟨_, _, rfl, rfl, rfl, rfl, rfl, rfl, rfl, rfl, rfl, ?_⟩
      rw [e2]

theorem benMask_bit0 : ∀ ben : BitVec 4, (benMask ben).getLsbD 0 = ben.getLsbD 0 := by decide

theorem State.stream_updStream (s : State) (k : Nat) (f : Stream →
  Stream) (x : Stream) (h : s.stream k = some x) : (s.updStream k f).stream k = some (f x) := by
  unfold State.stream at *; simp [State.updStream, h]

theorem State.foldGap_of_no_reason (s : State) (k n : Nat) (x : Stream) (h : s.stream k = some x) (hx : ∀ f ∈ x.frames,
  f.reason = none) : s.foldGap k n = s := by
  cases n with
  | zero => rfl
  | succ n =>
    unfold State.foldGap; simp only [h]
    cases hf : x.frames with
    | nil => rfl
    | cons f fs => simp only [hx f (by simp [hf]), Option.isNone_none, if_true]

theorem State.serve_spec (s : State) (k svc : Nat) (f : State → Bytes → Nat × Bytes × State) (l : List Taken) (i : Nat) (m : Taken)
    (h1 : s.takenOf k = l) (h2 : l.findIdx? (fun t => t.reply.isNone) = some i) (h3 : l[i]? = some m) (h4 : m.dropped = false) (h5 : s.mbxServed = true)
    (h6 : mSvc m.bytes = svc) (st : Nat) (a : Bytes) (t : State) (hf : f s m.bytes = (st, a, t)) :
    s.serve k svc f = t.setTaken k (l.set i { m with reply := some (reply m.bytes m.origin st a) }) := by
  unfold State.serve
  rw [h1]; simp only [h2, h3]
  rw [if_neg (by simp [h5, h6]), hf]
  simp only [h4, Bool.false_eq_true, if_false]

theorem length_slice (b : Bytes) (o n : Nat) : (slice b o n).length = n := by
  unfold slice; simp [zeros]

theorem zeroAt_zero (b : Bytes) (n : Nat) : zeroAt b n 0 = true := by simp [zeroAt, slice, zeros]

theorem State.logFault_spec (u : State) (m : FaultMsg) (b : Bool) : ∃ v, u.logFault m b = v ∧ v = { u with flt := v.flt } ∧
  v.flt.lastSrc = m.src ∧ v.flt.lastKind = m.kind ∧
    v.flt.new = u.flt.new ∧ v.flt.errLatch = u.flt.errLatch ∧
    (∀ k e, u.openEntry m = some (k, e) → Store.find v.flt.log k = some { e with count := e.count + 1, last := u.time.ns, fatal := e.fatal || b, sat := decide (0xFFFF ≤ e.count + 1) }) ∧
    (∀ k, u.openEntry m = none → u.freeEntry b = some k → Store.find v.flt.log k = some
          { eid := u.flt.nextEid, msg := m, fatal := b, sat := false, count := 1, first := u.time.ns, last := u.time.ns, closed := false }) := by
  unfold State.logFault
  obtain ⟨w, hw⟩ : ∃ w : State, w = { u with flt := { u.flt with lastSrc := m.src, lastKind := m.kind } } := ⟨_, rfl⟩
  simp only []
  rw [← hw]
  have e1 : w.openEntry m = u.openEntry m := by rw [hw]; rfl
  have e2 : w.freeEntry b = u.freeEntry b := by rw [hw]; rfl
  rw [e1, e2]
  cases h1 : u.openEntry m with
  | some p =>
    obtain ⟨k, e⟩ := p
    subst hw; refine ⟨_, rfl, rfl, rfl, rfl, rfl, rfl, ?_, ?_⟩
    · intro k' e' h; simp only [Option.some.injEq, Prod.mk.injEq] at h; obtain ⟨rfl, rfl⟩ := h
      exact Store.find_put_self _ _ _
    · intro k' h; cases h
  | none =>
    cases h2 : u.freeEntry b with
    | some k =>
      subst hw; refine ⟨_, rfl, rfl, rfl, rfl, rfl, rfl, ?_, ?_⟩
      · intro _ _ h; cases h
      · intro k' _ h; cases h; exact Store.find_put_self _ _ _
    | none =>
      subst hw; refine ⟨_, rfl, rfl, rfl, rfl, rfl, rfl, ?_, ?_⟩
      · intro _ _ h; cases h
      · intro _ _ h; cases h

theorem Partition.rw_eq (p : Partition) (o : Nat) (b : BitVec 4) (d : Word) : p.rw o b d = { p with regs := (p.rw o b d).regs } := by
  unfold Partition.rw; split <;> rfl

theorem rowAt_vecCtl (v : Nat) (h : v < 32) : rowAt partTable (0x40C + 16 * v) = some ⟨0x40C + 16 * v, 0x1FFFF, 0x10001⟩ := by
  interval_cases v <;> decide

theorem benMask_bit8 : ∀ ben : BitVec 4, (benMask ben).getLsbD 8 = ben.getLsbD 1 := by decide

theorem Partition.masked_rw (p : Partition) (v w : Nat) (h : v < 32) : (p.rw (0x40C + 16 * v) 0x4#4 0x10000).masked w = (decide (w = v) ||
  p.masked w) := by
  unfold Partition.rw; rw [rowAt_vecCtl v h]
  unfold Partition.masked Partition.vecCtl Partition.setReg Partition.reg
  simp only []
  by_cases e : w = v
  · subst e; rw [RegFile.get_set_self]
    have : ∀ o : Word, bitAt (mergeWord o 0x1FFFF 0x4#4 0x10000).toNat 16 = true := by
      intro o; show (mergeWord o 0x1FFFF 0x4#4 0x10000).getLsbD 16 = true
      unfold mergeWord; simp only [BitVec.getLsbD_or, BitVec.getLsbD_and]
      have : (0x10000 : Word).getLsbD 16 = true ∧ (benMask 0x4#4).getLsbD 16 = true ∧ (wordOf 0x1FFFF).getLsbD 16 = true := by decide
      rw [this.1, this.2.1, this.2.2]; simp
    rw [this]; simp
  · rw [RegFile.get_set_other _ _ _ _ _ _ (by omega)]; simp [e]

theorem State.foldl_setMask_spec (l : List Nat) (part : Nat) (s : State) (y : Partition) (hl : ∀ v ∈ l, v < 32) (h : s.part part = some y) :
    ∃ t z, l.foldl (fun t v => t.setMask part v true) s = t ∧ t.part part = some z ∧ (∀ v, z.masked v = (decide (v ∈ l) || y.masked v)) ∧
      t = { s with parts := t.parts } := by
  induction l generalizing s y with
  | nil => exact ⟨s, y, rfl, h, by simp, rfl⟩
  | cons a l ih =>
    obtain ⟨t, z, e1, e2, e3, e4⟩ := ih (s.setMask part a true) (y.rw (0x40C + 16 * a) 0x4#4 0x10000) (fun v hv => hl v (by simp [hv])) (State.part_updPart s part _ y h)
    refine ⟨t, z, by simpa using e1, e2, fun v => ?_, ?_⟩
    · rw [e3, Partition.masked_rw _ _ _ (hl a (by simp))]; by_cases q1 : v = a <;> by_cases q2 : v ∈ l <;> simp [q1, q2]
    · rw [e4]; rfl

theorem mergeWord_bit8 (o : Word) (m : Nat) (ben : BitVec 4) (d : Word) (hb : ben.getLsbD 1 = true) (hm : m.testBit 8 = true) : bitAt (mergeWord o m ben (d ||| 0x100#32)).toNat 8 = true := by
  show (mergeWord o m ben (d ||| 0x100#32)).getLsbD 8 = true
  unfold mergeWord; simp only [BitVec.getLsbD_or, BitVec.getLsbD_and, benMask_bit8, hb]
  have : (0x100#32).getLsbD 8 = true := by decide
  rw [this]
  have : (wordOf m).getLsbD 8 = true := by simp [wordOf, BitVec.getLsbD_ofNat, hm]
  rw [this]; simp

theorem State.foldl_telPut_eq (l : List (Option Nat)) (s : State) : ∃ t, l.foldl State.telPut s = t ∧ t = { s with fab := t.fab, bg := t.bg } ∧
  t.bg = { s.bg with telTail := t.bg.telTail } := by
  induction l generalizing s with
  | nil => exact ⟨s, rfl, rfl, rfl⟩
  | cons a l ih =>
    obtain ⟨t, e1, e2, e3⟩ := ih (s.telPut a)
    refine ⟨t, by simpa using e1, ?_, ?_⟩
    · rw [e2]; rfl
    · rw [e3]; rfl

theorem State.rxGraft_taken (s : State) (g : Nat) (b : Bool) (f : State → State) (h1 : s.session = true) (h2 : b = true) (h3 : g = s.pair.rxSeq + 1) :
    s.rxGraft g b f = (f { s with pair := { s.pair with rxSeq := g } }).ackUp.trySync := by
  unfold State.rxGraft; rw [if_pos (by simp [h1, h2, h3])]

theorem State.rxGraft_ignored (s : State) (g : Nat) (b : Bool) (f : State → State) (h : s.session = false ∨ b = false ∨
  g ≠ s.pair.rxSeq + 1) : s.rxGraft g b f = s := by
  unfold State.rxGraft; rw [if_neg (by rcases h with h | h | h <;> simp [h])]

theorem State.pairRise_eq (s : State) : s.pairRise = { s with irq := s.pairRise.irq } := by
  unfold State.pairRise; split <;> rfl

theorem State.linkChanged_eq (s : State) : s.linkChanged = { s with pair := { s.pair with linkChg := true }, irq := s.linkChanged.irq } := by
  unfold State.linkChanged; split
  · next h => rw [← h]
  · rw [State.pairRise_eq]

theorem State.linkTo_eq (s : State) (l : Link) (h : s.session = false) : ∃ (c : Bool) (i : Irq),
  s.linkTo l = { s with pair := { s.pair with link := l, linkChg := c }, irq := i } := by
  unfold State.linkTo
  have h1 : s.pair.link ≠ .resync := by intro q; simp [State.session, q] at h
  have h2 : s.pair.link ≠ .synced := by intro q; simp [State.session, q] at h
  by_cases q : s.pair.link = l
  · rw [if_pos q]; exact ⟨s.pair.linkChg, s.irq, by rw [← q]⟩
  · rw [if_neg q]; simp only []; rw [if_neg h2, if_neg (fun q => h1 q.1), State.linkChanged_eq]
    exact ⟨true, _, rfl⟩

theorem State.linkReset_eq (s : State) (h : s.session = false) : ∃ (c : Bool) (i : Irq),
  s.linkReset = { s with pair := { s.pair with link := .reset, linkChg := c, rxLanes := List.replicate 4 LinkLane.reset, lanes := 0 }, irq := i, pins := { s.pins with phyRst := true } } := by
  obtain ⟨c, i, e⟩ := State.linkTo_eq s .reset h
  exact ⟨c, i, by unfold State.linkReset; rw [e]; rfl⟩

theorem State.linkCheck_eq (s : State) (h : s.session = false) : ∃ (l : Link) (c : Bool) (i : Irq) (r : List LinkLane) (n : Nat) (p : Bool),
  s.linkCheck = { s with pair := { s.pair with link := l, linkChg := c, rxLanes := r, lanes := n }, irq := i, pins := { s.pins with phyRst := p } } := by
  unfold State.linkCheck
  split
  · split
    · obtain ⟨c, i, e⟩ := State.linkReset_eq s h
      exact ⟨_, _, _, _, _, _, e⟩
    · exact ⟨s.pair.link, s.pair.linkChg, s.irq, s.pair.rxLanes, s.pair.lanes, s.pins.phyRst, rfl⟩
  · obtain ⟨c, i, e⟩ := State.linkTo_eq s .off h
    exact ⟨.off, c, i, List.replicate 4 LinkLane.reset, 0, true, by simp only []; rw [e]; rfl⟩

theorem State.pairRefuse_eq (s : State) (n : Nat) : s.pairRefuse n = { s with pair := { s.pair with cmdRej := true, rejReason := n }, irq := (s.pairRefuse n).irq } := by
  unfold State.pairRefuse; simp only []; split
  · rfl
  · rw [State.pairRise_eq]

theorem State.setIdent_spec (s : State) (i : PairId) (w : Bool) (h : s.session = false) : ∃ t, s.setIdent i w = t ∧ t.pair.ident = i ∧
  t.pair.cmdWait = some s.nextSeq ∧ t.persist.change = true ∧
            t.ledger.accts = s.ledger.accts ∧ t.ledger.leases = (if s.inst = (if i.paired then i.inst else 0) then s.ledger.leases else []) ∧
            t.pair.instConflict = false ∧ t.pair.dualActive = false := by
  unfold State.setIdent
  obtain ⟨v, hv⟩ : ∃ v : State, v = ({ s with
    ledger := { s.ledger with
      leases := if s.inst == (if i.paired then i.inst else 0) then s.ledger.leases else [], solo := s.ledger.solo && i.paired }
    pair := { s.pair with ident := i, acctWait := w, instConflict := false, dualActive := false, cmdWait := some s.nextSeq } } : State).dirty 0 := ⟨_, rfl⟩
  simp only []
  rw [← hv]
  have vs : v.session = false := by rw [hv]; exact h
  have vl : v.ledger.leases = if s.inst = (if i.paired then i.inst else 0) then s.ledger.leases else [] := by
    rw [hv]; show (if (s.inst == _) = true then _ else _) = _; simp
  have key : ∀ (l : Link) (c : Bool) (iq : Irq) (r : List LinkLane) (n : Nat) (p : Bool),
    ({ v with pair := { v.pair with link := l, linkChg := c, rxLanes := r, lanes := n }, irq := iq, pins := { v.pins with phyRst := p } } : State).pair.ident = i ∧
     v.pair.cmdWait = some s.nextSeq ∧ v.persist.change = true ∧ v.ledger.accts = s.ledger.accts ∧
       v.ledger.leases = (if s.inst = (if i.paired then i.inst else 0) then s.ledger.leases else []) ∧ v.pair.instConflict = false ∧
       v.pair.dualActive = false := by
    intros; refine ⟨?_, ?_, ?_, ?_, vl, ?_, ?_⟩ <;> rw [hv] <;> rfl
  obtain ⟨l, c, iq, r, n, p, e⟩ := State.linkCheck_eq v vs
  split
  · split
    · obtain ⟨c, iq, e⟩ := State.linkReset_eq v vs
      rw [e]; exact ⟨_, rfl, key .reset c iq (List.replicate 4 LinkLane.reset) 0 true⟩
    · rw [e]; exact ⟨_, rfl, key l c iq r n p⟩
  · rw [e]; exact ⟨_, rfl, key l c iq r n p⟩

end Sys2Proof.Machine
end

