-- ==== Sys2Proof/WellFormed.lean ====
section
/-! DEFINITION. Which commands are well formed: the numbers that a command carries lie in the ranges of the ports,
pages and units of spec/00 R20, spec/02 R59, R73 and spec/19, 20. -/

namespace Sys2Proof

/-- A unit number of R516: cipher lanes, digest lanes, clusters, sap taps. -/
def isUnit (u : Nat) : Bool :=
  decide (u < 24) || (decide (0x20 ≤ u) && decide (u < 0x30)) || (decide (0x30 ≤ u) && decide (u < 0x38))
    || (decide (0x70 ≤ u) && decide (u < 0x80))

/-- A fault source of R480. -/
def isSource (n : Nat) : Bool :=
  isUnit n || (decide (0x40 ≤ n) && decide (n < 0x44))
    || [0x48, 0x49, 0x4A, 0x50, 0x51, 0x58, 0x59, 0x60, 0x68, 0x80, 0x81, 0x88, 0x89, 0x8A, 0x8B].contains n

/-- The numbers of a command lie in the block's ranges: fabric ports 0–3 (R59), 24 offset bits (R73), partitions and
queues 0–63 (R20), push windows 0–15 with 128 words (R144), vectors 0–31 (R171), taps 0–15 and mailboxes 0–7 (R20),
sources and kinds of R478 and R480, link lanes 0–3 (R80), the operand tiles of clusters 0–7 (R504). -/
def Instr.wellFormed : Instr → Bool
  | .tamperRegistered k => decide (k < 4)
  | .readReturnBeat port tag idx _ _ => decide (port < 4) && decide (tag < 256) && decide (idx < 32)
  | .writeCompletion port tag _ => decide (port < 4) && decide (tag < 128)
  | .fabricTimeout port w tag => decide (port < 4) && decide (tag < if w then 128 else 256)
  | .fabricCommandTransfer port => decide (port < 4)
  | .regWrite _ _ off _ => decide (off < 0x200000) && decide (off % 4 = 0)
  | .unitStageTestDone u _ => isUnit u
  | .idleGateExpiry u => isUnit u
  | .unitWakeReady u => isUnit u
  | .sqDb p q _ _ => decide (p < 64) && decide (q < 64)
  | .cqDb p q _ _ => decide (p < 64) && decide (q < 64)
  | .inval p q _ _ => decide (p < 64) && decide (q < 64)
  | .qCtlWrite p q _ _ => decide (p < 64) && decide (q < 64)
  | .entryFetchDone p q => decide (p < 64) && decide (q < 64)
  | .admitEntry p q => decide (p < 64) && decide (q.queue < 64)
  | .pushWordWrite p w k _ _ => decide (p < 64) && decide (w < 16) && decide (k < 128)
  | .pushTake p w k _ => decide (p < 64) && decide (w < 16) && decide (k < 16)
  | .tapHeaderBeat t _ _ => decide (t < 16)
  | .tapDataBeat t _ _ => decide (t < 16)
  | .tapEofBeat t _ _ => decide (t < 16)
  | .tapAbortBeat t _ _ => decide (t < 16)
  | .sealDb p st _ _ => decide (p < 64) && decide (st < 64)
  | .tapOwnWrite _ _ t _ => decide (t < 16)
  | .vecCtlWrite p v _ _ => decide (p < 64) && decide (v < 32)
  | .mbGo _ _ k _ => decide (k < 8)
  | .mbDone _ _ k _ => decide (k < 8)
  | .mbTake k => decide (k < 4)
  | .mbReplyPost k => decide (k < 4)
  | .faultMessage src kind _ => isSource src && decide (kind < 16)
  | .watchdogExpiry src _ => isSource src
  | .faultForce _ _ src _ => isSource src
  | .scrubTile store sub _ _ _ => store != .operand || decide (sub < 8)
  | .rlkBlockRx lane _ _ _ => decide (lane < 4)
  | _ => true

end Sys2Proof
end

