-- ==== Sys2Proof/Tests/Slice0.lean ====
section
/-! SUPPORT. The author's own tests: ill-formed commands, small steps whose results the spec gives, and for each statement with hypotheses
a theorem that shows concrete states and operands meeting the hypotheses of each of its clauses. -/

namespace Sys2Proof.Tests

open Sys2Proof Sys2Proof.Machine

/-! ### States -/

/-- A block in SERVICE: both resets released, the FLL locked, RAND_RDY set. -/
def on : State :=
  { State.reset with
    pins := { Pins.reset with aonRel := true, blkRel := true, aonFreq := 3840 }
    mode := { ModeCtl.reset 0 with mode := .service, fllOn := true, fllLock := true, served := true }
    rng := { Rng.reset with ready := true } }

/-- The same in another mode. -/
def inMode (m : Mode) (s : State) : State := { s with mode := { s.mode with mode := m } }

/-- The same with another TARGET. -/
def aim (g : Target) (s : State) : State := { s with mode := { s.mode with target := g } }

/-- The same in a phase of ATTEST. -/
def inPhase (p : Phase) (s : State) : State := { s with mode := { s.mode with mode := .attest, phase := p } }

/-- A unit changed. -/
def unitAs (n : Nat) (f : UnitSt → UnitSt) (s : State) : State := s.updUnit n f

/-- A partition with four slots, eight vectors and one lease. -/
def assign1 : Assign :=
  { queues := 4, slots := 4, ctx := 4, leases := 1, vectors := 8, shareMw := 100, weight := 1, classLimit := 0, urgQuota := 4 }

/-- SERVICE with partition 0 on global slots 0 to 3; its admin queue 0 is enabled. -/
def part0 : Partition :=
  let p := Partition.fresh assign1 [0, 1, 2, 3]
  { p with queues := [(0, { queue0 assign1 with en := true })] }

def serving : State := { on with parts := [(0, part0)] }

/-- A 64-byte entry with bytes at some offsets. -/
def entry (l : List (Nat × Nat)) : Bytes := (List.range 64).map (fun i => byteOf ((l.find? (fun p => p.1 == i)).elim 0 (·.2)))

/-- An admitted request of partition 0, queue 0. -/
def request (op : Nat) (l : List (Nat × Nat)) : Req :=
  { Req.kek 0 0 1 with
    owner := .queue, opcode := op, origOp := op, entry := entry l, phase := .admitted, credit := true, units := [] }

/-- A state with that request as number 1. -/
def withReq (s : State) (r : Req) : State := { s with reqs := [(1, r)], nextId := 9 }

/-- An image whose header is written. -/
def outImage : ImgOut := { seq := 5, bank := true, dirty := [0], valid := true, left := 0, headerOut := true, accts := [] }

/-- The retained state image of an empty block. -/
def kept : Retained :=
  { parts := [], accts := [], streams := [], ident := PairId.reset, acctWait := false, persist := Persist.reset, persCtl := 0, units := [] }

/-! ### Ill-formed commands: one for each range of WellFormed -/

theorem test_ill_formed_ports :
    (Instr.readReturnBeat 4 0 0 0 0).wellFormed = false ∧ (Instr.readReturnBeat 0 256 0 0 0).wellFormed = false ∧
    (Instr.readReturnBeat 0 0 32 0 0).wellFormed = false ∧ (Instr.writeCompletion 4 0 0).wellFormed = false ∧
    (Instr.writeCompletion 0 128 0).wellFormed = false ∧ (Instr.fabricTimeout 4 true 0).wellFormed = false ∧
    (Instr.fabricTimeout 0 true 128).wellFormed = false ∧ (Instr.fabricTimeout 0 false 256).wellFormed = false ∧
    (Instr.fabricCommandTransfer 4).wellFormed = false ∧ (Instr.tamperRegistered 4).wellFormed = false ∧
    (Instr.rlkBlockRx 4 (some 0) true []).wellFormed = false ∧ (Instr.regWrite true 0xF 0x200000 0).wellFormed = false ∧
    (Instr.regWrite true 0xF 0x102 0).wellFormed = false ∧ (Instr.scrubTile .operand 8 0 true false).wellFormed = false := by decide

theorem test_ill_formed_units_and_queues :
    (Instr.unitStageTestDone 24 true).wellFormed = false ∧ (Instr.idleGateExpiry 0x38).wellFormed = false ∧
    (Instr.unitWakeReady 0x80).wellFormed = false ∧ (Instr.sqDb 64 0 0xF 0).wellFormed = false ∧ (Instr.cqDb 0 64 0xF 0).wellFormed = false ∧
    (Instr.inval 64 0 0xF 0).wellFormed = false ∧ (Instr.qCtlWrite 0 64 0xF 0).wellFormed = false ∧
    (Instr.entryFetchDone 64 0).wellFormed = false ∧ (Instr.admitEntry 0 ⟨64, none⟩).wellFormed = false ∧
    (Instr.pushWordWrite 0 16 0 0xF 0).wellFormed = false ∧ (Instr.pushWordWrite 0 0 128 0xF 0).wellFormed = false ∧
    (Instr.pushTake 0 0 16 0).wellFormed = false ∧ (Instr.vecCtlWrite 0 32 0xF 0).wellFormed = false := by decide

theorem test_ill_formed_taps_boxes_sources :
    (Instr.tapHeaderBeat 16 0 0).wellFormed = false ∧ (Instr.tapDataBeat 16 0 0).wellFormed = false ∧
    (Instr.tapEofBeat 16 0 0).wellFormed = false ∧ (Instr.tapAbortBeat 16 0 0).wellFormed = false ∧
    (Instr.sealDb 0 64 0xF 0).wellFormed = false ∧ (Instr.tapOwnWrite true 0xF 16 0).wellFormed = false ∧
    (Instr.mbGo true 0xF 8 0).wellFormed = false ∧ (Instr.mbDone true 0xF 8 0).wellFormed = false ∧ (Instr.mbTake 4).wellFormed = false ∧
    (Instr.mbReplyPost 4).wellFormed = false ∧ (Instr.faultMessage 0x18 0 0).wellFormed = false ∧
    (Instr.faultMessage 0 16 0).wellFormed = false ∧ (Instr.watchdogExpiry 0x44 0).wellFormed = false ∧
    (Instr.faultForce true 0xF 0x90 0).wellFormed = false := by decide

theorem test_well_formed :
    (Instr.regWrite true 0xF 0x100 0).wellFormed = true ∧ (Instr.faultMessage 0x8B 15 0).wellFormed = true ∧
    (Instr.readReturnBeat 3 255 31 0 0).wellFormed = true ∧ (Instr.unitWakeReady 0x7F).wellFormed = true := by decide

/-- The table gives no command bits (spec/opcode_table.json), so no word spells one. -/
theorem test_no_word_spells_a_command : decodeTableWord 16 0x4303 = none := by decide

/-! ### Hypotheses met: the block, its pins and its modes -/

theorem witness_StepRunsFrontCommand : ({ on with pending := [.drainComplete, .reseedDue] } : State).pending = .drainComplete :: [.reseedDue] := rfl

theorem witness_IdleStepCountsSealTime :
    (on.pending = [] ∧ on.pins.aonRel = true ∧ on.pins.aonFreq ≠ 0) ∧ (State.reset.pending = [] ∧ State.reset.pins.aonRel = false) := by
  decide

theorem witness_StepKeepsInvariant : State.reset.Inv ∧ step State.reset = .next State.reset := by
  refine ⟨?_, rfl⟩
  unfold State.Inv; decide

theorem witness_OnlyNamedCommandsMove :
    Instr.drainComplete ≠ .rstAonNAssert ∧ (∀ f o m, Instr.drainComplete ≠ .rstAonNRelease f o m) ∧ Instr.drainComplete ≠ .rstBlkNAssert ∧
    Instr.drainComplete ≠ .rstBlkNRelease ∧ Instr.drainComplete ≠ .powerLoss ∧ (∀ p b d, Instr.drainComplete ≠ .sealTimeHiWrite p b d) ∧
    (∀ p b d, Instr.drainComplete ≠ .regWrite p b 0xA04 d) ∧ (∀ r m i, Instr.drainComplete ≠ .testAccess r m i) ∧
    exec .drainComplete on = .next on := by
  refine ⟨nofun, nofun, nofun, nofun, nofun, nofun, nofun, nofun, rfl⟩

theorem witness_ResetRegisterValues : (0x200, 8000) ∈ ([(0x0, 0x00030100), (0x200, 8000)] : List (Nat × Nat)) := by decide

theorem witness_BlockResetKeepsAlwaysOnIsland : on.pins.aonRel = true ∧ on.pins.blkRel = true ∧ on.mode.mode ≠ .test := by decide

theorem witness_ResetReleases :
    (State.reset.pins.aonRel = false ∧ State.reset.pins.testMode = false) ∧
    (({ State.reset with pins := { Pins.reset with testMode := true } } : State).pins.testMode = true) ∧
    (∀ f ∈ [1920, 7680, 1919, 7681], let s : State := inMode .inReset { on with pins := { on.pins with blkRel := false, aonFreq := f } }
      s.pins.aonRel = true ∧ s.pins.blkRel = false ∧ s.mode.mode ≠ .test ∧
        ((1920 ≤ s.pins.aonFreq ∧ s.pins.aonFreq ≤ 7680) ∨ (s.pins.aonFreq < 1920 ∨ 7680 < s.pins.aonFreq))) := by decide

/-- A block whose FLL has not locked. -/
def unlocked : State := { on with mode := { on.mode with mode := .inReset, fllLock := false, safe := true } }

theorem witness_FllLockStartsAttestOrWake :
    (unlocked.mode.fllOn = true ∧ unlocked.mode.fllLock = false ∧ unlocked.mode.mode = .inReset ∧ unlocked.pins.blkRel = true) ∧
    (let s : State := { inMode .waking unlocked with retained := some kept }
     s.mode.fllOn = true ∧ s.mode.fllLock = false ∧ s.mode.mode = .waking ∧ s.retained = some kept ∧ s.gov.grants = [] ∧
      s.pair.link = .off ∧ s.pins.rootKeyVld = false) ∧
    (inMode .test unlocked).mode.mode = .test := by decide

theorem witness_TestModePin :
    (on.pins.aonRel = true ∧ on.mode.mode ≠ .test ∧ on.pair.link = .off ∧ on.retained = none) ∧
    ({ on with pair := { Pair.reset with link := .synced } } : State).pair.link ≠ .off ∧ State.reset.pins.aonRel = false := by decide

theorem witness_CorePowerAndFabricClock :
    (let s := aim .service (inMode .dormant on); s.mode.mode = .dormant ∧ s.mode.target ≠ .dormant) ∧ on.mode.mode ≠ .dormant ∧
    (let s := aim .dormant (inMode .dormant on)
     s.mode.target = .dormant ∧ s.pins.fabClk = true ∧ s.mode.mode = .dormant ∧ s.fabIdle = true) ∧
    (State.reset.pins.fabClk = true ∧ State.reset.pins.blkRel = false ∧ State.reset.fabIdle = true) := by decide

theorem witness_RootKeyAndTamper :
    (let s := inPhase .a1 on
     s.mode.phase = .a1 ∧ s.mode.keySampled = false ∧ s.pins.rootKeyVld = false ∧ (1 : BitVec 256) ≠ 0 ∧
      (1 : BitVec 256) ≠ BitVec.allOnes 256) ∧
    on.mode.phase ≠ .a1 ∧ (on.pins.aonRel = true ∧ 3 < 4) ∧ State.reset.pins.aonRel = false := by
  refine ⟨⟨rfl, rfl, rfl, ?_, ?_⟩, ?_⟩ <;> decide

/-- A negotiation under way for a waiting stage test. -/
def asking : State :=
  { on with
    pins := { on.pins with pwrReq := true }
    regsAon := [(0x200, 300), (0x208, 0x644E20)]
    gov := { on.gov with grants := [{ gid := 1, what := .stageTest, units := [0], part := none, charge := 9000, cls := 0, seq := 1 }] } }

theorem witness_PowerNegotiation :
    asking.pins.aonRel = true ∧ asking.pins.pwrReq = true ∧ asking.gov.granted = false ∧ asking.mode.safe = false ∧ asking.wantsHigh = true ∧
    (let s : State := { asking with mode := { asking.mode with safe := true } }; s.pins.pwrReq = true ∧ s.gov.granted = false ∧ s.mode.safe = true) ∧
    on.pins.pwrReq = false ∧ (let s : State := { on with gov := { on.gov with granted := true } }; s.pins.pwrReq = false ∧ s.gov.granted = true) ∧
    on.gov.granted = false ∧
    (let s : State := { on with pins := { on.pins with pwrReq := true }, gov := { on.gov with granted := true } }
     s.pins.pwrReq = true ∧ s.gov.granted = true ∧ s.usedMw ≤ s.budgetMw ∧ s.borrowMw ≤ s.pool s.budgetMw) := by decide

theorem witness_TestPortFollowsJtag :
    (∀ st ∈ [TapState.captureDr, .shiftDr, .captureIr, .shiftIr],
      ({ on with jtag := { on.jtag with st := st } } : State).jtag.st = st) ∧ on.jtag.ir = 1 ∧
    (let s : State := { on with jtag := { on.jtag with ir := 8 } }; s.jtag.ir ≠ 1 ∧ s.pins.testMode = false) ∧
    (let s : State := { on with jtag := { on.jtag with st := .exit1Ir, irSh := [true, false, false, false] } }
     s.jtag.st.next true = .updateIr ∧ s.jtag.irSh = [true, false, false, false] ∧ s.jtag.st ≠ .shiftIr) := by decide

theorem witness_TargetWrites :
    (∀ m ∈ [Mode.waking, .attest, .service, .maintenance, .dormant, .follower],
      let s := inMode m on; s.pins.fabClk = true ∧ s.pins.aonRel = true ∧ s.portErr true false 0x100 = false ∧ s.mode.mode = m) ∧
    (0x1#4).getLsbD 0 = true ∧ (inMode .maintenance on).maintBusy = false ∧ (inMode .dormant on).pins.corePwrGood = true ∧
    (Instr.targetDormant true 0x1 false, Target.dormant) ∈ [(Instr.targetDormant true 0x1 false, Target.dormant)] := by decide

theorem witness_ReservedTargetRefused :
    (on.pins.fabClk = true ∧ on.pins.aonRel = true ∧ on.portErr true false 0x100 = false ∧ on.mode.mode ≠ .inReset) ∧
    (let s := inMode .inReset State.reset
     let t : State := { s with pins := { s.pins with aonRel := true } }
     t.pins.fabClk = true ∧ t.pins.aonRel = true ∧ t.portErr true false 0x100 = false ∧ t.mode.mode = .inReset) := by decide

theorem witness_DrainAndItsLimit :
    (∀ g ∈ [Target.dormant, .follower], let s := aim g (inMode .drain on)
      s.mode.mode = .drain ∧ s.mode.target = g ∧ s.drained = true ∧ s.mode.drainForced = false ∧ s.aon 0x10C % 2 ^ 24 ≠ 0 ∧ s.reqs = [] ∧
        s.persist.out = none) ∧
    (let s := aim .drain (inMode .drain on)
     s.mode.target = .drain ∧ s.pins.fabClk = true ∧ s.pins.aonRel = true ∧ s.portErr true false 0x10C = false) := by decide

/-- Phase A1 with the root key sampled. -/
def sampled : State :=
  let s := inPhase .a1 on
  { s with mode := { s.mode with keySampled := true }, hw := { s.hw with dk := some (zeros 32) } }

theorem witness_AttestReadsBanks :
    ((inPhase .a1 on).mode.phase = .a1 ∧ (inPhase .a1 on).mode.keySampled = false) ∧
    (sampled.mode.mode = .attest ∧ sampled.mode.phase = .a1 ∧ sampled.mode.keySampled = true ∧ sampled.hw.dk ≠ none ∧
      sampled.pair.link = .off ∧ bitAt (sampled.blk 0xD08) 0 = false) ∧
    (let s : State := { sampled with regsBlk := [(0xD08, 1)] }
     s.mode.phase = .a1 ∧ s.mode.keySampled = true ∧ s.hw.dk ≠ none ∧ bitAt (s.blk 0xD08) 0 = true) ∧
    (on.pins.fabClk = true ∧ on.pins.aonRel = true ∧ on.portErr true false 0xD08 = false ∧ on.mode.phase ≠ .a2Wait) ∧
    (let s := inPhase .a2Wait on
     s.portErr true false 0xD08 = false ∧ s.mode.phase = .a2Wait ∧ (0x1#4).getLsbD 0 = true ∧ (0x1#32).getLsbD 0 = true) := by decide

/-- A bank with nothing in it. -/
def emptyBank (ok : Bool) : BankRead :=
  { readOk := ok, dk := [], checkOk := ok, headerOk := ok, seq := 7, bodyOk := ok
    image := { ident := PairId.reset, acctWait := false, parts := [], slots := [], keks := [], accts := [] } }

theorem witness_BankSelection :
    (let s := inPhase .a2Read on
     s.mode.phase = .a2Read ∧ s.fab.any (fun t => t.purpose == .bankRead && t.phase != .held) = false ∧ s.pair.link = .off) ∧
    selectBank (emptyBank true) (emptyBank false) = some false ∧ selectBank (emptyBank false) (emptyBank false) = none ∧
    ({ on with hw := { on.hw with alarm := true } } : State).hw.alarm = true := by decide

/-- A bank written under another device key. -/
theorem witness_BankSelection_key :
    let x : BankRead := { emptyBank true with dk := [byteOf 1] }
    kdf256 x.dk (ascii "BNK") [] ≠ on.devKey "BNK" [] := by decide +kernel

/-! ### Hypotheses met: units, fabric, register port, doorbells -/

/-- Lane 0 under its stage test, lane 1 still to be tested. -/
def staging0 : State := unitAs 0 (fun u => { u with power := .awake, work := .stageTest }) on

theorem witness_UnitStageTestsAndWakeEnd :
    (0 ∈ stageUnits staging0.mode.stage ∧ staging0.mode.stage < 8 ∧ 1 ∈ stageUnits staging0.mode.stage ∧ (staging0.unit 1).tested = false ∧
      (staging0.unit 0).work = .stageTest ∧ (staging0.unit 0).power = .awake ∧ (staging0.unit 0).fltFence = false ∧
      staging0.mode.mode ≠ .attest) ∧
    (let s : State := { inPhase .a2Done staging0 with pair := { on.pair with ident := ⟨true, 1, 0, true⟩ } }
     (s.unit 0).work = .stageTest ∧ s.mode.mode = .attest ∧ s.mode.phase = .a2Done ∧ s.pair.ident.standby = true ∧
      s.mode.target = .service) ∧
    (∀ b ∈ [true, false],
      let s : State := unitAs 23 (fun u => { u with power := .awake, passed := true })
        { inMode .waking on with pair := { on.pair with ident := ⟨true, 1, 0, b⟩ } }
      s.mode.mode = .waking ∧ s.mode.fllLock = true ∧ (s.unit 23).power = .awake ∧ (s.unit 23).passed = true ∧
        s.pair.ident.standby = b) := by decide

theorem witness_GrantsAndUnitClocks :
    (let s : State := { asking with regsAon := [] }
     s.mode.safe = false ∧ s.gov.grants.length = 1 ∧ (s.unit 0).work = .idle ∧ s.usedMw + s.addMw [0] ≤ s.effBudget ∧
      s.stageRoom = true) ∧
    unlocked.mode.safe = true ∧
    (∀ w ∈ [GrantFor.req 1, .bind 1],
      let g : Grant := { gid := 7, what := w, units := [0], part := some 0, charge := 0, cls := 0, seq := 1 }
      let s : State := { on with gov := { on.gov with grants := [g] } }
      s.gov.grants.find? (fun x => x.gid == g.gid) = some g ∧ s.aon 0x204 % 0x400 ≠ 0 ∧ g.what = w) ∧
    (let s := unitAs 0x37 (fun u => { u with power := .awake }) on
     bitsAt (s.aon 0x204) 16 8 ≠ 0 ∧ (s.unit 0x37).power = .awake ∧ (s.unit 0x37).work = .idle ∧ kindOf 0x37 ≠ none) ∧
    (let s : State := { on with regsAon := [(0x204, 200)] }; bitsAt (s.aon 0x204) 16 8 = 0) ∧
    (let s := unitAs 0 (fun u => { u with power := .waking, work := .unitTest }) on
     (s.unit 0).power = .waking ∧ (s.unit 0).work = .unitTest) ∧
    (let r := { request Opc.cipher [] with phase := .waking, units := [0] }
     let s := unitAs 0 (fun u => { u with power := .waking, work := .req 1 }) (withReq serving r)
     (s.unit 0).power = .waking ∧ (s.unit 0).work = .req 1 ∧ s.req 1 = some r ∧ r.phase = .waking ∧ r.units = [0]) := by decide

theorem witness_BudgetWrite :
    (on.pins.fabClk = true ∧ on.pins.aonRel = true ∧ on.portErr true false 0x200 = false) ∧ 400 + on.shares = 400 ∧
    (mergeWord (wordOf (on.aon 0x200)) 0xFFFF 0xF 999#32).toNat = 999 ∧ (mergeWord (wordOf (on.aon 0x200)) 0xFFFF 0xF 1000#32).toNat = 1000 ∧
    (mergeWord (wordOf (on.aon 0x200)) 0xFFFF 0xF 0xFFFF#32).toNat = 65535 :=
  ⟨by decide, rfl, rfl, rfl, rfl⟩

/-- A request that waits to be placed, or for staging tiles. -/
def waiting (ph : ReqPhase) (urgent : Bool) : Req := { request Opc.cipher [(8, 2)] with phase := ph, urgent := urgent }

theorem witness_PlacementUrgencyAndStaging :
    (let r := waiting .waitPlace false
     let s := (List.range 24).foldl (fun t u => t.updUnit u (fun x => { x with passed := true })) (withReq serving r)
     s.retryLeases = s ∧ s.needsCounter r = false ∧
      s.rejoin .cipher = s ∧ s.pickOf .cipher ((s.placeWaits .cipher).filter (fun x => x.2.urgent && !(s.unitAtHand x.1 x.2))) = none ∧
      s.grantWaits .cipher < s.freeOf .cipher ∧
      s.pickOf .cipher ((s.placeWaits .cipher).filter (fun x => !(s.unitOrder x.1 x.2).isEmpty)) = some (1, r)) ∧
    (let r := waiting .waitPlace true
     let s : State := { (withReq serving r) with parts := [(0, { part0 with urgLeft := 0 })] }
     s.retryLeases = s ∧ s.needsCounter r = false ∧ s.rejoin .cipher = s ∧
      s.pickOf .cipher ((s.placeWaits .cipher).filter (fun x => x.2.urgent && !(s.unitAtHand x.1 x.2))) = some (1, r) ∧
      s.freeOf .cipher ≤ s.grantWaits .cipher ∧ (s.part r.part).elim 0 (·.urgLeft) = 0) ∧
    (let r := waiting .waitStaging false
     let s := withReq serving r
     s.stagingPick = some (1, r) ∧ s.req 1 = some r) := by decide

theorem witness_LastCycleByOpcode :
    ∀ op ∈ [Opc.cipher, Opc.mac, Opc.digest, Opc.hmac, Opc.keyUnwrap, Opc.keyDerive, Opc.keyExport, Opc.pkaOp, Opc.wmacList, Opc.pageSeal],
      let r := { request op [] with phase := .ready }
      let s := withReq serving r
      s.req 1 = some r ∧ r.phase = .ready ∧ r.g0 < 2 ∧ r.failed = false ∧ r.owner = .queue ∧ r.origOp = op ∧
        r.meets .sealBuf 0 = false ∧ ({ r with units := [0], staging := 1 } : Req).meets .staging 0 = true := by decide

/-- A transaction. -/
def txn (w : Bool) (ph : TxnPhase) (pu : Purpose) : Txn :=
  { port := 0, isWrite := w, tag := 0, addr := 0, len := 128, payload := .bytes [], cls := 0, part := 0, purpose := pu, queue := none, phase := ph, got := [] }

theorem witness_FabricPorts :
    (∀ w ∈ [true, false], ∀ m ∈ [on, unlocked],
      let t := txn w .presented (.out 1)
      let s : State := { m with fab := [t] }
      s.pins.fabClk = true ∧ s.pins.blkRel = true ∧ s.fab = [] ++ t :: [] ∧ t.port = 0 ∧ t.phase = .presented ∧
        0 < (if t.isWrite then 128 else 256)) ∧
    (let t := txn false .issued (.src 1 0)
     let s : State := { on with fab := [t] }
     s.pins.fabClk = true ∧ s.pins.blkRel = true ∧ s.mode.safe = false ∧ s.txn 0 false 0 = some t ∧ t.phase = .issued ∧ t.marked = false ∧
      t.has 0 = false ∧ t.full = false ∧ 0 < t.beats ∧ t.beats ≤ 33 ∧
      ({ t with got := Store.put t.got 0 (zeros 128) } : Txn).full = true ∧
      ({ t with len := 256, got := Store.put t.got 0 (zeros 128) } : Txn).full = false) ∧
    on.txn 0 false 0 = none ∧ on.txn 0 true 0 = none ∧
    (∀ ph ∈ [TxnPhase.issued, .held], let t := txn true ph (.intr 0 0); ({ on with fab := [t] } : State).txn 0 true 0 = some t ∧ t.phase = ph) ∧
    (∀ w ∈ [true, false], ∀ m ∈ [on, unlocked],
      let t := txn w .issued (.out 1)
      let s : State := { m with fab := [t] }
      s.txn 0 w 0 = some t ∧ t.phase = .issued ∧ t.marked = false ∧ s.pins.aonRel = true ∧ s.pins.blkRel = true ∧ s.mode.safe = m.mode.safe ∧
        ({ s with pins := { s.pins with blkRel := false } } : State).pins.blkRel = false) ∧
    (State.reset.pins.blkRel = false ∧ State.reset.txn 0 false 0 = none ∧ State.reset.txn 0 true 0 = none) := by
  refine ⟨by decide, by decide, by decide, by decide, by decide, by decide, by decide⟩

theorem witness_GlobalPageNeedsPriv :
    on.pins.fabClk = true ∧ 0xFFFC < 0x10000 ∧ 0x10FFFC < 0x110000 ∧
    (State.reset.pins.fabClk = true ∧ State.reset.pins.aonRel = false ∧ State.reset.pins.blkRel = false ∧ isAonReg 0x8 = true ∧
      State.reset.safePort = false) := by decide

/-- Every page offset of an existing partition is served, and every offset outside the pages with REG_PRIV 1. -/
theorem page_open (off : Nat) (h : off < 0x4000) : serving.portErr false false (pageAt 0 off) = false := by
  have e : pageOf (pageAt 0 off) = 0 := by simp only [pageOf, pageAt]; omega
  have g : ¬ pageAt 0 off < 0x10000 := by simp only [pageAt]; omega
  have p : serving.part 0 = some part0 := by decide
  have m : serving.mode.mode = .service := rfl
  simp only [State.portErr, e, p, m, show serving.pins.aonRel = true from rfl, show serving.aonOnly = false by decide,
    show serving.safePort = false by decide]
  simp [g]

theorem global_open (off : Nat) (h : off < 0x10000 ∨ 0x110000 ≤ off) : on.portErr true false off = false := by
  simp only [State.portErr, show on.pins.aonRel = true from rfl, show on.mode.mode = Mode.service from rfl,
    show on.aonOnly = false by decide, show on.safePort = false by decide]
  simp
  omega

theorem witness_AbsentQueueIgnoresWrites :
    serving.pins.fabClk = true ∧ serving.queue 0 63 = none ∧ ∀ off < 0x4000, serving.portErr false false (pageAt 0 off) = false :=
  ⟨rfl, by decide, page_open⟩

theorem witness_RegisterKindsAndLatches :
    (on.pins.fabClk = true ∧ on.pins.aonRel = true) ∧ (∀ off, off < 0x10000 ∨ 0x110000 ≤ off → on.portErr true false off = false) ∧
    on.portErr true true 0xA00 = false ∧ on.portErr true false 0xA04 = false ∧ on.portErr true true 0xD10 = false ∧
    on.portErr true true 0xD28 = false :=
  ⟨by decide, global_open, by decide⟩

/-- Queue 0 of `serving`. -/
def q0 : Queue := { queue0 assign1 with en := true }

theorem witness_SubmissionDoorbell :
    (serving.pins.fabClk = true ∧ serving.pins.aonRel = true) ∧ serving.portErr false false (pageAt 0 0x800) = false ∧ serving.queue 0 0 = some q0 ∧
    (q0.sqN = 64 ∧ q0.tail = 0 ∧ occ q0.sqN q0.tail q0.head = 0) ∧
    (∀ n ∈ [1, 63, 0x10000], n / 2 ^ 17 = 0 ∧ n % 2 ^ 16 < 64 ∧ (64 * (n / 2 ^ 16 % 2) + n % 2 ^ 16 + 2 * 64 - 0) % (2 * 64) ≤ 64 - 0) ∧
    (0x20000 / 2 ^ 17 ≠ 0 ∧ 64 ≤ 64 % 2 ^ 16 ∧ 64 - 0 < (64 * (0x10001 / 2 ^ 16 % 2) + 0x10001 % 2 ^ 16 + 2 * 64 - 0) % (2 * 64)) :=
  ⟨by decide, by decide, by decide, by decide, by simp, by simp⟩

/-- A fetched or pushed entry of one or two slots. -/
def held (pushed : Bool) : CacheEntry :=
  { v := 0, slots := 2, bytes := entry [], first := 2, pushed := pushed, dropped := false, drained := false }

/-- `serving` with another queue 1. -/
def withQueue (x : Queue) : State := { serving with parts := [(0, { part0 with queues := [(0, q0), (1, x)] })] }

theorem queue_open (x : Queue) (off : Nat) (h : off < 0x4000) : (withQueue x).portErr false false (pageAt 0 off) = false := by
  have e : pageOf (pageAt 0 off) = 0 := by simp only [pageOf, pageAt]; omega
  have g : ¬ pageAt 0 off < 0x10000 := by simp only [pageAt]; omega
  have p : ((withQueue x).part 0).isNone = false := rfl
  have m : (withQueue x).mode.mode = .service := rfl
  simp only [State.portErr, e, p, m, show (withQueue x).pins.aonRel = true from rfl, show (withQueue x).aonOnly = false from rfl,
    show (withQueue x).safePort = false from rfl]
  simp [g]

theorem witness_CompletionDoorbellInvalAndEnable :
    (∀ off < 0x4000, (withQueue q0).portErr false false (pageAt 0 off) = false) ∧
      ((withQueue q0).pins.fabClk = true ∧ (withQueue q0).pins.aonRel = true) ∧
    ((withQueue q0).queue 0 1 = some q0 ∧
      (∀ i ∈ [0, 63], i < q0.cqN ∧ occ q0.cqN 0 (q0.cqN * 0 + 0) ≤ occ q0.cqN q0.cqTail q0.cqHead) ∧
      (0x20000#32).toNat / 2 ^ 17 ≠ 0 ∧ q0.cqN ≤ (64#32).toNat % 2 ^ 16 ∧ q0.sqN ≤ (64#32).toNat % 2 ^ 16) ∧
    (let x : Queue := { q0 with en := false, tail := 4, fetch := 4, parse := 4, cache := [held true, held false] }
     let s := withQueue x
     s.queue 0 1 = some x ∧ (63#32).toNat % 2 ^ 16 < x.sqN ∧ x.slots = [] ∧ s.fetchReads 0 1 = [] ∧ x.en = false) ∧
    ((2#4).getLsbD 0 = false ∧ (1#4).getLsbD 0 = true ∧ (3#32).getLsbD 0 = true ∧ (2#32).getLsbD 0 = false ∧ part0.reset = none) ∧
    (∀ x ∈ [{ q0 with en := false }, { q0 with en := false, fetchErr := true }, { q0 with en := false, cmplErr := true }],
      (withQueue x).queue 0 1 = some x ∧ x.en = false) ∧
    (let s : State := { serving with parts := [(0, { part0 with queues := [(0, { q0 with en := false })], regs := [(0x28, 1)] })] }
     s.queue 0 0 = some { q0 with en := false } ∧ ({ part0 with regs := [(0x28, 1)] } : Partition).adminOk = false) := by
  exact ⟨queue_open q0, by decide⟩

/-! ### Hypotheses met: pushes, admission and requests -/

/-- Queue 0 as the queue of a push window. -/
def windowed (w : Option Nat) (en : Bool) : State :=
  { serving with parts := [(0, { part0 with queues := [(0, { q0 with en := en, cfg := { q0.cfg with window := w } })] })] }

theorem windowed_open (w : Option Nat) (en : Bool) (off : Nat) (h : off < 0x4000) :
    (windowed w en).portErr false false (pageAt 0 off) = false := by
  have e : pageOf (pageAt 0 off) = 0 := by simp only [pageOf, pageAt]; omega
  have g : ¬ pageAt 0 off < 0x10000 := by simp only [pageAt]; omega
  have p : ((windowed w en).part 0).isNone = false := rfl
  have m : (windowed w en).mode.mode = .service := rfl
  simp only [State.portErr, e, p, m, show (windowed w en).pins.aonRel = true from rfl, show (windowed w en).aonOnly = false from rfl,
    show (windowed w en).safePort = false from rfl]
  simp [g]

theorem witness_PushWindows :
    (∀ w en, ∀ off < 0x4000, (windowed w en).portErr false false (pageAt 0 off) = false) ∧
    (15 < 16 ∧ 127 < 128 ∧ 127 % 8 ≠ 0) ∧
    (∃ p, (windowed none true).part 0 = some p ∧ p.windowQueue 15 = none) ∧
    (∀ en ∈ [true, false], ∃ p q, (windowed (some 15) en).part 0 = some p ∧ p.windowQueue 15 = some (0, q) ∧
      (windowed (some 15) en).queue 0 0 = some q ∧ 0 = q.tail % q.sqN % 16 ∧ q.en = en ∧ p.reset = none ∧ q.pushes < 4 ∧ q.load < 16 ∧
      occ q.sqN q.tail q.head + min (eSlots (p.pushed 15 q 0x101#32)) (q.sqN - q.tail % q.sqN) ≤ q.sqN) ∧
    (windowed (some 15) true).mode.mode ≠ .follower ∧ (inMode .follower (windowed (some 15) true)).mode.mode = .follower := by
  refine ⟨windowed_open, by decide, ⟨_, rfl, by decide⟩, ?_, by decide, by decide⟩
  intro en h
  rcases List.mem_cons.mp h with rfl | h
  · exact ⟨_, _, rfl, rfl, by decide⟩
  · rcases List.mem_cons.mp h with rfl | h
    · exact ⟨_, _, rfl, rfl, by decide⟩
    · cases h

theorem witness_EntryAdmission :
    (∀ bs ∈ [entry [(0, Opc.fence)], entry [(0, 0x55)], entry [(0, Opc.slotInfo), (8, 3)]],
      let c : CacheEntry := { held false with slots := 1, first := 1, bytes := bs }
      let x : Queue := { q0 with tail := 1, fetch := 1, parse := 1, cache := [c] }
      let s := withQueue x
      s.queue 0 1 = some x ∧ x.ready = [c] ∧ s.serving = true ∧ x.en = true ∧ x.chain = none ∧ x.dying = false ∧
        (s.part 0).elim false (fun y => y.reset == none) = true ∧ s.fenced 0 1 = false ∧ c.dropped = false ∧ c.drained = false ∧
          eChain c.bytes = false ∧
        0 < x.credits ∧ (entryFault 1 x c = none ∨ entryFault 1 x c = some 1 ∨ entryFault 1 x c = some 2) ∧ eOpcode c.bytes ≠ Opc.wmacList) ∧
    (let c : CacheEntry := { held false with slots := 1, bytes := entry [(0, Opc.fence)] }
     let x : Queue := { q0 with tail := 1, fetch := 1, parse := 1, cache := [c], reserved := 64, cqTail := 0 }
     (withQueue x).queue 0 1 = some x ∧ x.credits = 0) := by decide

/-- A request at its admission in partition 0, queue 0. -/
def asked (op : Nat) (l : List (Nat × Nat)) : Req := request op ((0, op) :: l)

theorem witness_CompletionEntryIsPosted :
    (∀ r ∈ [asked Opc.slotInfo [(10, 2)], asked Opc.slotInfo [(8, 4)], asked Opc.slotInfo [(8, 3), (10, 1)], asked Opc.fence []],
      let s := withReq serving r
      s.req 1 = some r ∧ r.phase = .admitted ∧ r.owner = .queue ∧ r.quiet = false ∧ r.credit = true ∧ r.g0 = 0 ∧ r.units = [] ∧
        s.queue r.part r.qid = some q0) ∧
    1 < fld (asked Opc.slotInfo [(10, 2)]).entry 10 1 ∧
    serving.slotIn 0 (cSlot (asked Opc.slotInfo [(8, 4)]).entry) = false ∧ fld (asked Opc.slotInfo [(8, 4)]).entry 10 1 ≤ 1 ∧
    serving.slotIn 0 (cSlot (asked Opc.slotInfo [(8, 3), (10, 1)]).entry) = true ∧
    fld (asked Opc.slotInfo [(8, 3), (10, 1)]).entry 10 1 ≤ 1 ∧
    (let s : State := { serving with reqs := [(1, { asked Opc.fence [] with seq := 2 }), (2, asked Opc.cipher [])] }
     s.req 1 = some { asked Opc.fence [] with seq := 2 } ∧ (s.queueReqs 0 0).any (fun o => decide (o.2.seq < 2) && o.2.phase != .exported) = true) ∧
    ((withReq serving (asked Opc.fence [])).queueReqs 0 0).any (fun o => decide (o.2.seq < 1)) = false := by decide

/-- A key in slot 0 of partition 0. -/
def keyed (alg len use : Nat) (ledger : Bool) (exp : Nat) : State :=
  { serving with hw := { Heart.reset with slots := [(0,
      { st := .valid, attr := { KeyAttr.blank with alg := alg, len := len, use := use, ledger := ledger, exportP := exp }, mat := zeros len
        part := 0, tiles := [], keyId := 5, bad := false })] } }

/-- An AES-256 CBC encryption and an AES-256-GCM encryption, with an IV of their own or without. -/
def cbc (ext : Nat) (len : Nat) : Req := asked Opc.cipher [(5, ext), (10, 2), (16, len), (24, 64), (32, 64)]
def gcm (ext : Nat) : Req := asked Opc.aead [(5, ext), (10, 0x10), (11, 16), (16, 16), (24, 64), (32, 64)]

theorem witness_CipherRequests :
    (let r := asked Opc.mac [(10, 0x10)]
     (withReq serving r).req 1 = some r ∧ r.phase = .admitted ∧ r.opcode = Opc.mac ∧ cipherBodyOk r.entry = false) ∧
    (let r := asked Opc.xts []; cipherBodyOk r.entry = true ∧ cipherUnsupported r.entry = true) ∧
    (let r := cbc 0x10 16
     cipherBodyOk r.entry = true ∧ cipherUnsupported r.entry = false ∧
      (withReq serving r).cipherSlot r.part r.entry = some (St.keySlotInvalid, 0x02)) ∧
    (let r := cbc 0x10 15
     cipherBodyOk r.entry = true ∧ cipherUnsupported r.entry = false ∧
      (withReq (keyed 3 32 7 false 0) r).cipherSlot r.part r.entry = none ∧ cipherLimit r.entry = some 0x03) ∧
    (∀ ext ∈ [0, 0x10], let r := cbc ext 16
     cipherBodyOk r.entry = true ∧ cipherUnsupported r.entry = false ∧
      (withReq (keyed 3 32 7 false 0) r).cipherSlot r.part r.entry = none ∧ cipherLimit r.entry = none ∧
      ivSource r.entry ((keyed 3 32 7 false 0).slot ((keyed 3 32 7 false 0).gOf r.part (cSlot r.entry))).attr =
        (if ext = 0 then .drbg else .field)) ∧
    (let r := gcm 0
     cipherBodyOk r.entry = true ∧ cipherUnsupported r.entry = false ∧
      (withReq (keyed 3 32 7 true 0) r).cipherSlot r.part r.entry = none ∧ cipherLimit r.entry = none ∧
      ivSource r.entry ((keyed 3 32 7 true 0).slot ((keyed 3 32 7 true 0).gOf r.part (cSlot r.entry))).attr = .ledger) ∧
    on.rng.ready = true ∧ State.reset.rng.ready = false := by decide

theorem witness_DigestAndPageRequests :
    (let r := asked Opc.digest [(5, 0xC), (10, 2), (32, 64)]
     (withReq serving r).req 1 = some r ∧ r.origOp = r.opcode ∧ serving.digestChecks r.part r.entry = none) ∧
    (let r := asked Opc.digest [(5, 0xC), (10, 9), (32, 64)]
     digestBodyOk r.entry = true ∧ hashKnown (dAlg r.entry) = false ∧ serving.digestChecks r.part r.entry = some (St.unsupported, 0)) ∧
    (let r := asked Opc.digest [(8, 1)]; digestBodyOk r.entry = false) ∧
    (let r := asked Opc.hmac [(5, 0xC), (10, 2), (32, 64)]
     r.opcode = Opc.hmac ∧ (keyed 7 32 4 false 0).digestChecks r.part r.entry = none) ∧
    (let r := asked Opc.pageSeal [(10, 1), (11, 16)]
     eFlag r.entry 0 = false ∧ (keyed 7 32 4 false 0).pageChecks r.part r.entry = none) ∧
    (let r := asked Opc.pageSeal [(11, 8)]; pageBodyOk r.entry = false) ∧
    (let r := asked Opc.pageSeal [(5, 1)]
     eFlag r.entry 0 = true ∧ pageBodyOk r.entry = true ∧ (keyed 7 32 4 false 0).hmacSlot r.part (cSlot r.entry) = none ∧ storedOk r.entry = false) ∧
    (let r := { asked Opc.pageSeal [] with entry := slice (entry [(0, Opc.pageSeal), (5, 1)]) 0 64 ++ [1, 1, 0, 0, 16] ++ zeros 59 }
     eFlag r.entry 0 = true ∧ (keyed 7 32 4 false 0).pageChecks r.part r.entry = none) := by decide

/-- A key with a KEK in partition 0. -/
def kekd (s : State) : State := { s with hw := { s.hw with keks := [(0, zeros 32)] } }

theorem witness_KeyRequests :
    (let r := asked Opc.keyUnwrap [(8, 1), (10, 0xFF), (11, 0xFF), (16, 32), (24, 64)]
     let s := kekd (withReq serving r)
     s.req 1 = some r ∧ r.phase = .admitted ∧ r.origOp = r.opcode ∧ kErase r.entry = false ∧ unwrapBodyOk r.entry = true ∧
      s.targetOk r.part (kDslot r.entry) (kReplace r.entry) = none ∧ s.wrapKeyOk r.part (kKslot r.entry) = none ∧
      kInLen r.entry % 8 = 0 ∧ 32 ≤ kInLen r.entry ∧ kInLen r.entry ≤ 3616 ∧
      (withReq serving r).wrapKeyOk r.part (kKslot r.entry) = some (St.keySlotInvalid, 0x05)) ∧
    (let r := asked Opc.keyUnwrap [(8, 3), (10, 0xFF), (11, 0xFF), (16, 24), (24, 64)]
     unwrapBodyOk r.entry = true ∧ (kekd serving).targetOk r.part (kDslot r.entry) (kReplace r.entry) = none ∧
      (kekd serving).wrapKeyOk r.part (kKslot r.entry) = none ∧
      ¬ (kInLen r.entry % 8 = 0 ∧ 32 ≤ kInLen r.entry ∧ kInLen r.entry ≤ 3616)) ∧
    (let r := asked Opc.keyUnwrap [(8, 4), (16, 32), (24, 64)]
     unwrapBodyOk r.entry = true ∧ serving.targetOk r.part (kDslot r.entry) (kReplace r.entry) = some (St.keySlotInvalid, 0x01)) ∧
    (let r := asked Opc.keyUnwrap [(16, 32)]; unwrapBodyOk r.entry = false) ∧
    (let r := asked Opc.keyDerive [(12, 3)]; deriveBodyOk r.entry = true ∧ ¬ (kPrf r.entry = 1 ∨ kPrf r.entry = 2)) ∧
    (let r := asked Opc.keyDerive [(8, 1), (12, 2), (16, 3), (18, 32), (20, 7)]
     let s := keyed 8 32 16 false 0
     deriveBodyOk r.entry = true ∧ kPrf r.entry = 2 ∧ s.targetOk r.part (kDslot r.entry) (kReplace r.entry) = none ∧
      s.slotValid r.part (kKslot r.entry) = none ∧ (s.slot (s.gOf r.part (kKslot r.entry))).attr.alg = 8 ∧
      KeyAttr.can (s.slot (s.gOf r.part (kKslot r.entry))).attr useDerive = true ∧
      attrValid (kAttr r.entry) = true ∧ attrValid (kAttr (asked Opc.keyDerive [(8, 1), (12, 2)]).entry) = false) ∧
    (let r := asked Opc.keyDerive [(8, 1), (12, 2), (16, 3), (18, 32), (20, 7), (21, 8)]
     let b := attrOf (kAttr r.entry)
     deriveBodyOk r.entry = true ∧ attrValid (kAttr r.entry) = true ∧ b.alg = 3 ∧ (serving.keyAttr r).exportP < b.exportP) ∧
    (∀ p ∈ [(true, 0), (false, 0), (false, 1), (false, 2)],
      let r := asked Opc.keyExport [(8, 0), (10, 0xFF), (11, 0xFF), (40, 56)]
      let s := kekd (keyed 3 32 7 p.1 p.2)
      let a := (s.slot (s.gOf r.part (kDslot r.entry))).attr
      s.slotValid r.part (kDslot r.entry) = none ∧ a.ledger = p.1 ∧ a.exportP = p.2 ∧ kKslot r.entry = 0xFFFF ∧
        s.wrapKeyOk r.part (kKslot r.entry) = none ∧ blobLen a.len ≤ kDstLen r.entry) ∧
    (∀ l ∈ [0, 3], let r := asked Opc.keyUnwrap [(5, 2), (8, l)]
     let s := withReq (keyed 3 32 7 false 0) r
     s.req 1 = some r ∧ kErase r.entry = true ∧ unwrapBodyOk r.entry = true ∧ s.slotIn r.part (kDslot r.entry) = true ∧
      s.isReserved (s.gOf r.part (kDslot r.entry)) = false ∧ ((s.slot (s.gOf r.part (kDslot r.entry))).st = .empty ↔ l = 3)) ∧
    (let r := asked Opc.keyUnwrap [(5, 2), (8, 3)]
     let s : State := { serving with reqs := [(1, r), (2, { asked Opc.keyDerive [] with dslot := some 3 })] }
     s.req 1 = some r ∧ s.isReserved (s.gOf r.part (kDslot r.entry)) = true) := by decide

/-- A P-256 signature, verification and agreement, an Ed25519 public key, an RSA-OAEP encryption and decryption. -/
def pka (f alg : Nat) (l : List (Nat × Nat)) : Req := asked Opc.pkaOp ((10, f) :: (11, alg) :: l)

theorem witness_PkaAndRandomRequests :
    (let r := pka 1 1 []; pkaBodyOk r.entry = false ∧ r.origOp = Opc.pkaOp ∧ pFunc r.entry = 1) ∧
    (let r := pka 6 1 []; pkaBodyOk r.entry = true ∧ pkaKnown (pAlgo r.entry) 6 = false) ∧
    (let r := pka 1 1 [(12, 0xFF), (13, 0xFF), (16, 32), (24, 64), (32, 64), (40, 64), (44, 1)]
     let s := withReq (keyed 0x11 32 8 false 0) r
     s.req 1 = some r ∧ r.phase = .admitted ∧ s.pkaChecks r.part r.entry = none ∧ pkaSecret 1 = true ∧
      (withReq serving r).pkaChecks r.part r.entry = some (St.keySlotInvalid, 0x02)) ∧
    (let r := pka 2 1 [(8, 0xFF), (9, 0xFF), (12, 0xFF), (13, 0xFF), (16, 161), (24, 64), (44, 1)]
     serving.pkaChecks r.part r.entry = none ∧ pkaSecret 2 = false) ∧
    (let r := pka 3 1 [(12, 3), (16, 65), (24, 64)]; (keyed 0x11 32 16 false 0).pkaChecks r.part r.entry = none) ∧
    (let r := pka 4 1 [(12, 0xFF), (13, 0xFF), (32, 64), (40, 65)]; (keyed 0x11 32 8 false 0).pkaChecks r.part r.entry = none) ∧
    (let r := pka 5 0x21 [(8, 0xFF), (9, 0xFF), (12, 3), (16, 0xA0), (17, 4), (24, 64), (32, 64), (41, 5)]
     serving.pkaChecks r.part r.entry = none) ∧
    (let r := pka 6 0x21 [(12, 3), (16, 64), (17, 4), (24, 64)]; (keyed 0x31 64 2 false 0).pkaChecks r.part r.entry = none) ∧
    (let r := { pka 1 1 [] with phase := .waitRand, units := [0x30] }
     (withReq serving r).req 1 = some r ∧ r.units ≠ [] ∧ (withReq serving r).rng.ready = true) ∧
    (∀ n ∈ [[], [(16, 1)], [(18, 1)], [(16, 1), (18, 1)]], let r := asked Opc.random ((32, 64) :: n)
     rndDst r.entry ≠ 0 ∧ r.wrote = 0 ∧ (rndLen r.entry = 0 ∨ 65536 < rndLen r.entry ∨ rndLen r.entry ≠ 0 ∧ rndLen r.entry ≤ 65536)) ∧
    (let r := { asked Opc.random [] with phase := .waitRand }
     (withReq serving r).req 1 = some r ∧ r.units = [] ∧ (withReq { serving with rng := Rng.reset } r).rng.ready = false) := by decide

theorem witness_RawRequests :
    (let r := asked Opc.wmacList []; r.origOp = Opc.wmacList ∧ r.mask = 0 ∧ wmacBodyOk r.entry = false) ∧
    (let r := asked Opc.wmacList [(8, 1), (12, 4), (16, 64)]
     let s : State := { serving with regsAon := [(0xB24, 0), (0xB20, 0)] }
     let t : State := { serving with regsAon := [(0xB24, 1), (0xB20, 0)] }
     let u : State := { serving with regsAon := [(0xB24, 1), (0xB20, 0x80)] }
     wmacBodyOk r.entry = true ∧ s.permits 0xB24 r.part = false ∧ t.permits 0xB24 r.part = true ∧ t.aon 0xB20 % 256 = 0 ∧
      u.permits 0xB24 r.part = true ∧ u.aon 0xB20 % 256 ≠ 0 ∧ (u.part r.part).isSome = true ∧ wFifo r.entry ≠ 0) ∧
    (∀ d ∈ [none, some (St.unsupported, 0x02)], let r := { asked Opc.wmacList [] with ending := d }
     (withReq serving r).req 1 = some r ∧ r.phase = .admitted ∧ r.ending = d) := by decide

/-! ### Hypotheses met: result FIFO, contexts, administration, seal streams -/

theorem witness_ResultFifoRegisters :
    (let p := { part0 with rf := { ResultFifo.empty with tail := 4, regions := [⟨0, 4, none⟩] } }
     let s : State := { on with parts := [(63, p)] }
     s.pins.fabClk = true ∧ s.pins.aonRel = true ∧ s.part 63 = some p ∧ s.portErr false true (pageAt 63 0xC00) = false ∧
      s.portErr false false (pageAt 63 0xC04) = false ∧ 0 < p.rf.avail) ∧
    part0.rf.avail = 0 ∧ (7#4 ≠ 0xF#4) := by decide

/-- A segment of a grove. -/
def seg0 : Segment := { start := 0, len := 4, lane := some 0, done := false, pos := 0, ctr := zeros 16, hash := 0, wrote := 0 }

theorem witness_GrovesAndSuspension :
    (∀ pw ∈ [Power.awake, .waking],
      let r := { request Opc.aead [] with phase := .forming, units := [0, 1] }
      let s := unitAs 1 (fun u => { u with power := pw }) (unitAs 0 (fun u => { u with power := .awake }) (withReq serving r))
      s.req 1 = some r ∧ (s.unit 0).power = .awake ∧ (s.unit 1).power = pw ∧ 1 ∈ r.units) ∧
    (let r := { request Opc.aead [(10, 0x10), (16, 48)] with
       phase := .ready, drawn := true, segs := [seg0, { seg0 with start := 4, lane := some 1 }], src := [(0, zeros 48)] }
     (withReq serving r).req 1 = some r ∧ r.segs.find? (fun y => y.lane == some 0 && !y.done) = some seg0 ∧
      r.arrived (seg0.off r.entry) (seg0.size r.entry) = seg0.size r.entry ∧
      r.segs.find? (fun y => y.lane == some 2 && !y.done) = none) ∧
    (let r := { request Opc.digest [] with phase := .capturing, units := [0x20] }
     (withReq serving r).req 1 = some r ∧ (Store.find (withReq serving r).units 0x20).isSome = true ∧ r.victimOf = none ∧ r.segs = [] ∧
      r.stopOk 0 = true ∧ r.stopOk 1 = false ∧ r.ending = none ∧ r.g0 < 2 ∧ 5 ≤ r.origOp ∧ (withReq serving r).seals.streams = []) := by decide

/-- Partition 0 with one record position and a live export of queue 0. -/
def exporting : Partition := { part0 with regs := [(0x608, 1)], live := [⟨0, 0, 1, 2⟩] }

theorem witness_ContextExport :
    (let r := { request Opc.cipher [] with phase := .exporting, expIdx := 1 }
     (withReq serving r).req 1 = some r ∧ (withReq serving r).part r.part = some part0 ∧ (withReq serving r).engineHead = some 1 ∧
      (withReq serving r).writesOut 1 = false) ∧
    (let r := { asked Opc.hmac [] with phase := .wrapping }; (withReq serving r).engineHead = some 1) ∧
    (∀ f ∈ [0, 1], let r := asked Opc.contextResume [(5, f), (12, 1)]
     let o := { request Opc.cipher [] with phase := .exported, expIdx := 1 }
     let s : State := { serving with parts := [(0, exporting)], reqs := [(1, r), (2, o)] }
     s.req 1 = some r ∧ s.part r.part = some exporting ∧ rDiscard r.entry = (f == 1) ∧ rIndex r.entry < exporting.expCount ∧
      s.liveOf r = some ⟨0, 0, 1, 2⟩ ∧ s.req 2 = some o ∧ exporting.expCount ≤ rIndex (asked Opc.contextResume [(8, 1)]).entry ∧
      s.liveOf (asked Opc.contextResume [(12, 2)]) = none) ∧
    (let r := { asked Opc.contextResume [(12, 1)] with phase := .unwrapping }
     let o := { request Opc.cipher [] with phase := .exported, expIdx := 1 }
     let s : State := { serving with parts := [(0, exporting)], reqs := [(1, r), (2, o)] }
     s.engineHead = some 1 ∧ r.origOp = Opc.contextResume ∧ s.liveOf r = some ⟨0, 0, 1, 2⟩ ∧ s.req 2 = some o ∧
      (gathered r.recd).drop 32 = [] ∧ (s.absorb 1 2).keysSame o = true) ∧
    (let r := { asked Opc.hmac [] with phase := .unwrapping }
     (withReq serving r).engineHead = some 1 ∧ r.opcode = Opc.hmac) := by decide

theorem witness_AdminQueueCommands :
    (let r := asked Opc.createQueue [(8, 1), (10, 6), (11, 16), (15, 1), (17, 0x10), (26, 1)]
     let c := cqCfg r.entry
     (withReq serving r).req 1 = some r ∧ (withReq serving r).part r.part = some part0 ∧ aQid r.entry = 1 ∧ 1 < part0.assign.queues ∧
      Store.find part0.queues 1 = none ∧ part0.assign.classLimit ≤ c.cls ∧ c.vector < part0.assign.vectors ∧ c.window = none ∧ c.qweight ≠ 0 ∧
      c.sqLog2 = 6 ∧ c.cqLog2 = 16 ∧ c.sqBase % min 4096 (32 * 2 ^ c.sqLog2) = 0 ∧ c.cqBase % min 4096 (16 * 2 ^ c.cqLog2) = 0) ∧
    (cqCfg (asked Opc.createQueue [(8, 1), (10, 5)]).entry).sqLog2 < 6 ∧ aQid (asked Opc.createQueue []).entry = 0 ∧
    part0.assign.queues ≤ aQid (asked Opc.createQueue [(8, 4)]).entry ∧
    part0.ioQueue (aQid (asked Opc.destroyQueue []).entry) = false ∧
    (let p := { part0 with queues := [(0, q0), (1, q0)] }
     let r := asked Opc.destroyQueue [(8, 1)]
     let s := withReq (withQueue q0) r
     s.req 1 = some r ∧ s.part r.part = some p ∧ p.ioQueue (aQid r.entry) = true ∧ bitAt (fld r.entry 10 1) 0 = false ∧
      s.queue r.part (aQid r.entry) = some q0) ∧
    (∀ en ∈ [true, false], let r := { asked Opc.destroyQueue [(8, 1)] with phase := .waitIdle }
     let s := withReq (withQueue { q0 with en := en }) r
     s.req 1 = some r ∧ s.queueIdle r.part (aQid r.entry) = !en) ∧
    (let r := asked Opc.queueInfo [(8, 1)]; (withQueue q0).queue r.part (aQid r.entry) = some q0 ∧ serving.queue r.part (aQid r.entry) = none) ∧
    (let r := asked Opc.setQos [(8, 1), (12, 3), (15, 1)]
     (cqCfg r.entry).qweight ≠ 0 ∧ part0.assign.classLimit ≤ (cqCfg r.entry).cls ∧ (cqCfg (asked Opc.setQos [(8, 1)]).entry).qweight = 0) := by
  decide

theorem witness_PartitionCommands :
    (serving.pins.fabClk = true ∧ serving.portErr true false 0x400 = false) ∧
    ({ serving with pm := { Pm.reset with busy := some 0 } } : State).pm.busy ≠ none ∧
    (inMode .follower serving).serving = false ∧ (serving.pm.busy = none ∧ serving.serving = true) ∧
    (∃ d : Word, (serving.cmdRw 0x400 false 0x10000 0xF d).blk 0x400 % 64 = 63 ∧ serving.part 63 = none) ∧
    (∃ d : Word, (serving.cmdRw 0x400 false 0x10000 0xF d).blk 0x400 % 64 = 0 ∧ serving.part 0 = some part0 ∧ serving.ownReset 0 = false) ∧
    assignOk serving.pmAssign = true ∧ serving.poolsHold serving.pmAssign = true ∧
      400 + serving.shares + serving.pmAssign.shareMw ≤ serving.budgetMw ∧
    (let s : State := { serving with regsBlk := [(0x404, 0)] }; assignOk s.pmAssign = false) ∧
    (let s : State := { serving with regsBlk := [(0x40C, 189)] }; assignOk s.pmAssign = true ∧ s.poolsHold s.pmAssign = false) ∧
    (let s : State := { serving with regsAon := [(0x200, 1000)], regsBlk := [(0x418, 501)] }
     assignOk s.pmAssign = true ∧ s.poolsHold s.pmAssign = true ∧ s.budgetMw < 400 + s.shares + s.pmAssign.shareMw) ∧
    (let r := asked Opc.partitionReset []; (withReq serving r).req 1 = some r ∧ r.phase = .admitted) ∧
    (∀ f ∈ [[], [txn true .issued (.out 9)]], ∀ c ∈ [true, false],
      let x : PartReset := { kind := .byReset, ended := 0, discarded := 0, waitAck := none, waitGraft := none, closing := c }
      let s : State := { serving with parts := [(0, { part0 with reset := some x })], fab := f }
      s.part 0 = some { part0 with reset := some x } ∧ x.waitAck = none ∧ s.dropping 0 = false ∧ s.seals.streams = [] ∧
        (f = [] ∨ ∃ t ∈ s.fab, t.part = 0)) ∧
    (withReq serving { asked Opc.fence [] with quiet := true }).dropping 0 = true := by
  refine ⟨by decide, by decide, by decide, by decide, ⟨0x13F#32, by decide, by decide⟩, ⟨0x300#32, by decide, by decide, by decide⟩, by decide⟩

/-- A partition whose streams still close. -/
theorem witness_PartitionCommands_closing :
    let x : PartReset := { kind := .byReset, ended := 0, discarded := 0, waitAck := none, waitGraft := none, closing := true }
    let s : State := { serving with parts := [(0, { part0 with reset := some x })]
                                    seals := { Seal.reset with streams := [(3, serving.newStream 1 0 (entry []))] } }
    s.part 0 = some { part0 with reset := some x } ∧ ∃ y ∈ s.seals.streams, y.2.part = 0 := ⟨rfl, _, List.mem_singleton.mpr rfl, rfl⟩

/-- A bound stream of partition 0 on tap 15, channel 0. -/
def stream0 : Stream := { serving.newStream 1 0 (entry [(8, 0x0F), (14, 6), (20, 1), (21, 1)]) with bound := true }
def streaming (x : Stream) : State :=
  { serving with seals := { Seal.reset with streams := [(63, x)] }, regsAon := [(0xA7C, 0x80)] }
def frame0 : Frame :=
  { seq := 1, interval := false, slots := 1, lostAt := 0, fid := 7, time := 0, declLen := 64, data := [], held := 0, ended := true
    reason := none, lane := some 0x20, observed := 0 }

theorem witness_SealBinding :
    (let r := asked Opc.bindTap [(8, 0x0F)]
     (withReq serving r).req 1 = some r ∧ bitAt ((withReq serving r).aon (0xA40 + 4 * bTap r.entry)) 7 = false) ∧
    (let r := asked Opc.bindTap [(8, 0x0F)]
     bitAt ((streaming stream0).aon (0xA40 + 4 * bTap r.entry)) 7 = true ∧ (streaming stream0).aon (0xA40 + 4 * bTap r.entry) % 64 = r.part ∧
      stream0.tap = bTap r.entry ∧ stream0.chan = bChan r.entry) ∧
    (let r := asked Opc.bindTap [(8, 0x0F), (12, 0xFF), (13, 0xFF), (14, 6), (20, 1), (21, 1)]
     let s : State := { keyed 7 32 4 false 0 with regsAon := [(0xA7C, 0x80)] }
     s.bindChecks r.part r.entry = none ∧ s.stream 0 = none) ∧
    (let r := asked Opc.unbindTap [(8, 63)]
     (withReq (streaming stream0) r).streamOf r.part (fld r.entry 8 1 % 64) = some stream0 ∧ stream0.closing = none ∧
      (withReq serving r).streamOf r.part (fld r.entry 8 1 % 64) = none) ∧
    (∀ f ∈ [0, 1], eFlag (asked Opc.sealClose [(5, f), (8, 63)]).entry 0 = (f == 1)) ∧ ({ stream0 with frames := [frame0] } : Stream).frames ≠ [] ∧
    (serving.pins.aonRel = true ∧ serving.portErr true false 0xA7C = false ∧ serving.tapBound 15 = false ∧ (streaming stream0).tapBound 15 = true) ∧
    ((streaming stream0).portErr false false (pageAt 0 0x13F0) = false ∧ (streaming stream0).streamOf 0 63 = some stream0 ∧
      (0x20000#32).toNat / 2 ^ 17 ≠ 0 ∧ stream0.ringSize ≤ (64#32).toNat % 2 ^ 16 ∧ (0#32).toNat % 2 ^ 16 < stream0.ringSize ∧
      occ stream0.ringSize stream0.tail 0 ≤ occ stream0.ringSize stream0.tail stream0.head ∧ stream0.ckptDue = false) := by
  refine ⟨by decide, by decide, by decide, by decide, by decide, by decide, by decide, by decide, by decide, by simp, by decide, by decide,
    by decide, by decide⟩

/-- MAINTENANCE with its TARGET, on the same partition. -/
def tending (s : State) : State := aim .maintenance (inMode .maintenance s)

theorem witness_HeartwoodCommands :
    (serving.pins.fabClk = true ∧ serving.pins.aonRel = true ∧ serving.portErr true false 0xC00 = false ∧
      serving.portErr true false 0x80C = false ∧ (1#4).getLsbD 0 = true) ∧
    ({ serving with hw := { Heart.reset with op := some (.erase 1 none) } } : State).hw.op ≠ none ∧
    (serving.hw.op = none ∧ serving.maintaining = false) ∧
    ((tending serving).hw.op = none ∧ (tending serving).maintaining = true ∧ (tending serving).part 63 = none ∧
      (tending serving).part 0 = some part0 ∧ (tending serving).slotIn 0 3 = true ∧ (tending serving).slotIn 0 4 = false) ∧
    ((tending (keyed 3 32 7 false 0)).slot ((tending (keyed 3 32 7 false 0)).gOf 0 0)).st ≠ .empty ∧
    (tending serving).ledger.purge = none := by decide

theorem witness_TapBeats :
    (State.reset.pins.blkRel = false ∧ ({ on with pins := { on.pins with fabClk := false } } : State).pins.fabClk = false ∧
      on.tapActive 15 = false ∧ (0x100#16).getLsbD 8 = true) ∧
    ((streaming stream0).pins.blkRel = true ∧ (streaming stream0).tapActive 15 = true ∧ (0#16).getLsbD 8 = false ∧ (0#16).getLsbD 1 = false ∧
      (0#16).getLsbD 9 = false ∧ (streaming stream0).openOf 15 = none) ∧
    ((streaming stream0).streamAt 15 0 = some (63, stream0) ∧ (streaming stream0).streamAt 15 1 = none ∧
      ((streaming stream0).consume 63).streamAt 15 0 = some (63, stream0) ∧ ((streaming stream0).consume 63).stream 63 = some stream0 ∧
      stream0.pastClose = false ∧ stream0.wrErr = none ∧ stream0.refuse = none ∧ stream0.frames = []) ∧
    (∀ h ∈ [0, 65536],
      let f := { frame0 with ended := false, lane := none, held := h }
      let x := { stream0 with frames := [f] }
      let s := (streaming x).setOpen 15 63
      s.openOf 15 = some 63 ∧ (s.consume 63).stream 63 = some x ∧ x.frames.getLast? = some f ∧ s.lastFrame 63 = some f ∧
        f.data.length + 64 < 2 ^ 32 - 1 ∧ (x.tilesUsed < x.quota ↔ h = 0)) := by
  decide

theorem witness_FrameChainAndCheckpoints :
    (∀ e ∈ [true, false], ∀ l ∈ [some 0x20, none],
      let x := { stream0 with frames := [{ frame0 with ended := e, lane := l }] }
      (streaming x).stream 63 = some x ∧ x.wrErr = none ∧ x.gap = none ∧ ({ frame0 with ended := e, lane := l } : Frame).reason = none) ∧
    (let x := { stream0 with signs := true, ckptFrames := 1, sinceCkpt := 1 }
     x.bound = true ∧ x.signs = true ∧ x.closeSent = false ∧ x.wrErr = none ∧ x.ckptFrames ≠ 0 ∧ x.ckptFrames ≤ x.sinceCkpt) ∧
    stream0.signs = true ∧ ({ stream0 with bound := false } : Stream).bound = false := by decide

theorem witness_FrameChainAndCheckpoints_signed :
    (let x := { stream0 with signEd := true, ckptJob := some (⟨0, 0, zeros 48⟩, 0, false), ckptUnit := some 0x30 }
     let s := unitAs 0x30 (fun u => { u with power := .awake }) (streaming x)
     s.stream 63 = some x ∧ (s.unit 0x30).power = .awake ∧ s.rng.ready = true ∧ ∀ m, ∃ sg, ckptSign x.signEd x.signMat [] m = some sg) := by
  refine ⟨by decide, by decide, by decide, fun m => ⟨_, rfl⟩⟩

/-! ### Hypotheses met: leases, images, units, mailboxes, faults, rings and the link -/

/-- A lease and its account. -/
def lease0 (live : Bool) : Lease :=
  { acct := 1, idx := 0, part := 0, live := live, taken := 0, image := some 1, acked := true, graft := none, grafted := false, used := 0 }
def acct0 : Acct := { fp := State.reset.fpOf (zeros 32), epoch := 0, lgid := 0, hwm0 := 1, hwm1 := 0, ret0 := false, ret1 := false }
def leasing (live : Bool) : State :=
  { serving with ledger := { Ledger.reset with leases := [lease0 live], accts := [(1, acct0)] } }

theorem witness_LeaseEvents :
    ((∃ l ∈ (leasing false).ledger.leases, l.acct = 1 ∧ (leasing false).leaseReady l = true) ∧ (leasing false).leaseWaiters 1 = []) ∧
    (∀ l ∈ (leasing true).ledger.leases, l.acct = 1 → (leasing true).leaseReady l = false) ∧
    (let r := { asked Opc.aead [] with phase := .waitLease }
     (withReq serving r).req 1 = some r ∧ (withReq serving r).aon 0x800 % 0x400 ≠ 0) ∧
    (let s : State := { serving with regsAon := [(0x800, 0x400)] }; s.aon 0x800 % 0x400 = 0) ∧
    ((leasing true).idleLease 1 = some (lease0 true) ∧ Store.find (leasing true).ledger.accts (lease0 true).acct = some acct0 ∧
      bitsAt ((leasing true).aon 0x800) 16 8 ≠ 0) ∧
    (∀ l ∈ (leasing false).ledger.leases, l.acct = 1 → l.live = false) := by
  refine ⟨⟨⟨_, List.mem_singleton.mpr rfl, rfl, by decide⟩, by decide⟩, by decide, by decide, by decide, ⟨by decide, rfl, by decide⟩, by decide⟩

/-- An account without a slot ends at lease 0; one with a slot ends where the slot's LIMIT_LOG2 says. -/
theorem witness_LeaseEvents_end :
    (leasing true).acctEnd acct0 = 0 ∧
    (let s : State := { leasing true with hw := { Heart.reset with slots := [(0, { HwSlot.blank with
        st := .valid, attr := { KeyAttr.blank with alg := 3, len := 32, ledger := true, limitLog2 := 21 }, mat := zeros 32 })] } }
     s.acctEnd acct0 = 2) ∧
    (leasing true).spent 1 acct0 = false ∧
    (let s : State := { serving with hw := { Heart.reset with slots := [(0, { HwSlot.blank with
        st := .valid, attr := { KeyAttr.blank with alg := 3, len := 32, ledger := true, limitLog2 := 20 }, mat := zeros 32 })] } }
     s.spent 1 acct0 = true) := by
  refine ⟨rfl, ?_, rfl, ?_⟩
  all_goals simp [State.spent, State.acctBound, acctHwm, serving, on, Ledger.reset, State.inst, HwSlot.blank, State.acctEnd,
    State.slotOfAcct, acct0, leaseEnd, KeyAttr.blank, State.fpOf, State.devKey, State.reset, Heart.reset, Pair.reset, PairId.reset]

/-- The block with PERSIST_CTL.EN and a queue of changes. -/
def persisting (p : Persist) : State := { serving with regsBlk := [(0xD08, 1)], persist := p }

theorem witness_PersistImages :
    (∀ p ∈ [{ Persist.reset with lease := true }, { Persist.reset with boot := 1 }, { Persist.reset with change := true, batch := true }],
      (persisting p).imaging = true ∧ (persisting p).ledger.persistDown = false ∧ (persisting p).pins.aonRel = true ∧
        ((persisting p).persist.lease = true ∨ 0 < (persisting p).persist.boot ∨
          ((persisting p).persist.change = true ∧ (persisting p).persist.batch = true))) ∧
    (let s : State := { persisting Persist.reset with ledger := { Ledger.reset with persistDown := true } }
     s.imaging = true ∧ s.ledger.persistDown = true) ∧
    (serving.imaging = false ∧ serving.persist.change = false) ∧
    ({ serving with persist := { Persist.reset with change := true } } : State).imaging = false ∧
    ({ serving with hw := { Heart.reset with op := some (.zeroise 1 [false, true] none) } } : State).zeroising = true ∧
    (serving.portErr true false 0xD1C = false ∧ serving.portErr true false 0xD20 = false ∧ serving.named 5 = none) ∧
    (let s := persisting { Persist.reset with out := some outImage }
     s.persist.out = some outImage ∧ outImage.valid = true ∧ s.named 5 = some outImage ∧ s.named 4 = none ∧
      s.aon 0xD0C % 2 ^ 16 ≠ 0 ∧ s.reqs = []) ∧
    ({ serving with regsAon := [(0xD0C, 0x10000)] } : State).aon 0xD0C % 2 ^ 16 = 0 := by decide

/-- UNIT_CMD's operand byte names the unit. -/
theorem witness_UnitCommands :
    (serving.pins.fabClk = true ∧ serving.pins.aonRel = true ∧ serving.portErr true false 0x2000 = false ∧ (2#4).getLsbD 1 = true) ∧
    (∀ n ∈ [0, 0x17, 0x7F], ∃ d : Word, ((tending serving).cmdRw 0x2000 false 0x40000000 0xF d).blk 0x2000 % 256 = n ∧ n ∈ unitNumbers) ∧
    (∃ d : Word, ((tending serving).cmdRw 0x2000 false 0x40000000 0xF d).blk 0x2000 % 256 = 0x18 ∧ 0x18 ∉ unitNumbers) ∧
    ({ serving with bg := { Bg.reset with unitBusy := some (1, 0) } } : State).bg.unitBusy ≠ none ∧
    (serving.bg.unitBusy = none ∧ serving.maintaining = false ∧ (tending serving).maintaining = true) ∧
    ((unitAs 0 (fun u => { u with fltFence := true }) (tending serving)).unit 0).fltFence = true ∧
    ((tending serving).fenceEmpties 0 = false ∧ ((tending serving).unit 0).testFence = false ∧ isTapSrc 0 = false ∧ isTapSrc 0x7F = true ∧
      (tending serving).fenceEmpties 0x7F = false) ∧
    ([0x31, 0x32, 0x33, 0x34, 0x35, 0x36, 0x37].foldl (fun t u => unitAs u (fun x => { x with fltFence := true }) t)
      (tending serving)).fenceEmpties 0x30 = true ∧
    ((unitAs 0 (fun u => { u with testFence := true }) (tending serving)).unit 0).testFence = true ∧
    (let s : State := { tending serving with bg := { Bg.reset with unitBusy := some (1, 0) } }
     s.bg.unitBusy = some (1, 0) ∧ (s.unit 0).work = .idle ∧ (s.unit 0).save = none ∧
      ((unitAs 0 (fun u => { u with work := .req 1 }) s).unit 0).work ≠ .idle) ∧
    (let s : State := unitAs 0 (fun u => { u with work := .unitTest, power := .awake })
      { tending serving with bg := { Bg.reset with unitBusy := some (2, 0) } }
     s.bg.unitBusy = some (2, 0) ∧ (s.unit 0).work = .unitTest ∧ (s.unit 0).power = .awake ∧ s.leaving = false) := by
  refine ⟨by decide, ?_, ⟨0x118#32, by decide, by decide⟩, by decide⟩
  intro n h
  simp only [List.mem_cons, List.not_mem_nil, or_false] at h
  rcases h with rfl | rfl | rfl
  · exact ⟨0x100#32, by decide, by decide⟩
  · exact ⟨0x117#32, by decide, by decide⟩
  · exact ⟨0x17F#32, by decide, by decide⟩

theorem witness_EntropyEvents :
    (on.pins.fabClk = true ∧ on.pins.aonRel = true ∧ on.portErr true false 0xB04 = false ∧ (1#4).getLsbD 0 = true ∧ (1#32).getLsbD 0 = true ∧
      on.rng.ready = true) ∧
    ((2#4).getLsbD 0 = false ∧ (2#32).getLsbD 0 = false) ∧
    (State.reset.rng.ready = false ∧ State.reset.rng.startup = false) ∧
    ({ on with rng := { Rng.reset with ready := true, reseeding := true } } : State).rng.reseeding = true ∧
    (let s : State := { on with rng := { Rng.reset with ready := true, count := 2 ^ 20 - 1 } }; 2 ^ 20 ≤ s.rng.count + 1 ∧ s.rng.ready = true) ∧
    (let s : State := { on with rng := { Rng.reset with startup := true } }; s.rng.startup = true ∧ ∀ q ∈ s.reqs, q.2.phase ≠ .waitRand) := by
  decide

/-- The mailbox pair 0 with a message: the inbound mailbox full, or the message taken by firmware. -/
def mail (l : List (Nat × Nat)) : State :=
  { on with mbx := { Mbx.reset with boxes := Mbx.reset.boxes.set 0 { Mbox.reset with data := entry l, full := true } } }
def taking (l : List (Nat × Nat)) : State :=
  { on with mbx := { Mbx.reset with taken := [[⟨entry l, none, false, false⟩], [], [], []] } }

theorem witness_MailboxCommands :
    (on.pins.aonRel = true ∧ ∀ k < 8, on.portErr true false (0x1040 + 0x80 * k) = false ∧ (on.box k).full = false) ∧
    ((1#32).getLsbD 0 = true ∧ (1#32).getLsbD 1 = false ∧ (2#32).getLsbD 0 = false ∧ (2#32).getLsbD 1 = true) ∧
    ((mail [(0, 1)]).mbxServed = true ∧ ((mail [(0, 1)]).box 0).full = true ∧ ((mail [(0, 1)]).box 0).origin = false ∧
      (mail [(0, 1)]).canReply 0 = true ∧ services.contains (mSvc ((mail [(0, 1)]).box 0).data) = true) ∧
    (let s : State := { mail [(0, 1)] with mbx := { (mail [(0, 1)]).mbx with replies := List.replicate 4 (List.replicate 5 (zeros 64, false)) } }
     s.canReply 0 = false ∧ (s.box 0).full = true) ∧
    (let s : State := { on with mbx := { Mbx.reset with boxes := Mbx.reset.boxes.set 7 { Mbox.reset with full := true }
                                                        taken := [[], [], [], [⟨zeros 64, some [], false, false⟩]] } }
     (s.box 7).full = true ∧ s.takenOf 3 = [⟨zeros 64, some [], false, false⟩] ∧ (s.repliesOf 3).length < 4) ∧
    (let s : State := { on with mbx := { Mbx.reset with replies := [[], [], [], [([], true)]] } }
     (s.box 7).full = false ∧ s.repliesOf 3 = [([], true)] ∧ on.repliesOf 0 = []) ∧
    (on.pins.fabClk = true ∧ on.pins.aonRel = true ∧ on.portErr true false 0x1408 = false ∧ on.portErr true false 0x140C = false) ∧
    (∀ svc ∈ services, ∃ m, (taking [(0, svc)]).takenOf 0 = [m] ∧ [m].findIdx? (fun t => t.reply.isNone) = some 0 ∧ m.dropped = false ∧
      mSvc m.bytes = svc ∧ unusedOk m.bytes 8 = true) ∧
    (unusedOk (entry [(0, 1)]) 64 = true ∧ unusedOk (entry [(0, 1), (1, 1)]) 64 = false) ∧
    (on.running = true ∧ zeroAt (entry [(0, 0x10)]) 9 1 = true ∧ on.queried 0 0 = none ∧ (inMode .waking on).running = false ∧
      serving.part (fld (entry [(0, 0x11)]) 8 1) = some part0) ∧
    (on.mode.mode ≠ .maintenance ∧ (tending on).mode.mode = .maintenance ∧ (tending on).leaving = false ∧
      fld (entry [(0, 0x20), (12, 108)]) 12 4 = 108 ∧ fld (entry [(0, 0x20), (12, 108)]) 8 4 = 0) ∧
    (let m := entry [(0, 0x20), (8, 96), (12, 108)]
     let s : State := { tending on with mbx := { (tending on).mbx with staging := some (zeros 96, 108) } }
     fld m 8 4 ≠ 0 ∧ s.mbx.staging = some (zeros 96, 108) ∧ fld m 8 4 = (zeros 96).length ∧
      zeroAt (slice m 16 48) (108 - (zeros 96).length) (48 - (108 - (zeros 96).length)) = true ∧ fld (entry [(8, 48)]) 8 4 ≠ (zeros 96).length) := by
  refine ⟨by decide, by decide, by decide, by decide, by decide, by decide, by decide, ?_, by decide, by decide, by decide, by decide⟩
  intro v h
  simp only [services, List.mem_cons, List.not_mem_nil, or_false] at h
  rcases h with rfl | rfl | rfl | rfl | rfl <;> exact ⟨_, rfl, by decide⟩

/-- ACCT_QUERY of a slot whose account is held. -/
theorem witness_MailboxCommands_acct :
    (let s : State := { leasing true with hw := { Heart.reset with slots := [(0, { HwSlot.blank with
        st := .valid, attr := { KeyAttr.blank with alg := 3, len := 32, ledger := true, limitLog2 := 21 }, mat := zeros 32 })] } }
     s.queried 0 0 = some acct0) := by
  simp only [State.queried, State.acctOf]
  rw [show State.gslot _ 0 0 = some 0 from rfl]
  simp [State.slot, Store.find, KeyAttr.blank, Heart.reset, leasing, acct0, State.fpOf, State.devKey, State.reset, serving, on]

/-- A fault log with one entry, open or closed. -/
def logged (closed : Bool) : State :=
  { on with flt := { Flt.reset with log := [(0, { eid := 0, msg := ⟨0, 4, 0⟩, fatal := false, sat := false, count := 1, first := 0, last := 0,
                                                  closed := closed })] } }

theorem witness_FaultCollection :
    (∀ src ∈ [0x00, 0x8B], src ∈ sources ∧ (⟨src, 15, 0⟩ : FaultMsg) ∉ on.flt.inFlight ∧ on.maySend src = true) ∧ on.pins.blkRel = true ∧
    (let s : State := { on with flt := { Flt.reset with inFlight := [⟨0x8B, 6, 0⟩] } }; (⟨0x8B, 6, 0⟩ : FaultMsg) ∈ s.flt.inFlight) ∧
    (((logged false).openEntry ⟨0, 4, 9⟩).isSome = true ∧ (logged true).openEntry ⟨0, 4, 9⟩ = none ∧
      (logged true).freeEntry ((logged true).action ⟨0, 4, 9⟩ == 2) = some 1) ∧
    (0x18 ∉ sources ∧ State.reset.pins.aonRel = false) ∧
    (let s := unitAs 0x37 (fun u => { u with work := .req 1 }) on; isUnitSrc 0x37 = true ∧ (s.unit 0x37).work ≠ .idle ∧ s.mode.mode ≠ .dormant) ∧
    (on.unit 0x37).work = .idle ∧
    (on.pins.fabClk = true ∧ on.pins.aonRel = true ∧ on.portErr true false (0x1800 + 4 * 0x8B) = false ∧ (8#4).getLsbD 3 = true ∧
      on.flt.lock = false ∧
      ({ on with flt := { Flt.reset with lock := true } } : State).flt.lock = true) ∧
    (on.portErr true false 0x1C04 = false ∧ on.flt.lockFixed = false ∧ (14#4).getLsbD 0 = false) ∧ on.portErr true false 0x1C14 = false := by
  decide

theorem witness_RingsAndBackground :
    (let s : State := { logged false with regsBlk := [(0x1C48, 0x106)] }
     bitAt (s.blk 0x1C48) 8 = true ∧ s.running = true ∧ s.mode.safe = false ∧ occ s.fltN s.flt.ringTail s.flt.ringHead < s.fltN ∧
      (oldestEntry s.flt.log).isSome = true ∧ dbIndex s.fltN 63#32 = some 63 ∧ dbIndex s.fltN 64#32 = none) ∧
    (bitAt (on.blk 0x1C48) 8 = false ∧ oldestEntry on.flt.log = none ∧ bitAt (on.blk 0x2108) 8 = false) ∧
    (on.portErr true false 0x1C4C = false ∧ dbIndex on.fltN 0#32 = some 0 ∧
      occ on.fltN on.flt.ringTail 0 ≤ occ on.fltN on.flt.ringTail on.flt.ringHead) ∧
    (on.portErr true false 0x2114 = false ∧ dbIndex on.telN 0#32 = some 0 ∧ dbIndex on.telN 0x20000#32 = none ∧
      occ on.telN on.bg.telTail 0 ≤ occ on.telN on.bg.telTail on.bg.telHead) ∧
    (on.pins.fabClk = true ∧ on.pins.aonRel = true ∧ on.portErr true false 0x1C48 = false ∧ on.portErr true false 0x2108 = false ∧
      (2#4).getLsbD 1 = true) ∧
    (let s : State := { on with regsBlk := [(0x2108, 0x10106)] }
     bitAt (s.blk 0x2108) 8 = true ∧ bitsAt (s.blk 0x2108) 16 8 ≠ 0 ∧ s.running = true ∧ s.mode.safe = false) ∧
    (on.mode.fllLock = true ∧ on.mode.mode ≠ .dormant ∧ unlocked.mode.fllLock = false) ∧
    (on.scrubTurn .context 0 0 = true ∧ on.scrubTurn .context 0 1 = false ∧
      (on.scrubStep .context 0 191).scrubTurn .context 0 0 = true ∧ (on.scrubStep .context 0 0).scrubTurn .context 0 1 = true) ∧
    (0 * on.pins.aonFreq * 100 < 99 * (1024 * pointFreq on.mode.active) ∧
      99 * (1024 * pointFreq on.mode.active) ≤ 21333 * on.pins.aonFreq * 100 ∧
      21333 * on.pins.aonFreq * 100 ≤ 101 * (1024 * pointFreq on.mode.active)) := by
  refine ⟨by decide, by decide, by decide, by decide, by decide, by decide, by decide, by decide, ?_⟩
  simp [on, Pins.reset, State.reset, ModeCtl.reset, pointFreq]

theorem witness_InterruptVectors :
    (serving.pins.fabClk = true ∧ serving.pins.aonRel = true ∧ serving.part 0 = some part0 ∧ part0.assign.vectors = 8) ∧
    (∀ v ∈ [7, 8, 31], serving.portErr false false (pageAt 0 (0x40C + 16 * v)) = false ∧ (part0.vec v).pend = false ∧ (part0.vec v).count = 0 ∧
      (part0.vec v).timer = false) ∧
    (serving.portErr false false (pageAt 0 0x38) = false ∧ serving.portErr false false (pageAt 0 0x3C) = false) ∧
    (0x80#32).getLsbD 7 = true ∧ (({ part0 with vecs := [(7, ⟨false, 1, true⟩)] } : Partition).vec 7).timer = true := by decide

/-- The block with a pair identity, its link in a state. -/
def paired (l : Link) : State :=
  { on with
    regsAon := [(0xE00, 0x64140A01)]
    pins := { on.pins with phyRdy := true }
    pair := { Pair.reset with ident := ⟨true, 0, 0, false⟩, link := l, rxLanes := List.replicate 4 ⟨true, 4, 0, 0⟩ } }

theorem witness_LinkCommands :
    (on.pins.fabClk = true ∧ on.pins.aonRel = true ∧ on.portErr true false 0xE08 = false ∧ (1#4).getLsbD 0 = true) ∧
    ({ paired .off with pair := { (paired .off).pair with cmdWait := some 1 } } : State).pair.cmdWait ≠ none ∧
    (on.pair.cmdWait = none ∧ on.mode.mode ≠ .maintenance ∧ on.session = false ∧ on.pair.ident.paired = false) ∧
    ((tending (paired .synced)).mode.mode = .maintenance ∧ (tending (paired .synced)).session = true ∧
      (tending (paired .off)).session = false) ∧
    ((paired .off).pair.ident.paired = true ∧ bitAt ((paired .off).aon 0xE00) 0 = true ∧ (paired .off).linkMayRun = true ∧
      (paired .off).session = false ∧ (paired .align).pair.link ≠ .off) ∧
    ((paired .reset).pair.link = .reset ∧ (paired .reset).pins.phyRdy = true ∧ on.pair.link ≠ .reset) ∧
    ((paired .align).pair.link = .align ∧ (paired .align).linkReady = true ∧ laneSet (paired .align).lockedMask (0xF#4).toNat = some 0xF ∧
      laneSet (paired .align).lockedMask (8#4).toNat = some 8 ∧ laneSet (paired .align).lockedMask (0#4).toNat = none) ∧
    ((0xE21D#64).toNat % 0x10000 = 0xE21D ∧ bitsAt (0xE21D#64).toNat 20 4 ≠ 2 ∧ bitsAt (0xE21D#64).toNat 20 4 ≠ 0xF) ∧
    ((paired .align).rxLane 0).bad < 3 := by decide

theorem witness_LinkCommands_auth :
    (paired .auth).pair.link = .auth ∧ (∀ q ∈ (paired .auth).reqs, q.2.phase ≠ .waitLease) ∧ ([] : Bytes).length ≠ 48 ∧
    (∃ tag, tag = cmac ((paired .auth).devKey "PRA" []) ([] ++ zeros 48)) ∧
    ((zeros 48).length = 48 ∧ fld (zeros 48) 10 2 ≠ 3) ∧
    (let b := zeros 10 ++ [3, 0] ++ zeros 36
     b.length = 48 ∧ fld b 10 2 = 3 ∧ fld b 0 4 = (paired .auth).pair.ident.pairId ∧ fld b 4 1 = (paired .auth).pair.ident.inst) ∧
    (let b := zeros 4 ++ [1] ++ zeros 5 ++ [3, 0] ++ zeros 36
     b.length = 48 ∧ fld b 10 2 = 3 ∧ fld b 0 4 = (paired .auth).pair.ident.pairId ∧ fld b 4 1 ≠ (paired .auth).pair.ident.inst) ∧
    (let b : Bytes := [1] ++ zeros 9 ++ [3, 0] ++ zeros 36
     b.length = 48 ∧ fld b 10 2 = 3 ∧ fld b 0 4 ≠ (paired .auth).pair.ident.pairId) := by
  refine ⟨rfl, by decide, by decide, ⟨_, rfl⟩, by decide, by decide, by decide, by decide⟩

theorem witness_ReceivedFrames :
    (on.session = false ∧ on.follows = false ∧ (paired .synced).session = true ∧ 0 ≠ (paired .synced).pair.rxSeq + 1) ∧
    (1 = (paired .resync).pair.rxSeq + 1 ∧ (paired .resync).running = true ∧ (paired .resync).pair.link = .resync ∧
      (paired .resync).pair.dualActive = false ∧ (paired .resync).pair.shadow = none) ∧
    ({ paired .resync with pair := { (paired .resync).pair with handover := true } } : State).pair.handover = true ∧
    ((inMode .follower (paired .synced)).follows = true ∧ (inMode .follower (paired .synced)).session = true) ∧
    (let img := (emptyBank true).image
     let s : State := { inMode .follower (paired .resync) with
       pair := { (paired .resync).pair with peerActive := true, shadow := some ⟨[], some img⟩ } }
     s.pair.shadow.bind (·.config) = some img ∧ s.follows = true ∧ s.pair.peerActive = true) ∧
    (let s : State := { paired .synced with pair := { (paired .synced).pair with sent := [(3, .lease 1 1)] } }
     (∃ g ∈ s.pair.sent, g.1 = 3 ∧ g.2.isLease = true) ∧ s.strictPair = false ∧ s.pair.sent ≠ [] ∧ s.pair.retx < 8) ∧
    (let s : State := { paired .synced with pair := { (paired .synced).pair with sent := [(3, .snapEnd)], retx := 8 } }
     8 ≤ s.pair.retx ∧ ∃ g ∈ s.pair.sent, g.1 ≤ 3 ∧ g.2 = .snapEnd) ∧
    ((paired .synced).pair.link = .synced ∧ (paired .align).pair.link ≠ .synced) := by decide

/-! ### Small steps whose results the spec gives -/

/-- The state after a command. -/
def after (c : Instr) (s : State) : State := match exec c s with | .next t => t | _ => s

/-- BLK_ID 0x0003_0100, and BLK_ID alone answers REG_PRIV 0 on the global page (R76, R538). -/
theorem test_blk_id : on.regRead true 0 = (0x00030100, false) ∧ on.regRead false 0 = (0x00030100, false) ∧ on.regRead false 4 = (0, true) := by
  decide

/-- AON_FREQ 3840 (38.4 MHz): one CLK_AON advances SEAL_TIME by 26 ns, the fraction 160/3840 carried (R339). -/
theorem test_seal_time_tick : (match step on with | .next t => (t.time.ns, t.time.frac) | _ => (0, 0)) = (26, 160) := by decide

/-- SERVICE to DRAIN (R94); a reserved TARGET sets BAD_REQ alone (R95). -/
theorem test_target_writes :
    (after (.targetDormant true 0xF false) on).mode.mode = .drain ∧ (after (.targetReserved true 0xF false) on).mode.mode = .service ∧
    (after (.targetReserved true 0xF false) on).mode.badReq = true := by decide

/-- The worked example of R163: 64 completions posted; CQ_DB 0x0001_0000 releases them and restores 64 credits, with LAP 1. -/
theorem test_cq_db_worked_example :
    let x : Queue := { q0 with cqTail := 64 }
    x.credits = 0 ∧ ((after (.cqDb 0 1 0xF 0x10000) (withQueue x)).queue 0 1).map (·.credits) = some 64 := by decide

/-- SQ_DB with TAIL 3 and LAP 0 on a ring of 64; with TAIL 64 it is not accepted, DB_ERR sets, and REG_ERR stays 0 (R140). -/
theorem test_sq_db :
    ((after (.sqDb 0 1 0xF 3) (withQueue q0)).queue 0 1).map (fun y => (y.tail, y.dbErr)) = some (3, false) ∧
    ((after (.sqDb 0 1 0xF 64) (withQueue q0)).queue 0 1).map (fun y => (y.tail, y.dbErr)) = some (0, true) ∧
    (after (.sqDb 0 1 0xF 64) (withQueue q0)).port = ⟨0, false⟩ := by decide

/-- TCK in Capture-DR loads IDCODE: bit 0 is 1, and with TEST_MFR 0x43 the whole reads 0x10D48087 (R88). -/
theorem test_idcode :
    let s : State := { on with pins := { on.pins with testMfr := 0x43 }, jtag := { Jtag.reset with st := .captureDr } }
    (after (.testAccess true false false) s).jtag.drSh =
      (List.range 32).map (fun i => Nat.testBit 0x10D48087 i) := by decide

/-- A tamper input sets its latch and erases the slots; the message of kind 6 follows (R85, R414, R541). -/
theorem test_tamper :
    let t := after (.tamperRegistered 2) (keyed 3 32 7 false 0)
    t.pins.tamperLatch = [2] ∧ t.hw.slots = [] ∧ t.hw.alarm = true ∧ t.flt.inFlight = [⟨0x8A, 6, 0⟩] := by decide

/-- GO on MB0 fills it; on the outbound MB4 it is GO_REJ (R464). -/
theorem test_mailbox_go :
    ((after (.mbGo true 0xF 0 1) on).box 0).full = true ∧ ((after (.mbGo true 0xF 4 1) on).box 4).full = false ∧
    ((after (.mbGo true 0xF 4 1) on).box 4).goRej = true := by decide

/-- RF_DATA with nothing committed reads 0 and sets UNDERRUN (R389). -/
theorem test_rf_underrun :
    let t := after (.rfDataRead 0 none) serving
    t.port = ⟨0, false⟩ ∧ (t.part 0).map (fun p => (p.rf.underrun, p.rf.rd)) = some (true, 0) := by decide

/-- PM_CMD CREATE of partition 3 in SERVICE at the assignment registers' reset values takes one queue (R171, R178). -/
theorem test_pm_create :
    let t := after (.pmCreate true 0xF 0x103) serving
    (t.part 3).map (fun p => (p.assign.queues, p.queues.map Prod.fst)) = some (1, [0]) ∧ t.pm.done = true ∧ t.pm.rej = false := by decide

/-- HW_CMD and UNIT_CMD outside MAINTENANCE are refused with REASON 1 (R410, R518); an undefined OP with 8. -/
theorem test_refusals :
    (after (.zeroise true 0xF 4) serving).hw.reason = 1 ∧ (after (.hwCmdUndefinedOp true 0xF 5) serving).hw.reason = 8 ∧
    (after (.unitFence true 0xF 0x100) serving).bg.unitReason = 1 := by decide

/-- A LOG-reaction message raises IRQ per the reset value of its register and is counted in one entry (R480, R491, R492). -/
theorem test_fault_logged :
    let t := after (.faultMessage 0x00 4 9) (after (.faultMessage 0x00 4 8) on)
    (Store.find t.flt.log 0).map (fun e => (e.msg.addr, e.count)) = some (8, 2) ∧ t.flt.new = true := by decide

/-- The link leaves RESET for ALIGN, and a lane locks after four good markers (R436, R439). -/
theorem test_link :
    (after .linkResetDone (paired .reset)).pair.link = .align ∧
    (let s : State := { paired .align with pair := { (paired .align).pair with rxLanes := List.replicate 4 ⟨false, 3, 0, 0⟩ } }
     ((after (.rlkBlockRx 0 (some 0xE21D) true []) s).rxLane 0).locked = true) := by decide

end Sys2Proof.Tests
end

section
/-! The register port: where REG_WRITE sends a write (spec/01 R14, R16, spec/02 R75), what a write at the port answers, and the statements
O30 and O31 of spec/00_scope.md. -/

namespace Sys2Proof.Machine

/-! ### Offsets -/

theorem pageOf_pageAt (part off : Nat) (h : off < 0x4000) : pageOf (pageAt part off) = part := by
  simp only [pageOf, pageAt]; omega

theorem pageOff_pageAt (part off : Nat) (h : off < 0x4000) : pageOff (pageAt part off) = off := by
  simp only [pageOff, pageAt]; omega

theorem inRow_eq_true_iff (off base step n : Nat) :
    inRow off base step n = true ↔ base ≤ off ∧ (off - base) % step = 0 ∧ (off - base) / step < n := by
  simp [inRow, and_assoc]

theorem not_inRow {off base step n : Nat} (h : ¬ (base ≤ off ∧ (off - base) % step = 0 ∧ (off - base) / step < n)) :
    ¬ inRow off base step n = true := mt (inRow_eq_true_iff off base step n).1 h

/-- The row of a family that holds its k-th register. -/
theorem inRow_member (base step n k : Nat) (hs : 0 < step) (hk : k < n) : inRow (base + step * k) base step n = true := by
  simp [inRow, Nat.mul_div_cancel_left k hs, hk]

/-! ### Where REG_WRITE sends a write -/

theorem exec_regWrite_global (s : State) (priv : Bool) (ben : BitVec 4) (off : Nat) (d : Word) (h : off < 0x10000) :
    exec (.regWrite priv ben off d) s = s.globalWrite priv ben off d := if_pos h

theorem exec_regWrite_page (s : State) (priv : Bool) (ben : BitVec 4) (part off : Nat) (d : Word) (hp : part < 64) (ho : off < 0x4000) :
    exec (.regWrite priv ben (pageAt part off) d) s = s.pageWrite ben part off d := by
  have hlo : ¬ pageAt part off < 0x10000 := by simp only [pageAt]; omega
  have hhi : pageAt part off < 0x110000 := by simp only [pageAt]; omega
  calc exec (.regWrite priv ben (pageAt part off) d) s
      = s.pageWrite ben (pageOf (pageAt part off)) (pageOff (pageAt part off)) d := (if_neg hlo).trans (if_pos hhi)
    _ = s.pageWrite ben part off d := by rw [pageOf_pageAt part off ho, pageOff_pageAt part off ho]

theorem exec_regWrite_beyond (s : State) (priv : Bool) (ben : BitVec 4) (off : Nat) (d : Word) (h : 0x110000 ≤ off) :
    exec (.regWrite priv ben off d) s = .next (s.portWrite priv off ben false (fun t => t)) :=
  (if_neg (show ¬ off < 0x10000 by omega)).trans (if_neg (show ¬ off < 0x110000 by omega))

/-! ### The registers of a partition page -/

theorem State.pageWrite_qCtl (s : State) (ben : BitVec 4) (p q : Nat) (d : Word) (hq : q < 64) :
    s.pageWrite ben p (0x100 + 8 * q) d = execQCtlWrite p q ben d s := by
  have hk : (0x100 + 8 * q - 0x100) / 8 = q := by omega
  rw [State.pageWrite, if_pos (inRow_member 0x100 8 64 q (by omega) hq), hk]

theorem State.pageWrite_sqDb (s : State) (ben : BitVec 4) (p q : Nat) (d : Word) (hq : q < 64) :
    s.pageWrite ben p (0x800 + 16 * q) d = execSqDb p q ben d s := by
  have hk : (0x800 + 16 * q - 0x800) / 16 = q := by omega
  rw [State.pageWrite, if_neg (not_inRow (by omega)), if_neg (not_inRow (by omega)),
    if_pos (inRow_member 0x800 16 64 q (by omega) hq), hk]

theorem State.pageWrite_cqDb (s : State) (ben : BitVec 4) (p q : Nat) (d : Word) (hq : q < 64) :
    s.pageWrite ben p (0x804 + 16 * q) d = execCqDb p q ben d s := by
  have hk : (0x804 + 16 * q - 0x804) / 16 = q := by omega
  rw [State.pageWrite, if_neg (not_inRow (by omega)), if_neg (not_inRow (by omega)),
    if_neg (not_inRow (by omega)), if_pos (inRow_member 0x804 16 64 q (by omega) hq), hk]

theorem State.pageWrite_inval (s : State) (ben : BitVec 4) (p q : Nat) (d : Word) (hq : q < 64) :
    s.pageWrite ben p (0x808 + 16 * q) d = execInval p q ben d s := by
  have hk : (0x808 + 16 * q - 0x808) / 16 = q := by omega
  rw [State.pageWrite, if_neg (not_inRow (by omega)), if_neg (not_inRow (by omega)),
    if_neg (not_inRow (by omega)), if_neg (not_inRow (by omega)),
    if_pos (inRow_member 0x808 16 64 q (by omega) hq), hk]

theorem State.pageWrite_sealDb (s : State) (ben : BitVec 4) (p k : Nat) (d : Word) (hk : k < 64) :
    s.pageWrite ben p (0x1000 + 16 * k) d = execSealDb p k ben d s := by
  have he : (0x1000 + 16 * k - 0x1000) / 16 = k := by omega
  rw [State.pageWrite, if_neg (not_inRow (by omega)), if_neg (not_inRow (by omega)),
    if_neg (not_inRow (by omega)), if_neg (not_inRow (by omega)),
    if_neg (not_inRow (by omega)), if_pos (inRow_member 0x1000 16 64 k (by omega) hk), he]

theorem State.pageWrite_vecMset (s : State) (ben : BitVec 4) (p : Nat) (d : Word) :
    s.pageWrite ben p 0x38 d = execVecMset p ben d s := rfl

theorem State.pageWrite_vecMclr (s : State) (ben : BitVec 4) (p : Nat) (d : Word) :
    s.pageWrite ben p 0x3C d = execVecMclr p ben d s := rfl

/-! ### The registers of the global page -/

/-- The global registers outside the two families whose write has a command of its own. -/
def commandOffsets : List Nat :=
  [0x100, 0x10C, 0x200, 0x400, 0x80C, 0xA04, 0xB04, 0xC00, 0xD08, 0xD1C, 0xD20, 0xE08, 0x1408, 0x140C, 0x1C04, 0x1C14, 0x1C4C, 0x2000,
   0x2114]

/-- The write of a global register has a command of its own, for some data at least. -/
def isCommandReg (off : Nat) : Bool :=
  commandOffsets.contains off || inRow off 0xA40 4 16 || inRow off 0x1040 0x80 8

/-- The global registers outside the mailboxes and reactions on which a served write does more than the RW fields take. -/
def effectOffsets : List Nat :=
  [0x10, 0x14, 0x18, 0x30, 0x104, 0x108, 0x208, 0x20C, 0x400, 0x420, 0x804, 0x80C, 0xA00, 0xA08, 0xB00, 0xB14, 0xC00, 0xC0C, 0xD00, 0xD04,
   0xD24, 0xE00, 0xE08, 0xE14, 0x1400, 0x1C08, 0x1C40, 0x1C44, 0x1C48, 0x2000, 0x2004, 0x2100, 0x2104, 0x2108, 0x211C]

/-- A served write of a global register does more than its RW fields take. -/
def hasOwnEffect (off : Nat) : Bool :=
  effectOffsets.contains off || decide (0x1000 ≤ off ∧ off < 0x1400) || decide (0x1800 ≤ off ∧ off < 0x1C00)

/-- A write of a register whose write is no command is a plain write at the port (R14). -/
theorem State.globalWrite_plain (s : State) (priv : Bool) (ben : BitVec 4) (off : Nat) (d : Word) (h : isCommandReg off = false) :
    s.globalWrite priv ben off d = .next (s.portWrite priv off ben (isW1c off) (fun t => t.globalEffect off ben d)) := by
  unfold State.globalWrite
  split
  case h_20 =>
    simp only [isCommandReg, Bool.or_eq_false_iff] at h
    obtain ⟨⟨-, htap⟩, hbox⟩ := h
    simp [htap, hbox]
  all_goals exact absurd h (by decide)

/-- A register without an effect of its own takes the data in its RW fields alone (R14). -/
theorem State.globalEffect_rw (s : State) (off : Nat) (ben : BitVec 4) (d : Word) (h : hasOwnEffect off = false) :
    s.globalEffect off ben d = if isAonReg off then s.rwAon off ben d else s.rwBlk off ben d := by
  unfold State.globalEffect
  split
  case h_36 =>
    simp only [hasOwnEffect, Bool.or_eq_false_iff, decide_eq_false_iff_not] at h
    obtain ⟨⟨-, hbox⟩, hrct⟩ := h
    rw [if_neg hbox, if_neg hrct]
  all_goals exact absurd h (by decide)

theorem State.globalWrite_tapOwn (s : State) (priv : Bool) (ben : BitVec 4) (tap : Nat) (d : Word) (h : tap < 16) :
    s.globalWrite priv ben (0xA40 + 4 * tap) d = execTapOwnWrite priv ben tap d s := by
  interval_cases tap <;> rfl

theorem State.globalWrite_targetDrain (s : State) (priv : Bool) (ben : BitVec 4) (d : Word) (h : d.toNat % 8 = 2) :
    s.globalWrite priv ben 0x100 d = execTargetDrain priv ben (d.getLsbD 4) s := by
  simp only [State.globalWrite, State.writeModeCtl, h]

theorem State.globalWrite_pmCreate (s : State) (priv : Bool) (ben : BitVec 4) (d : Word) (h : bitsAt d.toNat 8 2 = 1) :
    s.globalWrite priv ben 0x400 d = execPmCreate priv ben d s := by
  simp only [State.globalWrite, h]

theorem State.globalWrite_zeroise (s : State) (priv : Bool) (ben : BitVec 4) (d : Word) (h : d.toNat % 8 = 4) :
    s.globalWrite priv ben 0xC00 d = execZeroise priv ben d s := by
  simp only [State.globalWrite, h]

theorem State.globalWrite_unitUnfence (s : State) (priv : Bool) (ben : BitVec 4) (d : Word) (h : bitsAt d.toNat 8 2 = 3) :
    s.globalWrite priv ben 0x2000 d = execUnitUnfence priv ben d s := by
  simp only [State.globalWrite, h]

theorem State.globalWrite_sealTimeHi (s : State) (priv : Bool) (ben : BitVec 4) (d : Word) :
    s.globalWrite priv ben 0xA04 d = execSealTimeHiWrite priv ben d s := rfl

theorem State.globalWrite_ledgerPurge (s : State) (priv : Bool) (ben : BitVec 4) (d : Word) :
    s.globalWrite priv ben 0x80C d = if d.getLsbD 0 then execLedgerPurgeGo priv ben d s else
      .next (s.portWrite priv 0x80C ben true (fun t => t.globalEffect 0x80C ben d)) := rfl

/-- Settles O30: the offset selects the page and the row in it, and for a command register of the global page the data selects the
operation. -/
theorem regWriteIsItsCommand : Obligations.RegWriteIsItsCommand := by
  intro s priv ben d
  have hpage := fun part hp off ho => exec_regWrite_page s priv ben part off d hp ho
  have hglobal := fun off ho => exec_regWrite_global s priv ben off d ho
  refine ⟨fun part q hp hq => ⟨?_, ?_, ?_, ?_, ?_, ?_, ?_⟩, fun h => ?_, fun h => ?_, fun h => ?_, fun h => ?_, fun tap h => ?_, ?_⟩
  · exact (hpage part hp _ (by omega)).trans (s.pageWrite_sqDb ben part q d hq)
  · exact (hpage part hp _ (by omega)).trans (s.pageWrite_cqDb ben part q d hq)
  · exact (hpage part hp _ (by omega)).trans (s.pageWrite_inval ben part q d hq)
  · exact (hpage part hp _ (by omega)).trans (s.pageWrite_qCtl ben part q d hq)
  · exact (hpage part hp _ (by omega)).trans (s.pageWrite_sealDb ben part q d hq)
  · exact (hpage part hp _ (by omega)).trans (s.pageWrite_vecMset ben part d)
  · exact (hpage part hp _ (by omega)).trans (s.pageWrite_vecMclr ben part d)
  · exact (hglobal _ (by omega)).trans (s.globalWrite_targetDrain priv ben d h)
  · exact (hglobal _ (by omega)).trans (s.globalWrite_pmCreate priv ben d h)
  · exact (hglobal _ (by omega)).trans (s.globalWrite_zeroise priv ben d h)
  · exact (hglobal _ (by omega)).trans (s.globalWrite_unitUnfence priv ben d h)
  · exact (hglobal _ (by omega)).trans (s.globalWrite_tapOwn priv ben tap d h)
  · exact (hglobal _ (by omega)).trans (s.globalWrite_sealTimeHi priv ben d)

/-! ### The kinds of register -/

theorem fullBen_eq_false (ben : BitVec 4) (h : ben ≠ 0xF) : fullBen ben = false := by
  simpa [fullBen] using h

/-- With every byte enabled a register whose bits are all RW takes the data. -/
theorem mergeWord_all (old d : Word) : mergeWord old 0xFFFFFFFF 0xF d = d := by
  have hmask : benMask 0xF &&& wordOf 0xFFFFFFFF = BitVec.allOnes 32 := by decide
  simp only [mergeWord, hmask, BitVec.not_allOnes, BitVec.and_zero, BitVec.zero_or, BitVec.and_allOnes]

/-- R75: a write that leaves out a byte of a register that needs them all gets REG_ERR and has no effect. -/
theorem State.portWrite_partial (s : State) (p : Bool) (off : Nat) (ben : BitVec 4) (f : State → State) (hclk : s.pins.fabClk = true)
    (hport : s.portErr p false off = false) (hben : fullBen ben = false) :
    s.portWrite p off ben true f = { s with port := ⟨0, true⟩ } := by
  simp [State.portWrite, hclk, hport, hben, State.wrote]

theorem State.rwAon_of_row (s : State) (off : Nat) (ben : BitVec 4) (d : Word) (r : RwReg) (h : rowAt aonTable off = some r) :
    s.rwAon off ben d = s.setAon off (mergeWord (wordOf (s.aon off)) r.mask ben d) := by
  simp only [State.rwAon, h]

theorem State.rwAon_of_no_row (s : State) (off : Nat) (ben : BitVec 4) (d : Word) (h : rowAt aonTable off = none) :
    s.rwAon off ben d = s := by
  simp only [State.rwAon, h]

theorem State.rwBlk_of_no_row (s : State) (off : Nat) (ben : BitVec 4) (d : Word) (h : rowAt blkTable off = none) :
    s.rwBlk off ben d = s := by
  simp only [State.rwBlk, h]

/-- A global offset that holds no writable field and starts no command. -/
def isReadOnlyAt (off : Nat) : Bool :=
  decide (off < 0x10000) && !isCommandReg off && !hasOwnEffect off && !isW1c off
    && (rowAt aonTable off).isNone && (rowAt blkTable off).isNone

theorem isReadOnlyAt_iff (off : Nat) : isReadOnlyAt off = true ↔ off < 0x10000 ∧ isCommandReg off = false ∧ hasOwnEffect off = false ∧
    isW1c off = false ∧ rowAt aonTable off = none ∧ rowAt blkTable off = none := by
  simp [isReadOnlyAt, and_assoc]

theorem State.globalEffect_readOnly (s : State) (off : Nat) (ben : BitVec 4) (d : Word) (h : isReadOnlyAt off = true) :
    s.globalEffect off ben d = s := by
  obtain ⟨-, -, heff, -, haon, hblk⟩ := (isReadOnlyAt_iff off).1 h
  rw [s.globalEffect_rw off ben d heff, s.rwAon_of_no_row off ben d haon, s.rwBlk_of_no_row off ben d hblk, ite_self]

/-- LEDGER_PURGE alone of the global registers with W1C fields has a command of its own. -/
theorem isW1c_plain_or_ledgerPurge (off : Nat) (h : isW1c off = true) :
    off < 0x10000 ∧ (isCommandReg off = false ∨ off = 0x80C) := by
  simp only [isW1c, Bool.or_eq_true, List.contains_iff_mem, inRow_eq_true_iff] at h
  rcases h with hlist | ⟨hlo, hmod, hlt⟩
  · revert off; decide
  · obtain ⟨k, hk, rfl⟩ : ∃ k < 8, off = 0x1044 + 0x80 * k := ⟨(off - 0x1044) / 0x80, hlt, by omega⟩
    revert k; decide

/-- R93: MODE_STAT clears its four W1C flags where the data is 1. -/
theorem State.globalEffect_modeStat (s : State) (ben : BitVec 4) (d : Word) :
    s.globalEffect 0x104 ben d = { s with mode := { s.mode with
      warmFail := s.mode.warmFail && !(d.getLsbD 10), chg := s.mode.chg && !(d.getLsbD 11)
      drainExp := s.mode.drainExp && !(d.getLsbD 12), badReq := s.mode.badReq && !(d.getLsbD 13) } } := rfl

section Served

variable (s : State) (p : Bool) (ben : BitVec 4) (off : Nat) (d : Word)

/-- A served write of a global register that is no command has that register's effect, and no REG_ERR (R14, R75). -/
theorem exec_regWrite_plain (hclk : s.pins.fabClk = true) (haon : s.pins.aonRel = true) (hport : s.portErr p false off = false)
    (hoff : off < 0x10000) (hcmd : isCommandReg off = false) (hben : isW1c off = false ∨ fullBen ben = true) :
    exec (.regWrite p ben off d) s = .next { s.globalEffect off ben d with port := ⟨0, false⟩ } := by
  rw [exec_regWrite_global s p ben off d hoff, s.globalWrite_plain p ben off d hcmd, s.portWrite_served p off ben _ _ hclk hport hben haon]

/-- A served write of an RW register of the always-on island merges the data into its RW fields. -/
theorem exec_regWrite_rwAon (r : RwReg) (hclk : s.pins.fabClk = true) (haon : s.pins.aonRel = true)
    (hport : s.portErr p false off = false) (hoff : off < 0x10000) (hcmd : isCommandReg off = false) (heff : hasOwnEffect off = false)
    (hw1c : isW1c off = false) (hreg : isAonReg off = true) (hrow : rowAt aonTable off = some r) :
    exec (.regWrite p ben off d) s = .next { s with
      regsAon := RegFile.set s.regsAon (rstOf aonTable off) off (mergeWord (wordOf (s.aon off)) r.mask ben d), port := ⟨0, false⟩ } := by
  rw [exec_regWrite_plain s p ben off d hclk haon hport hoff hcmd (.inl hw1c), s.globalEffect_rw off ben d heff, if_pos hreg,
    s.rwAon_of_row off ben d r hrow, State.setAon]

/-- A served write where nothing is writable changes nothing and gets no REG_ERR (R16). -/
theorem exec_regWrite_readOnly (hclk : s.pins.fabClk = true) (haon : s.pins.aonRel = true) (hport : s.portErr p false off = false)
    (h : isReadOnlyAt off = true) :
    exec (.regWrite p ben off d) s = .next { s with port := ⟨0, false⟩ } := by
  obtain ⟨hoff, hcmd, -, hw1c, -, -⟩ := (isReadOnlyAt_iff off).1 h
  rw [exec_regWrite_plain s p ben off d hclk haon hport hoff hcmd (.inl hw1c), s.globalEffect_readOnly off ben d h]

/-- R75 at every global register with W1C fields. -/
theorem exec_regWrite_w1c_partial (hclk : s.pins.fabClk = true) (hport : s.portErr p false off = false) (hben : ben ≠ 0xF)
    (hw1c : isW1c off = true) :
    exec (.regWrite p ben off d) s = .next { s with port := ⟨0, true⟩ } := by
  have hpart : ∀ f, s.portWrite p off ben true f = { s with port := ⟨0, true⟩ } :=
    fun f => s.portWrite_partial p off ben f hclk hport (fullBen_eq_false ben hben)
  obtain ⟨hoff, hcmd | rfl⟩ := isW1c_plain_or_ledgerPurge off hw1c <;> rw [exec_regWrite_global s p ben _ d hoff]
  · rw [s.globalWrite_plain p ben off d hcmd, hw1c, hpart]
  · rw [State.globalWrite_ledgerPurge, execLedgerPurgeGo, hpart, hpart, ite_self]

end Served

/-! ### The 64-bit registers -/

theorem exec_sealTimeLoRead_served (s : State) (p : Bool) (hclk : s.pins.fabClk = true) (hport : s.portErr p true 0xA00 = false) :
    exec (.sealTimeLoRead p) s = .next { s with
      time := { s.time with latch := wordOf (s.time.ns / 2 ^ 32) }, port := ⟨wordOf (s.time.ns % 2 ^ 32), false⟩ } := by
  change execSealTimeLoRead p s = _
  simp only [execSealTimeLoRead, hclk, hport, State.readOut]
  rfl

theorem exec_sealTimeHiWrite_served (s : State) (p : Bool) (d : Word) (hclk : s.pins.fabClk = true) (haon : s.pins.aonRel = true)
    (hport : s.portErr p false 0xA04 = false) :
    exec (.sealTimeHiWrite p 0xF d) s = .next { s with
      time := { s.time with ns := 2 ^ 32 * d.toNat + s.time.held.toNat, frac := 0 }, port := ⟨0, false⟩ } := by
  change execSealTimeHiWrite p 0xF d s = _
  rw [execSealTimeHiWrite, s.portWrite_served p 0xA04 0xF false _ hclk hport (.inl rfl) haon, mergeWord_all]

theorem exec_persistPendLoRead_served (s : State) (p : Bool) (hclk : s.pins.fabClk = true) (hport : s.portErr p true 0xD10 = false) :
    exec (.persistPendLoRead p false) s = .next { s with
      persist := { s.persist with pendHi := wordOf (s.persist.pendSeq / 2 ^ 32) }
      port := ⟨wordOf (s.persist.pendSeq % 2 ^ 32), false⟩ } := by
  change execPersistPendLoRead p false s = _
  simp only [execPersistPendLoRead, hclk, Bool.false_eq_true, if_false, hport, State.readOut]
  rfl

theorem exec_persistLastLoRead_served (s : State) (p : Bool) (hclk : s.pins.fabClk = true) (hport : s.portErr p true 0xD28 = false) :
    exec (.persistPendLoRead p true) s = .next { s with
      persist := { s.persist with lastHi := wordOf (s.persist.ackSeq / 2 ^ 32) }
      port := ⟨wordOf (s.persist.ackSeq % 2 ^ 32), false⟩ } := by
  change execPersistPendLoRead p true s = _
  simp only [execPersistPendLoRead, hclk, if_true, hport, State.readOut]
  rfl

/-- Settles O31: SCRATCH and GROVE_CFG are rows of the always-on table, MODE_STAT clears its W1C fields, and what is no row of a table
takes nothing; the latches follow from the reads' own definitions. -/
theorem registerKindsAndLatches : Obligations.RegisterKindsAndLatches := by
  refine ⟨fun s ben d hclk haon hport => ⟨?scratch, ?groveCfg, ?readOnly, ?unassigned, ?modeStat, ?partialBen⟩,
    fun s p hclk => ⟨exec_sealTimeLoRead_served s p hclk, fun d => exec_sealTimeHiWrite_served s p d hclk,
      exec_persistPendLoRead_served s p hclk, exec_persistLastLoRead_served s p hclk⟩⟩
  case scratch =>
    exact exec_regWrite_rwAon s true ben 0x8 d ⟨0x8, 0xFFFFFFFF, 0⟩ hclk haon (hport _ (by omega)) (by omega) rfl rfl rfl rfl rfl
  case groveCfg =>
    exact exec_regWrite_rwAon s true ben 0x300 d ⟨0x300, 0xFF0F, 0x1008⟩ hclk haon (hport _ (by omega)) (by omega) rfl rfl rfl rfl rfl
  case readOnly =>
    intro off hoff
    have h : isReadOnlyAt off = true := (List.all_eq_true (p := isReadOnlyAt)).1 (by decide) off hoff
    exact exec_regWrite_readOnly s true ben off d hclk haon (hport off (.inl ((isReadOnlyAt_iff off).1 h).1)) h
  case unassigned =>
    intro off hoff
    rw [exec_regWrite_beyond s true ben off d hoff,
      s.portWrite_served true off ben false _ hclk (hport off (.inr hoff)) (.inl rfl) haon]
  case modeStat =>
    rintro rfl
    rw [exec_regWrite_plain s true 0xF 0x104 d hclk haon (hport _ (by omega)) (by omega) rfl (.inr rfl), s.globalEffect_modeStat 0xF d]
  case partialBen =>
    intro hben off hoff
    have h : isW1c off = true := (List.all_eq_true (p := isW1c)).1 (by decide) off hoff
    exact exec_regWrite_w1c_partial s true ben off d hclk (hport off (.inl (isW1c_plain_or_ledgerPurge off h).1)) hben h

end Sys2Proof.Machine
end

section
/-! The last cycle of a request on its unit (spec/01 R26, R30, spec/11 R359) and the admission of the entry at the head of a queue (spec/04
R142, R152, R157, R158): what each of the two commands does by its cases, and the statements O26 and O35 of spec/00_scope.md. -/

namespace Sys2Proof.Machine

/-! ### What a last cycle does, by opcode -/

section LastCycle
variable (s : State) (rid n : Nat) (r : Req)

theorem State.lastCycle_pkaOp (hop : r.origOp = Opc.pkaOp) : s.lastCycle rid n r = s.pkaDone rid r := if_pos hop

/-- A request of a queue other than PKA_OP: its work is counted, and the engine of its opcode ends it. -/
theorem State.lastCycle_of_queue (hown : r.owner = .queue) (hpka : r.origOp ≠ Opc.pkaOp) :
    s.lastCycle rid n r =
      if r.origOp ≤ 4 then (s.countWork r).cipherDone rid r
      else if r.origOp ≤ 6 then (s.countWork r).digestDone rid r
      else if r.origOp = Opc.keyUnwrap then (s.countWork r).unwrapDone rid r
      else if r.origOp = Opc.keyDerive then (s.countWork r).deriveDone rid r
      else if r.origOp = Opc.keyExport then (s.countWork r).exportKeyDone rid r
      else if r.origOp = Opc.wmacList then (s.countWork r).wmacDone rid r n
      else (s.countWork r).pageDone rid r := by
  have hkek : ¬ r.owner = .kek := by rw [hown]; decide
  rw [State.lastCycle, if_neg hpka]
  exact if_neg hkek

variable (hown : r.owner = .queue)
include hown

theorem State.lastCycle_cipher (hop : r.origOp ≤ 4) : s.lastCycle rid n r = (s.countWork r).cipherDone rid r := by
  rw [s.lastCycle_of_queue rid n r hown (by simp only [Opc.pkaOp]; omega), if_pos hop]

theorem State.lastCycle_digest (hop : r.origOp = Opc.digest ∨ r.origOp = Opc.hmac) :
    s.lastCycle rid n r = (s.countWork r).digestDone rid r := by
  have hop' : r.origOp = 5 ∨ r.origOp = 6 := hop
  rw [s.lastCycle_of_queue rid n r hown (by simp only [Opc.pkaOp]; omega), if_neg (by omega), if_pos (by omega)]

theorem State.lastCycle_keyUnwrap (hop : r.origOp = Opc.keyUnwrap) : s.lastCycle rid n r = (s.countWork r).unwrapDone rid r := by
  rw [s.lastCycle_of_queue rid n r hown (by rw [hop]; decide), hop]; rfl

theorem State.lastCycle_keyDerive (hop : r.origOp = Opc.keyDerive) : s.lastCycle rid n r = (s.countWork r).deriveDone rid r := by
  rw [s.lastCycle_of_queue rid n r hown (by rw [hop]; decide), hop]; rfl

theorem State.lastCycle_keyExport (hop : r.origOp = Opc.keyExport) : s.lastCycle rid n r = (s.countWork r).exportKeyDone rid r := by
  rw [s.lastCycle_of_queue rid n r hown (by rw [hop]; decide), hop]; rfl

theorem State.lastCycle_wmacList (hop : r.origOp = Opc.wmacList) : s.lastCycle rid n r = (s.countWork r).wmacDone rid r n := by
  rw [s.lastCycle_of_queue rid n r hown (by rw [hop]; decide), hop]; rfl

theorem State.lastCycle_pageSeal (hop : r.origOp = Opc.pageSeal) : s.lastCycle rid n r = (s.countWork r).pageDone rid r := by
  rw [s.lastCycle_of_queue rid n r hown (by rw [hop]; decide), hop]; rfl

end LastCycle

/-! ### REQUEST_UNIT_DONE -/

section UnitDone
variable (s : State) (rid n : Nat) (r : Req) (hreq : s.req rid = some r)

theorem exec_requestUnitDone (bad : Option UnitFault) :
    exec (.requestUnitDone rid n bad) s = .next ((s.unitDone rid n bad).serveFrames) := rfl

theorem Req.canEnd_of_ready (hph : r.phase = .ready) (hg : r.g0 < 2) : r.canEnd = true := by
  simp [Req.canEnd, hph, hg]

include hreq

theorem State.unitDone_tile (store : StoreId) (tile : Nat) :
    s.unitDone rid n (some (.tile store tile)) = if r.meets store tile = true then s.tileFail rid r store tile n else s := by
  simp only [State.unitDone, hreq]

theorem State.unitDone_check (hend : r.canEnd = true) (hop : r.origOp = Opc.pkaOp) :
    s.unitDone rid n (some .check) = ((s.chargeV r (n * r.units.length)).countWork r).pkaCheck rid r := by
  simp only [State.unitDone, hreq]
  exact if_pos ⟨hop, hend⟩

/-- The last cycle itself: the partition and the queue are charged, and what a suspension in progress left behind is cleared (R265). -/
theorem State.unitDone_last (hend : r.canEnd = true) (hok : r.failed = false) :
    s.unitDone rid n none = ((s.chargeV r (n * r.units.length)).updReq rid (fun x =>
      { x with phase := .ready, victimOf := none, expIdx := 0, ctxTiles := 0, ending := none, shedding := [] })).lastCycle rid n r := by
  simp only [State.unitDone, hreq, hend, hok, Bool.not_true, Bool.false_eq_true, if_false]

end UnitDone

/-- Settles O26: the three reports of REQUEST_UNIT_DONE are the three cases of `State.unitDone`, and the last cycle dispatches on the
opcode. -/
theorem lastCycleByOpcode : Obligations.LastCycleByOpcode := by
  intro s u rid n r hreq hph hg hok hown hu
  have hend : r.canEnd = true := r.canEnd_of_ready hph hg
  have hlast : exec (.requestUnitDone rid n none) s = .next ((u.lastCycle rid n r).serveFrames) := by
    rw [exec_requestUnitDone, s.unitDone_last rid n r hreq hend hok, hu]
  refine ⟨fun store tile => ⟨?meets, ?unmet⟩, ?check, ?cipher, ?digest, ?unwrap, ?derive, ?blob, ?pka, ?wmac, ?page⟩
  case meets => intro h; rw [exec_requestUnitDone, s.unitDone_tile rid n r hreq, if_pos h]
  case unmet => intro h; rw [exec_requestUnitDone, s.unitDone_tile rid n r hreq, if_neg (Bool.eq_false_iff.1 h)]
  case check => intro hop; rw [exec_requestUnitDone, s.unitDone_check rid n r hreq hend hop]
  case cipher => intro hop; rw [hlast, u.lastCycle_cipher rid n r hown hop]
  case digest => intro hop; rw [hlast, u.lastCycle_digest rid n r hown hop]
  case unwrap => intro hop; rw [hlast, u.lastCycle_keyUnwrap rid n r hown hop]
  case derive => intro hop; rw [hlast, u.lastCycle_keyDerive rid n r hown hop]
  case blob => intro hop; rw [hlast, u.lastCycle_keyExport rid n r hown hop]
  case pka => intro hop; rw [hlast, u.lastCycle_pkaOp rid n r hop]
  case wmac => intro hop; rw [hlast, u.lastCycle_wmacList rid n r hown hop]
  case page => intro hop; rw [hlast, u.lastCycle_pageSeal rid n r hown hop]

/-! ### The entry at the head of a queue -/

theorem State.exists_part_of_queue (s : State) (p q : Nat) (x : Queue) (h : s.queue p q = some x) : ∃ y, s.part p = some y := by
  obtain ⟨y, hy, -⟩ := Option.bind_eq_some_iff.1 h
  exact ⟨y, hy⟩

theorem Queue.drainedPush_eq_none (x : Queue) (served : Bool) (h : ∀ d ∈ x.ready, d.drained = false) : x.drainedPush served = none := by
  cases served
  · rfl
  · exact List.find?_eq_none.2 (fun d hd => by simp [h d hd])

/-- The head `c` of a queue other than queue 0 is a single entry that nothing holds back but its own checks and the credits (R152, R153,
R154). -/
structure State.HeadOpen (s : State) (p q : Nat) (x : Queue) (c : CacheEntry) : Prop where
  queue : s.queue p q = some x
  notAdmin : q ≠ 0
  head : ∃ cs, x.ready = c :: cs
  noDrained : ∀ d ∈ x.ready, d.drained = false
  served : s.serving = true
  enabled : x.en = true
  noChain : x.chain = none
  living : x.dying = false
  noReset : ∀ y, s.part p = some y → y.reset = none
  notFenced : s.fenced p q = false
  held : c.dropped = false
  single : eChain c.bytes = false

section HeadOpen
variable {s : State} {p q : Nat} {x : Queue} {c : CacheEntry} (h : s.HeadOpen p q x c)
include h

theorem State.HeadOpen.reset_isSome : (s.part p).elim true (fun y => y.reset.isSome) = false := by
  obtain ⟨y, hy⟩ := s.exists_part_of_queue p q x h.queue
  simp [hy, h.noReset y hy]

theorem State.HeadOpen.admitting : s.admitting x c = true := by
  simp [State.admitting, h.served, h.enabled]

/-- ADMIT_ENTRY at such a head: an entry that ends at once needs a credit, and so does one that is let in (R157, R158). -/
theorem State.HeadOpen.admitNext_eq (bad : Option Nat) :
    s.admitNext p q bad = (entryEnd q x c bad).elim
      (if 0 < x.credits ∧ !(s.fifoWait p c.bytes) then s.letIn p q x c false false else s)
      (fun e => if 0 < x.credits then (s.badEntry bad).postNow p q c false false e.1 e.2 else s) := by
  obtain ⟨cs, hcs⟩ := h.head
  have hadmin : (q == 0) = false := beq_eq_false_iff_ne.2 h.notAdmin
  simp only [State.admitNext, h.queue, h.living, h.reset_isSome, x.drainedPush_eq_none _ h.noDrained, hcs, h.held, h.notFenced, hadmin,
    h.admitting, h.noChain, h.single, Bool.false_and, Bool.or_false, Bool.not_true, Bool.false_eq_true, if_false]
  cases entryEnd q x c bad <;> rfl

theorem State.HeadOpen.admitNext_of_no_credit (bad : Option Nat) (hcr : x.credits = 0) : s.admitNext p q bad = s := by
  rw [h.admitNext_eq bad]
  cases entryEnd q x c bad <;> simp [hcr]

theorem State.HeadOpen.admitNext_badTile (n : Nat) (hcr : 0 < x.credits) :
    s.admitNext p q (some n) = (s.send 0x4A 0 n).postNow p q c false false St.tileCheck 0x01 := by
  have hend : entryEnd q x c (some n) = some (St.tileCheck, 0x01) := rfl
  rw [h.admitNext_eq, hend, Option.elim_some, if_pos hcr]
  rfl

theorem State.HeadOpen.admitNext_malformed (d : Nat) (hcr : 0 < x.credits) (hf : entryFault q x c = some d) :
    s.admitNext p q none = s.postNow p q c false false St.malformed d := by
  have hend : entryEnd q x c none = some (St.malformed, d) := by simp [entryEnd, hf]
  rw [h.admitNext_eq, hend, Option.elim_some, if_pos hcr]
  rfl

theorem State.HeadOpen.admitNext_letIn (hcr : 0 < x.credits) (hf : entryFault q x c = none) (hfifo : s.fifoWait p c.bytes = false) :
    s.admitNext p q none = s.letIn p q x c false false := by
  have hend : entryEnd q x c none = none := by simp [entryEnd, hf]
  rw [h.admitNext_eq, hend, Option.elim_none, if_pos (by simp [hcr, hfifo])]

end HeadOpen

theorem exec_admitEntry (s : State) (p q : Nat) (bad : Option Nat) :
    exec (.admitEntry p ⟨q, bad⟩) s = .next ((s.admitNext p q bad).refill p q) := rfl

theorem exec_entryFetchDone (s : State) (p q : Nat) : exec (.entryFetchDone p q) s = .next (s.refill p q) := rfl

/-- Only a WMAC_LIST waits for room in the result FIFO (R387). -/
theorem State.fifoWait_of_not_wmacList (s : State) (p : Nat) (e : Bytes) (h : eOpcode e ≠ Opc.wmacList) : s.fifoWait p e = false := by
  simp [State.fifoWait, h]

/-- An entry other than WMAC_LIST that is let in beside no chain: its request takes the next identifier, and nothing further is fixed. -/
theorem State.letIn_single (s : State) (p q : Nat) (x : Queue) (c : CacheEntry) (hch : x.chain = none)
    (hop : eOpcode c.bytes ≠ Opc.wmacList) :
    s.letIn p q x c false false =
      ({ (s.popEntry p q c.v).updQueue p q (fun y => { y with reserved := y.reserved + 1 }) with
        reqs := Store.put s.reqs s.nextId (Req.ofEntry p q x.cfg c false true s.nextId) } : State).bump := by
  have hraw : ∀ (t : State) (m : Nat), t.rawAdmit m (Req.ofEntry p q x.cfg c false true m) = t := fun _ _ => if_pos hop
  simp only [State.letIn, hch, hraw, Option.isSome_none, Bool.or_false, Bool.false_eq_true, if_false]
  rfl

/-- While a queue is served and enabled, all its dropped entries are read again and what was fetched is parsed (R142, R149). -/
theorem State.refill_of_served (s : State) (p q : Nat) (x : Queue) (hx : s.queue p q = some x) (hs : s.serving = true) (hen : x.en = true) :
    s.refill p q = (s.updQueue p q (fun y => (y.remake (x.cache.filter (fun e => e.dropped))).parseAll true 80)).fetchMore p q 5 := by
  simp only [State.refill, State.wanted, hx, hs, hen, Bool.and_self, if_true]

/-- Settles O35: the head is open, so ADMIT_ENTRY turns on its checks and the credits alone, and the queue is then refilled. -/
theorem entryAdmission : Obligations.EntryAdmission := by
  intro s p q x c cs hq hx hready hs hen hch hdy hrst hf hdrop hdr hsingle
  have h : s.HeadOpen p q x c :=
    ⟨hx, hq, ⟨cs, hready⟩, fun d hd => hdr d (hready ▸ hd), hs, hen, hch, hdy, hrst, hf, hdrop, hsingle⟩
  refine ⟨?noCredit, ?badTile, ?malformed, ?letIn, ?fetched⟩
  case noCredit => intro hcr bad; rw [exec_admitEntry, h.admitNext_of_no_credit bad hcr]
  case badTile => intro hcr n; rw [exec_admitEntry, h.admitNext_badTile n hcr]
  case malformed => intro hcr d hd; rw [exec_admitEntry, h.admitNext_malformed d hcr hd]
  case letIn =>
    intro hcr hok hop
    have hlet := s.letIn_single p q x c hch hop
    refine ⟨by rw [exec_admitEntry, h.admitNext_letIn hcr hok (s.fifoWait_of_not_wmacList p c.bytes hop)], ?_, by rw [hlet]; rfl⟩
    rw [hlet]
    exact Store.find_put_self s.reqs s.nextId _
  case fetched => rw [exec_entryFetchDone, s.refill_of_served p q x hx hs hen]

end Sys2Proof.Machine
end

section
/-! The invariant of every step and what moves only by name (spec/02 R54 to R57, R88, spec/10 R339): what each command keeps, by family of
commands, and the statements O4, O5 and O6 of spec/00_scope.md. -/

namespace Sys2Proof.Machine

/-! ### Families of commands -/

/-- The commands by where they come from. Those of the first five families move what `Keeps` names; a REG_WRITE may be a write of
SEAL_TIME_HI. -/
inductive Family where
  /-- RST_AON_N low and the loss of the supplies -/
  | supply
  /-- the release of RST_AON_N, and RST_BLK_N -/
  | reset
  /-- SEAL_TIME_HI_WRITE -/
  | sealTime
  /-- TEST_ACCESS -/
  | testPort
  /-- REG_WRITE -/
  | regWrite
  /-- the other accesses of the register port -/
  | port
  /-- what requests ask for, by opcode, and their events -/
  | request
  /-- the other pins, the fabric's ports and the mode's events -/
  | pins
  /-- the Ralder link and the grafts that arrive -/
  | link
  /-- the mailbox services -/
  | service
  /-- what the block does by itself -/
  | work

def familyOf : Instr → Family
  | .rstAonNAssert | .powerLoss => .supply
  | .rstAonNRelease .. | .rstBlkNAssert | .rstBlkNRelease => .reset
  | .sealTimeHiWrite .. => .sealTime
  | .testAccess .. => .testPort
  | .regWrite .. => .regWrite
  | .sealTimeLoRead .. | .persistPendLoRead .. | .targetService .. | .targetDormant .. | .targetDrain .. | .targetMaintenance ..
  | .targetFollower .. | .targetReserved .. | .drainTmoWrite .. | .persistCtlEnWrite .. | .govBudgetWrite .. | .sqDb .. | .cqDb ..
  | .inval .. | .pushWordWrite .. | .pushTake .. | .qCtlWrite .. | .pmCreate .. | .pmDestroy .. | .pmReset .. | .loadKek ..
  | .eraseSlot .. | .zeroisePart .. | .zeroise .. | .hwCmdUndefinedOp .. | .ledgerPurgeGo .. | .unitFence .. | .unitTest ..
  | .unitUnfence .. | .setIdentity .. | .unpair .. | .retrain .. | .reseed .. | .persistAck .. | .persistNak .. | .sealDb ..
  | .tapOwnWrite .. | .rfDataRead .. | .rfRewind .. | .rfRelease .. | .rfMark .. | .vecCtlWrite .. | .vecMset .. | .vecMclr .. | .mbGo ..
  | .mbDone .. | .mbxHostRestart .. | .dbSet .. | .faultForce .. | .fltLockWrite .. | .faultLogRelease .. | .fltRingDb ..
  | .fltRingEnable .. | .telemDb .. | .telemEnable .. => .port
  | .requestUnitDone .. | .cipher .. | .aead .. | .xts .. | .mac .. | .groveFormed .. | .segmentDone .. | .suspendCapture ..
  | .exportDone .. | .contextResume .. | .contextDiscard .. | .contextUnwrapDone .. | .digest .. | .hmac .. | .keyUnwrap ..
  | .keyUnwrapErase .. | .keyDerive .. | .keyExport .. | .pkaSign .. | .pkaVerify .. | .pkaAgree .. | .pkaPubkey .. | .pkaEncrypt ..
  | .pkaDecrypt .. | .drbgDrawDone .. | .wmacList .. | .random .. | .fence .. | .sealClose .. | .pageSeal .. | .pageSealVerify ..
  | .createQueue .. | .destroyQueue .. | .destroyQueueIdle .. | .queueInfo .. | .setQos .. | .bindTap .. | .unbindTap .. | .slotInfo ..
  | .partitionReset .. | .entropyWaitTimeout .. | .leaseWaitTimeout .. => .request
  | .fllLock .. | .fllLockTimeout | .testModeRise | .testModeFall | .tamperRegistered .. | .rootKeyVldRise .. | .rootKeyVldFall
  | .rootKeyTimeout | .corePwrGoodRise | .corePwrGoodFall | .pwrGntRise | .pwrGntFall | .pwrNegTimeout | .pwrHoldExpiry
  | .readReturnBeat .. | .writeCompletion .. | .fabricTimeout .. | .clkFabStop | .clkFabRestart | .fabricCommandTransfer ..
  | .drainComplete | .drainTmoExpiry | .wakeLaneReady | .attestA1Done .. | .bankSelect .. | .unitStageTestDone .. => .pins
  | .rlkPhyRdyChange .. | .rlkBlockRx .. | .trainRx .. | .linkResetDone | .alignTimeout | .authTimeout | .blockedExpiry | .authFrameRx ..
  | .leaseGraft .. | .retireGraft .. | .purgeGraft .. | .slotGraft .. | .eraseGraft .. | .kekGraft .. | .partGraft .. | .queueGraft ..
  | .identGraft .. | .snapGraft .. | .snapEndGraft .. | .handoverGraft .. | .ackFrameRx .. | .nakFrameRx .. | .heartbeatRx
  | .heartbeatDue | .graftRetxExpiry | .linkTmoExpiry => .link
  | .echo .. | .fwInfo .. | .acctQuery .. | .partUsage .. | .patchStage .. => .service
  | _ => .work

/-- The command completes, and what `Keeps` names is as before. -/
abbrev CompletesKeeping (c : Instr) (s : State) : Prop := ∃ t, exec c s = .next t ∧ Keeps s t

theorem exec_keeps_port (c : Instr) (s : State) (h : familyOf c = .port) : CompletesKeeping c s := by
  cases c with
  | targetService | targetDormant | targetDrain | targetMaintenance | targetFollower | targetReserved | govBudgetWrite | pushWordWrite
  | pushTake | pmCreate | pmDestroy | pmReset | loadKek | eraseSlot | hwCmdUndefinedOp | persistAck | persistNak | rfRewind | rfRelease
  | rfMark | vecMset | vecMclr | mbGo | mbDone | dbSet | faultForce | fltRingEnable | telemEnable => exact ⟨_, rfl, by simp [Keeps]⟩
  | sealTimeLoRead | persistPendLoRead | drainTmoWrite | inval | qCtlWrite | zeroisePart | zeroise | ledgerPurgeGo | setIdentity | unpair
  | retrain | reseed | sealDb | tapOwnWrite | rfDataRead | vecCtlWrite | mbxHostRestart | fltLockWrite | faultLogRelease =>
    refine ⟨_, rfl, ?_⟩
    (repeat' split) <;> simp [Keeps]
  | persistCtlEnWrite | fltRingDb | telemDb =>
    refine ⟨_, rfl, State.portWrite_keeps _ _ _ _ _ _ ?_⟩
    dsimp only
    (repeat' split) <;> simp [Keeps]
  | sqDb | cqDb =>
    refine ⟨_, rfl, State.queueWrite_keeps _ _ _ _ _ _ _ fun x => ?_⟩
    (repeat' split) <;> simp [Keeps]
  | unitFence | unitTest =>
    refine ⟨_, rfl, State.unitWrite_keeps _ _ _ _ _ fun t u => ?_⟩
    dsimp only
    (repeat' split) <;> simp [Keeps]
  | unitUnfence =>
    refine ⟨_, rfl, State.unitWrite_keeps _ _ _ _ _ fun t u => ?_⟩
    (repeat' split) <;> simp [Keeps]
  | _ => cases h

theorem exec_keeps_request (c : Instr) (s : State) (h : familyOf c = .request) : CompletesKeeping c s := by
  cases c with
  | requestUnitDone | cipher | aead | xts | mac | digest | hmac | keyUnwrap | keyUnwrapErase | keyDerive | keyExport | pkaSign
  | pkaVerify | pkaAgree | pkaPubkey | pkaEncrypt | pkaDecrypt | sealClose | pageSeal | pageSealVerify | unbindTap =>
    exact ⟨_, rfl, by simp [Keeps]⟩
  | groveFormed | segmentDone | suspendCapture | exportDone | contextResume | contextDiscard | contextUnwrapDone | drbgDrawDone
  | wmacList | fence | createQueue | destroyQueue | destroyQueueIdle | setQos | bindTap | slotInfo | partitionReset | entropyWaitTimeout
  | leaseWaitTimeout =>
    refine ⟨_, rfl, ?_⟩
    (repeat' split) <;> simp [Keeps]
  | random | queueInfo =>
    refine ⟨_, rfl, ?_⟩
    dsimp only
    (repeat' split) <;> simp [Keeps]
  | _ => cases h

theorem exec_keeps_pins (c : Instr) (s : State) (h : familyOf c = .pins) : CompletesKeeping c s := by
  cases c with
  | rootKeyVldRise | rootKeyVldFall | corePwrGoodRise | corePwrGoodFall | clkFabRestart => exact ⟨_, rfl, by simp [Keeps]⟩
  | fllLockTimeout | testModeRise | testModeFall | tamperRegistered | rootKeyTimeout | pwrGntRise | pwrGntFall | pwrNegTimeout
  | pwrHoldExpiry | readReturnBeat | writeCompletion | fabricTimeout | clkFabStop | fabricCommandTransfer | drainComplete
  | drainTmoExpiry | wakeLaneReady | attestA1Done | bankSelect | unitStageTestDone =>
    refine ⟨_, rfl, ?_⟩
    (repeat' split) <;> simp [Keeps]
  | fllLock =>
    refine ⟨_, rfl, ?_⟩
    dsimp only
    (repeat' split) <;> simp [Keeps]
  | _ => cases h

theorem exec_keeps_link (c : Instr) (s : State) (h : familyOf c = .link) : CompletesKeeping c s := by
  cases c with
  | rlkPhyRdyChange | trainRx | retireGraft | slotGraft | kekGraft | identGraft | heartbeatRx => exact ⟨_, rfl, by simp [Keeps]⟩
  | rlkBlockRx | linkResetDone | alignTimeout | authTimeout | blockedExpiry | authFrameRx | leaseGraft | eraseGraft | partGraft
  | queueGraft | snapGraft | handoverGraft | ackFrameRx | nakFrameRx | heartbeatDue | graftRetxExpiry | linkTmoExpiry =>
    refine ⟨_, rfl, ?_⟩
    (repeat' split) <;> simp [Keeps]
  | purgeGraft gseq ids =>
    refine ⟨_, rfl, State.rxGraft_keeps _ _ _ _ fun t => Keeps.foldl _ (fun u i => ?_) _ _⟩
    cases u.acctFind i.1 i.2.1 i.2.2 <;> simp [Keeps]
  | snapEndGraft =>
    refine ⟨_, rfl, State.rxGraft_keeps _ _ _ _ fun t => ?_⟩
    (repeat' split) <;> simp [Keeps]
  | _ => cases h

theorem exec_keeps_service (c : Instr) (s : State) (h : familyOf c = .service) : CompletesKeeping c s := by
  cases c with
  | echo | fwInfo | acctQuery | partUsage =>
    refine ⟨_, rfl, State.serve_keeps _ _ _ _ fun b => ?_⟩
    (repeat' split) <;> simp [Keeps]
  | patchStage =>
    refine ⟨_, rfl, State.serve_keeps _ _ _ _ fun b => ?_⟩
    dsimp only
    (repeat' split) <;> simp [Keeps]
  | _ => cases h

theorem exec_keeps_work (c : Instr) (s : State) (h : familyOf c = .work) : CompletesKeeping c s := by
  cases c with
  | entryFetchDone | admitEntry | placeRequest | urgentWindowExpiry | tapHeaderBeat | tapDataBeat | tapEofBeat | tapAbortBeat =>
    exact ⟨_, rfl, by simp [Keeps]⟩
  | grantIssue | grantTimeoutExpiry | idleGateExpiry | unitWakeReady | stagingReserved | partResetFabricIdle | unitFenceEffect
  | unitTestDone | entropyHealthFail | entropyStartupDone | reseedDue | reseedSamplesDone | leaseLive | leaseIdleExpiry | imageStart
  | persistAckTimeout | persistRetryExpiry | batchExpiry | frameChainStep | frameSealTimeout | checkpointDue | vectorCoalExpiry | mbTake
  | faultMessage | watchdogExpiry | faultRecordDue | scrubTile | calibration | telemetryWindow =>
    refine ⟨_, rfl, ?_⟩
    (repeat' split) <;> simp [Keeps]
  | checkpointDone | mbReplyPost =>
    refine ⟨_, rfl, ?_⟩
    dsimp only
    (repeat' split) <;> simp [Keeps]
  | _ => cases h

/-! ### REG_WRITE -/

/-- A write of the global page outside SEAL_TIME_HI is a command of the register port or a plain write. -/
theorem State.globalWrite_keeps (s : State) (priv : Bool) (ben : BitVec 4) (off : Nat) (d : Word) (hoff : off ≠ 0xA04) :
    ∃ t, s.globalWrite priv ben off d = .next t ∧ Keeps s t := by
  have hplain : ∀ off, ∃ t, (.next (s.portWrite priv off ben (isW1c off) (fun t => t.globalEffect off ben d)) : Result) = .next t ∧ Keeps s t :=
    fun off => ⟨_, rfl, s.portWrite_keeps priv off ben _ _ (s.globalEffect_keeps off ben d)⟩
  unfold State.globalWrite
  dsimp only
  split
  · unfold State.writeModeCtl
    dsimp only
    split
    · exact exec_keeps_port (.targetService priv ben _) s rfl
    · exact exec_keeps_port (.targetDormant priv ben _) s rfl
    · exact exec_keeps_port (.targetDrain priv ben _) s rfl
    · exact exec_keeps_port (.targetMaintenance priv ben _) s rfl
    · exact exec_keeps_port (.targetFollower priv ben _) s rfl
    · exact exec_keeps_port (.targetReserved priv ben _) s rfl
  · exact exec_keeps_port (.drainTmoWrite priv ben d) s rfl
  · exact exec_keeps_port (.govBudgetWrite priv ben d) s rfl
  · split
    · exact exec_keeps_port (.pmCreate priv ben d) s rfl
    · exact exec_keeps_port (.pmDestroy priv ben d) s rfl
    · exact exec_keeps_port (.pmReset priv ben d) s rfl
    · exact hplain _
  · split
    · exact exec_keeps_port (.ledgerPurgeGo priv ben d) s rfl
    · exact hplain _
  · exact absurd rfl hoff
  · exact exec_keeps_port (.reseed priv ben d) s rfl
  · split
    · exact hplain _
    · exact exec_keeps_port (.loadKek priv ben d) s rfl
    · exact exec_keeps_port (.eraseSlot priv ben d) s rfl
    · exact exec_keeps_port (.zeroisePart priv ben d) s rfl
    · exact exec_keeps_port (.zeroise priv ben d) s rfl
    · exact exec_keeps_port (.hwCmdUndefinedOp priv ben d) s rfl
  · exact exec_keeps_port (.persistCtlEnWrite priv ben d) s rfl
  · exact exec_keeps_port (.persistAck priv ben d) s rfl
  · exact exec_keeps_port (.persistNak priv ben d) s rfl
  · split
    · exact exec_keeps_port (.setIdentity priv ben d) s rfl
    · exact exec_keeps_port (.unpair priv ben d) s rfl
    · exact exec_keeps_port (.retrain priv ben d) s rfl
    · exact hplain _
  · exact exec_keeps_port (.dbSet priv ben d) s rfl
  · exact exec_keeps_port (.mbxHostRestart priv ben d) s rfl
  · exact exec_keeps_port (.fltLockWrite priv ben d) s rfl
  · split
    · exact exec_keeps_port (.faultLogRelease priv ben d) s rfl
    · exact hplain _
  · exact exec_keeps_port (.fltRingDb priv ben d) s rfl
  · split
    · exact exec_keeps_port (.unitFence priv ben d) s rfl
    · exact exec_keeps_port (.unitTest priv ben d) s rfl
    · exact exec_keeps_port (.unitUnfence priv ben d) s rfl
    · exact hplain _
  · exact exec_keeps_port (.telemDb priv ben d) s rfl
  · split
    · exact exec_keeps_port (.tapOwnWrite priv ben _ d) s rfl
    · split
      · exact exec_keeps_port (.mbGo priv ben _ d) s rfl
      · exact hplain _

theorem State.pageWrite_keeps (s : State) (ben : BitVec 4) (p off : Nat) (d : Word) :
    ∃ t, s.pageWrite ben p off d = .next t ∧ Keeps s t := by
  unfold State.pageWrite
  split
  · exact exec_keeps_port (.qCtlWrite p _ ben d) s rfl
  split
  · exact exec_keeps_port (.vecCtlWrite p _ ben d) s rfl
  split
  · exact exec_keeps_port (.sqDb p _ ben d) s rfl
  split
  · exact exec_keeps_port (.cqDb p _ ben d) s rfl
  split
  · exact exec_keeps_port (.inval p _ ben d) s rfl
  split
  · exact exec_keeps_port (.sealDb p _ ben d) s rfl
  split
  · exact exec_keeps_port (.vecMset p ben d) s rfl
  split
  · exact exec_keeps_port (.vecMclr p ben d) s rfl
  split
  · exact ⟨_, rfl, s.rfCtl_keeps p ben d⟩
  split
  · exact ⟨_, rfl, s.pushWrite_keeps p _ _ ben d⟩
  · exact ⟨_, rfl, s.portWrite_keeps false _ ben _ _ (s.pageEffect_keeps p off ben d)⟩

theorem exec_regWrite_keeps (priv : Bool) (ben : BitVec 4) (off : Nat) (d : Word) (s : State) (hoff : off ≠ 0xA04) :
    CompletesKeeping (.regWrite priv ben off d) s := by
  show ∃ t, execRegWrite priv ben off d s = .next t ∧ Keeps s t
  unfold execRegWrite
  split
  · exact s.globalWrite_keeps priv ben off d hoff
  split
  · exact s.pageWrite_keeps ben _ _ d
  · exact ⟨_, rfl, s.portWrite_keeps priv off ben false _ (Keeps.refl s)⟩

/-! ### What a command can move -/

/-- What the command `c` leaves of the queue, the units, the two reset pins, SEAL_TIME and the test port, on its way from `s` to `t`. -/
structure Moves (c : Instr) (s t : State) : Prop where
  queue : t.pending = s.pending
  units : t.units.map Prod.fst = s.units.map Prod.fst
  order : (s.pins.blkRel = true → s.pins.aonRel = true) → t.pins.blkRel = true → t.pins.aonRel = true
  bound : s.time.ns < 2 ^ 64 → t.time.ns < 2 ^ 64
  pins  : familyOf c ≠ .supply → familyOf c ≠ .reset → t.pins.aonRel = s.pins.aonRel ∧ t.pins.blkRel = s.pins.blkRel
  time  : familyOf c ≠ .supply → familyOf c ≠ .sealTime → (∀ p b d, c ≠ .regWrite p b 0xA04 d) → t.time.ns = s.time.ns
  jtag  : familyOf c ≠ .testPort → t.jtag = s.jtag

theorem Keeps.moves {s t : State} (c : Instr) (h : Keeps s t) : Moves c s t := by
  obtain ⟨hqueue, hunits, haon, hblk, hns, hjtag⟩ := h
  exact ⟨hqueue, hunits, by rw [haon, hblk]; exact id, by rw [hns]; exact id, fun _ _ => ⟨haon, hblk⟩, fun _ _ _ => hns, fun _ => hjtag⟩

/-- RST_AON_N low and the loss of the supplies leave both resets low and SEAL_TIME at 0 (R54, R56). -/
theorem exec_supply_moves (c : Instr) (s : State) (h : familyOf c = .supply) : ∃ t, exec c s = .next t ∧ Moves c s t := by
  obtain ⟨hqueue, hunits, hblk, hjtag⟩ := s.cold_keeps
  have hmoves : ∀ fab, Moves c s { s.cold with fab := fab } := fun fab =>
    ⟨hqueue, hunits, fun _ hb => absurd (hblk.symm.trans hb) (by decide), fun _ => Nat.two_pow_pos 64, fun hc => absurd h hc,
      fun hc => absurd h hc, fun _ => hjtag⟩
  cases c with
  | rstAonNAssert => exact ⟨_, rfl, hmoves _⟩
  | powerLoss => exact ⟨_, rfl, hmoves _⟩
  | _ => cases h

/-- RST_AON_N's release and RST_BLK_N move the pins, and RST_BLK_N is high afterwards only where RST_AON_N is (R54, R57). -/
theorem exec_reset_moves (c : Instr) (s : State) (h : familyOf c = .reset) : ∃ t, exec c s = .next t ∧ Moves c s t := by
  suffices hsuff : ∃ t, exec c s = .next t ∧ Keeps { s with pins := t.pins } t ∧
      ((s.pins.blkRel = true → s.pins.aonRel = true) → t.pins.blkRel = true → t.pins.aonRel = true) by
    obtain ⟨t, ht, ⟨hqueue, hunits, -, -, hns, hjtag⟩, horder⟩ := hsuff
    exact ⟨t, ht, hqueue, hunits, horder, by rw [hns]; exact id, fun _ hc => absurd h hc, fun _ _ _ => hns, fun _ => hjtag⟩
  cases c with
  | rstAonNRelease | rstBlkNRelease =>
    refine ⟨_, rfl, ?_⟩
    dsimp only
    (repeat' split) <;> simp_all [Keeps]
  | rstBlkNAssert =>
    refine ⟨_, rfl, ?_⟩
    dsimp only
    (repeat' split) <;> simp_all [Keeps, State.stopFabric]
  | _ => cases h

/-- A write of SEAL_TIME_HI, under either of its commands, loads a 64-bit counter and moves nothing else (R339). -/
theorem execSealTimeHiWrite_moves (p : Bool) (b : BitVec 4) (d : Word) (s : State) (c : Instr)
    (h : familyOf c = .sealTime ∨ c = .regWrite p b 0xA04 d) : ∃ t, execSealTimeHiWrite p b d s = .next t ∧ Moves c s t := by
  have hload : ∀ port, Moves c s { s with
      time := { s.time with ns := 2 ^ 32 * (mergeWord s.time.latch 0xFFFFFFFF b d).toNat + s.time.held.toNat, frac := 0 }, port := port } := by
    intro port
    have hlo := s.time.held.isLt
    have hhi := (mergeWord s.time.latch 0xFFFFFFFF b d).isLt
    exact ⟨rfl, rfl, id, fun _ => by dsimp only; omega, fun _ _ => ⟨rfl, rfl⟩, fun _ hc hreg => absurd h (not_or.2 ⟨hc, hreg p b d⟩),
      fun _ => rfl⟩
  refine ⟨_, rfl, ?_⟩
  unfold State.portWrite
  (repeat' split)
  · exact (Keeps.refl s).moves c
  · exact (s.wrote_keeps true).moves c
  · exact (s.wrote_keeps true).moves c
  · exact (s.wrote_keeps false).moves c
  · exact hload _

theorem exec_testPort_moves (c : Instr) (s : State) (h : familyOf c = .testPort) : ∃ t, exec c s = .next t ∧ Moves c s t := by
  cases c with
  | testAccess r m i =>
    have hmoves : ∀ j, Moves (.testAccess r m i) s { s with jtag := j } := fun j =>
      ⟨rfl, rfl, id, id, fun _ _ => ⟨rfl, rfl⟩, fun _ _ _ => rfl, fun hc => absurd rfl hc⟩
    refine ⟨_, rfl, ?_⟩
    split <;> exact hmoves _
  | _ => cases h

/-- Every command completes, and moves only what its family moves. -/
theorem exec_moves (c : Instr) (s : State) : ∃ t, exec c s = .next t ∧ Moves c s t := by
  have hkeep : CompletesKeeping c s → ∃ t, exec c s = .next t ∧ Moves c s t := fun ⟨t, ht, hk⟩ => ⟨t, ht, hk.moves c⟩
  cases hc : familyOf c with
  | supply => exact exec_supply_moves c s hc
  | reset => exact exec_reset_moves c s hc
  | testPort => exact exec_testPort_moves c s hc
  | sealTime =>
    cases c with
    | sealTimeHiWrite p b d => exact execSealTimeHiWrite_moves p b d s _ (.inl rfl)
    | _ => cases hc
  | regWrite =>
    cases c with
    | regWrite p b off d =>
      by_cases hoff : off = 0xA04
      · subst hoff
        rw [exec_regWrite_global s p b 0xA04 d (by omega), s.globalWrite_sealTimeHi p b d]
        exact execSealTimeHiWrite_moves p b d s _ (.inr rfl)
      · exact hkeep (exec_regWrite_keeps p b off d s hoff)
    | _ => cases hc
  | port => exact hkeep (exec_keeps_port c s hc)
  | request => exact hkeep (exec_keeps_request c s hc)
  | pins => exact hkeep (exec_keeps_pins c s hc)
  | link => exact hkeep (exec_keeps_link c s hc)
  | service => exact hkeep (exec_keeps_service c s hc)
  | work => exact hkeep (exec_keeps_work c s hc)

/-! ### The invariant -/

theorem tick_inv (s : State) (hs : s.Inv) : (tick s).Inv := by
  obtain ⟨hunits, horder, -⟩ := id hs
  unfold tick
  split
  · exact hs
  · exact ⟨hunits, horder, Nat.mod_lt _ (Nat.two_pow_pos 64)⟩

theorem Moves.inv {c : Instr} {s t : State} (h : Moves c s t) (hs : s.Inv) : t.Inv := by
  obtain ⟨hunits, horder, hns⟩ := hs
  exact ⟨h.units.trans hunits, h.order horder, h.bound hns⟩

/-- Settles O4: an empty queue lets a cycle pass, and a command moves nothing out of the invariant. -/
theorem stepKeepsInvariant : Obligations.StepKeepsInvariant := by
  intro s t hs hstep
  unfold step at hstep
  split at hstep
  · cases hstep
    exact tick_inv s hs
  · next c cs _ =>
    obtain ⟨u, hu, hmoves⟩ := exec_moves c { s with pending := cs }
    cases hu.symm.trans hstep
    exact hmoves.inv hs

/-- Settles O5: the units of the reset state are those that are built, both resets are low and SEAL_TIME is 0. -/
theorem resetMeetsInvariant : Obligations.ResetMeetsInvariant := by
  refine ⟨?units, ?order, ?bound⟩
  case units => simp [State.reset, List.map_map, Function.comp_def]
  case order => exact fun h => absurd h (by decide)
  case bound => exact Nat.two_pow_pos 64

/-! ### What moves only by name -/

theorem eq_of_familyOf_supply (c : Instr) (h : familyOf c = .supply) : c = .rstAonNAssert ∨ c = .powerLoss := by
  cases c with
  | rstAonNAssert => exact .inl rfl
  | powerLoss => exact .inr rfl
  | _ => cases h

theorem eq_of_familyOf_reset (c : Instr) (h : familyOf c = .reset) :
    (∃ f o m, c = .rstAonNRelease f o m) ∨ c = .rstBlkNAssert ∨ c = .rstBlkNRelease := by
  cases c with
  | rstAonNRelease f o m => exact .inl ⟨f, o, m, rfl⟩
  | rstBlkNAssert => exact .inr (.inl rfl)
  | rstBlkNRelease => exact .inr (.inr rfl)
  | _ => cases h

theorem eq_of_familyOf_sealTime (c : Instr) (h : familyOf c = .sealTime) : ∃ p b d, c = .sealTimeHiWrite p b d := by
  cases c with
  | sealTimeHiWrite p b d => exact ⟨p, b, d, rfl⟩
  | _ => cases h

theorem eq_of_familyOf_testPort (c : Instr) (h : familyOf c = .testPort) : ∃ r m i, c = .testAccess r m i := by
  cases c with
  | testAccess r m i => exact ⟨r, m, i, rfl⟩
  | _ => cases h

/-- Settles O6: each clause leaves out the families that move what it names, and `exec_moves` says that no other does. -/
theorem onlyNamedCommandsMove : Obligations.OnlyNamedCommandsMove := by
  have hsup : ∀ c : Instr, c ≠ .rstAonNAssert → c ≠ .powerLoss → familyOf c ≠ .supply :=
    fun c hA hP h => (eq_of_familyOf_supply c h).elim hA hP
  refine ⟨fun c s t hA hAr hB hBr hP h => ?pins, fun c s t hA hP hhi hreg h => ?time, fun c s t hacc h => ?tap⟩ <;>
    obtain ⟨u, hu, hmoves⟩ := exec_moves c s <;> cases hu.symm.trans h
  case pins =>
    refine hmoves.pins (hsup c hA hP) fun hc => ?_
    obtain ⟨f, o, m, hf⟩ | hb | hr := eq_of_familyOf_reset c hc
    exacts [hAr f o m hf, hB hb, hBr hr]
  case time =>
    refine hmoves.time (hsup c hA hP) (fun hc => ?_) hreg
    obtain ⟨p, b, d, hd⟩ := eq_of_familyOf_sealTime c hc
    exact hhi p b d hd
  case tap =>
    refine hmoves.jtag fun hc => ?_
    obtain ⟨r, m, i, hi⟩ := eq_of_familyOf_testPort c hc
    exact hacc r m i hi

end Sys2Proof.Machine
end

section
/-! Resets, the FLL and the start of ATTEST (spec/02 R44 to R58, R86, R87, spec/03 R105 to R111): what the operations that they share do to
the state, and the statements O7 to O11 and O20 of spec/00_scope.md. -/

namespace Sys2Proof.Machine

/-! ### The shared operations of a stop and a start -/

theorem State.setMode_eq (s : State) (m : Mode) :
    s.setMode m = { s with mode := { s.mode with mode := m, chg := s.mode.chg || decide (s.mode.mode ≠ m) } } := by
  unfold State.setMode
  split
  · next h => simp [← h]
  · next h => simp [h]

/-- PWR_REQ falls with a handshake that is complete (R89), and the effective budget with it (R121). -/
theorem State.dropReqPin_eq (s : State) : s.dropReqPin = { s with
    pins := { s.pins with pwrReq := s.pins.pwrReq && !s.gov.granted }
    gov := { s.gov with high := s.gov.high && !s.gov.granted, granted := s.gov.granted && s.pins.pwrGnt } } := by
  unfold State.dropReqPin
  split
  · next h => simp [State.lowerReq, h]
  · next h =>
    have hg : s.gov.granted = false := by simpa using h
    simp only [hg, Bool.not_false, Bool.and_true, Bool.false_and]
    rw [← hg]

theorem Store.forall_mapAll {α : Type} (st : Store α) (f : Nat → α → α) (P : α → Prop) (h : ∀ y ∈ st, P (f y.1 y.2)) :
    ∀ u ∈ Store.mapAll st f, P u.2 := by
  intro u hu
  obtain ⟨y, hy, rfl⟩ := List.mem_map.1 hu
  exact h y hy

/-- A start that fails in reset or on a wake is QUARANTINE: the keys are erased and no message is lost (R46, R94). -/
theorem State.failStart_spec (s : State) (h : s.mode.mode = .inReset ∨ s.mode.mode = .waking) :
    s.failStart.mode.mode = .quarantine ∧ s.failStart.mode.fllOn = s.mode.fllOn ∧ s.failStart.hw.slots = [] ∧ s.failStart.hw.alarm = true ∧
      s.failStart.flt = s.flt ∧ s.failStart.pins.blkRel = s.pins.blkRel := by
  rw [State.failStart, if_pos h, State.setMode_eq, State.dropReqPin_eq]
  exact ⟨rfl, rfl, rfl, rfl, rfl, rfl⟩

/-! ### The resets -/

/-- Settles O7: with every register at its reset value the read functions give the tables' reset values. -/
theorem resetRegisterValues : Obligations.ResetRegisterValues := by
  unfold Obligations.ResetRegisterValues
  decide

/-- Settles O8: both commands lead to the reset state but for the inputs' levels, and differ in the fabric alone. -/
theorem alwaysOnResetAndPowerLoss : Obligations.AlwaysOnResetAndPowerLoss := by
  intro s
  have hunits : ∀ u ∈ s.cold.units, u.2 = UnitSt.reset := Store.forall_mapAll s.units (fun _ _ => UnitSt.reset) (· = UnitSt.reset) fun _ _ => rfl
  exact ⟨{ s.cold with fab := s.stopFabric.fab }, rfl, rfl, rfl, rfl, rfl, rfl, rfl, rfl, rfl, rfl, rfl, rfl, rfl, rfl, rfl, rfl, rfl, rfl,
    rfl, rfl, rfl, rfl, rfl, rfl, rfl, rfl, rfl, rfl, hunits, rfl⟩

/-- What RST_BLK_N takes from the pins, the keys, mode control and the retained image once the core is reset (R56, R92). -/
def State.heldLow (t : State) : State :=
  { t with
    pins := { t.pins with blkRel := false, chipRstReq := false, coreIso := false, phyRst := true }
    hw := { t.hw with dk := none, badSlots := [] }
    mode := { t.mode with
      target := .service, phase := .none, safe := false, served := false, fllOn := false, fllLock := false, drainForced := false }
    retained := none }

/-- Outside the test state the fall of RST_BLK_N resets the core and withdraws the commands not yet transferred (R56, R58, R470). -/
theorem exec_rstBlkNAssert (s : State) (haon : s.pins.aonRel = true) (hblk : s.pins.blkRel = true) (hmode : s.mode.mode ≠ .test) :
    ∃ m, exec .rstBlkNAssert s = .next (({ s with mbx := m } : State).coreReset.stopFabric.setMode .inReset).heldLow.dropReqPin := by
  obtain ⟨m, hm⟩ := s.fwReset_mbx
  have hkept : ({ s with mbx := m } : State).coreReset.stopFabric.mode.mode ≠ .test := hmode
  refine ⟨m, ?_⟩
  change execRstBlkNAssert s = _
  unfold execRstBlkNAssert
  rw [if_neg (by simp [haon, hblk]), hm]
  simp only [if_neg hkept, State.setMode_eq]
  rfl

/-- Settles O9: the core's reset and the withdrawal leave the always-on island as it is. -/
theorem blockResetKeepsAlwaysOnIsland : Obligations.BlockResetKeepsAlwaysOnIsland := by
  intro s haon hblk hmode
  obtain ⟨m, hm⟩ := exec_rstBlkNAssert s haon hblk hmode
  rw [State.setMode_eq, State.dropReqPin_eq] at hm
  refine ⟨_, hm, rfl, haon, rfl, rfl, rfl, rfl, rfl, rfl, rfl, rfl, rfl, ?log, rfl, rfl, rfl, rfl, rfl, rfl, rfl, rfl, rfl, rfl, ?units, rfl, rfl⟩
  case log => simp [State.heldLow, State.coreReset, State.stopFabric, Store.mapAll, Function.comp_def]
  case units => exact Store.forall_mapAll s.units (fun _ _ => UnitSt.reset) (· = UnitSt.reset) fun _ _ => rfl

/-- A release of RST_BLK_N with AON_FREQ in range starts the FLL in the forced safe state, with every tag free (R44, R57, R58). -/
theorem exec_rstBlkNRelease_inRange (s : State) (haon : s.pins.aonRel = true) (hblk : s.pins.blkRel = false) (hlo : 1920 ≤ s.pins.aonFreq)
    (hhi : s.pins.aonFreq ≤ 7680) : exec .rstBlkNRelease s = .next { s with
      pins := { s.pins with blkRel := true }, fab := [], mode := { s.mode with safe := true, fllOn := true } } := by
  change execRstBlkNRelease s = _
  unfold execRstBlkNRelease
  rw [if_neg (by simp [haon, hblk])]
  exact congrArg _ (if_neg (show ¬ (s.pins.aonFreq < 1920 ∨ 7680 < s.pins.aonFreq) by omega))

theorem exec_rstBlkNRelease_outOfRange (s : State) (haon : s.pins.aonRel = true) (hblk : s.pins.blkRel = false)
    (hfreq : s.pins.aonFreq < 1920 ∨ 7680 < s.pins.aonFreq) : exec .rstBlkNRelease s = .next
      (({ s with pins := { s.pins with blkRel := true }, fab := [], mode := { s.mode with safe := true } } : State).failStart.send
        0x80 1 s.pins.aonFreq) := by
  change execRstBlkNRelease s = _
  unfold execRstBlkNRelease
  rw [if_neg (by simp [haon, hblk])]
  exact congrArg _ (if_pos hfreq)

/-- Settles O10: each release by the level of TEST_MODE and by the range of AON_FREQ. -/
theorem resetReleases : Obligations.ResetReleases := by
  intro s f o m
  refine ⟨fun haon htest => ?plain, fun haon htest => ?test, fun haon hblk hlo hhi => ?inRange, fun haon hblk hmode hfreq => ?outOfRange⟩
  case plain => exact congrArg _ ((if_neg (by simp [haon])).trans (if_neg (by simp [htest])))
  case test =>
    rw [show exec (.rstAonNRelease f o m) s = execRstAonNRelease f o m s from rfl, execRstAonNRelease, if_neg (by simp [haon])]
    refine ⟨_, congrArg _ (if_pos htest), ?_⟩
    rw [State.setMode_eq]
    exact ⟨rfl, rfl, rfl, rfl, rfl, rfl⟩
  case inRange => exact exec_rstBlkNRelease_inRange s haon hblk hlo hhi
  case outOfRange =>
    obtain ⟨hq, hfll, -, halarm, hflt, hrst⟩ := State.failStart_spec
      { s with pins := { s.pins with blkRel := true }, fab := [], mode := { s.mode with safe := true } } (.inl hmode)
    exact ⟨_, exec_rstBlkNRelease_outOfRange s haon hblk hfreq, hrst, hq, hfll, halarm, by rw [State.send_flt, hflt]⟩

/-! ### The root key and the FLL -/

/-- Until ROOT_KEY_VLD is high nothing is sampled (R86). -/
theorem State.sampleKey_of_not_valid (s : State) (h : s.pins.rootKeyVld = false) : s.sampleKey = s := by
  unfold State.sampleKey
  exact if_pos (.inr (.inr (by simp [h])))

/-- A phase A1 samples a valid key once: all zeros and all ones are reported, another gives the device key (R86, R400). -/
theorem State.sampleKey_of_valid (s : State) (hph : s.mode.phase = .a1) (hks : s.mode.keySampled = false) (hv : s.pins.rootKeyVld = true) :
    s.sampleKey = if s.pins.rootKey = 0 ∨ s.pins.rootKey = BitVec.allOnes 256
      then ({ s with pins := { s.pins with rootKeyAck := true }, mode := { s.mode with keySampled := true } } : State).send 0x48 1 0
      else { s with
        pins := { s.pins with rootKeyAck := true }, mode := { s.mode with keySampled := true }
        hw := { s.hw with dk := some (deviceKey s.pins.rootKey) } } := by
  unfold State.sampleKey
  exact if_neg (by simp [hph, hks, hv])

/-- In a phase A1 that has not sampled, ROOT_KEY_VLD decides what is sampled and acknowledged; besides the device key and a report
nothing changes. -/
theorem State.sampleKey_eq (s : State) (hph : s.mode.phase = .a1) (hks : s.mode.keySampled = false) : ∃ dk flt,
    s.sampleKey = { s with
      pins := { s.pins with rootKeyAck := s.pins.rootKeyAck || s.pins.rootKeyVld }, mode := { s.mode with keySampled := s.pins.rootKeyVld }
      hw := { s.hw with dk := dk }, flt := flt } ∧
    (s.pins.rootKeyVld = false → dk = s.hw.dk ∧ flt = s.flt) := by
  cases hv : s.pins.rootKeyVld
  · refine ⟨s.hw.dk, s.flt, ?_, fun _ => ⟨rfl, rfl⟩⟩
    rw [s.sampleKey_of_not_valid hv, Bool.or_false, ← hks]
  · rw [s.sampleKey_of_valid hph hks hv, Bool.or_true]
    split
    · exact ⟨s.hw.dk, _, rfl, nofun⟩
    · exact ⟨_, s.flt, rfl, nofun⟩

/-- Phase A1 begins, the root key not yet sampled (R89, R109, R415). -/
def State.intoA1 (s : State) : State :=
  { s with
    pins := { s.pins with pwrReq := s.pins.pwrReq && !s.gov.granted }
    gov := { s.gov with high := s.gov.high && !s.gov.granted, granted := s.gov.granted && s.pins.pwrGnt }
    mode := { s.mode with
      mode := .attest, chg := s.mode.chg || decide (s.mode.mode ≠ .attest), phase := .a1, safe := true, stage := 0, keySampled := false }
    hw := { s.hw with alarmBoot := s.hw.alarmBoot || s.hw.alarm, dk := none } }

theorem State.attestStart_eq (s : State) : s.attestStart = s.intoA1.sampleKey.startEntropy := by
  rw [State.attestStart, State.dropReqPin_eq, State.setMode_eq]
  rfl

/-- A wake restores its image and starts firmware and the entropy source (R106, R107). -/
def State.wokenFrom (s : State) (r : Retained) : State :=
  ({ ({ s with mode := { s.mode with fllLock := true } } : State).restore r with retained := none } : State).startEntropy.fwStart

/-! A lock that counts runs by the mode in which it comes. -/

section Lock

variable (s : State) (hon : s.mode.fllOn = true) (hlock : s.mode.fllLock = false)
include hon hlock

theorem exec_fllLock_inReset (ok : Bool) (h : s.mode.mode = .inReset) :
    exec (.fllLock ok) s = .next ({ s with mode := { s.mode with fllLock := true } } : State).attestStart := by
  change execFllLock ok s = _
  rw [execFllLock, if_neg (by simp [hon, hlock])]
  simp only [h]

theorem exec_fllLock_imageOk (r : Retained) (h : s.mode.mode = .waking) (hr : s.retained = some r) : exec (.fllLock true) s = .next
    (((s.wokenFrom r).linkCheck.addGrant .firstLane [] none 0 0).issueNew (s.wokenFrom r).linkCheck.nextId) := by
  change execFllLock true s = _
  rw [execFllLock, if_neg (by simp [hon, hlock])]
  simp only [State.wokenFrom, h, hr, if_true]

theorem exec_fllLock_imageBad (r : Retained) (h : s.mode.mode = .waking) (hr : s.retained = some r) : exec (.fllLock false) s = .next
    (({ s with
      mode := { s.mode with fllLock := true, warmFail := true }, retained := none
      ledger := { s.ledger with known := [] } } : State).attestStart.send 0x4A 0 0) := by
  change execFllLock false s = _
  rw [execFllLock, if_neg (by simp [hon, hlock])]
  simp only [h, hr, Bool.false_eq_true, if_false]

theorem exec_fllLockTimeout : exec .fllLockTimeout s = .next { s.failStart.send 0x80 2 0 with mode := { s.failStart.mode with fllOn := false } } := by
  change execFllLockTimeout s = _
  rw [execFllLockTimeout, if_pos (by simp [hon, hlock])]
  rfl

end Lock

/-- Settles O11: the lock by the mode in which it comes, through the start of ATTEST or the grant that a wake asks for. -/
theorem fllLockStartsAttestOrWake : Obligations.FllLockStartsAttestOrWake := by
  intro s ok hon hlock
  refine ⟨fun h => ?cold, fun r h hr hgr hlink => ?warm, fun r h hr => ?badImage, fun h => ?testState, fun h => ?timeout⟩
  case cold =>
    obtain ⟨dk, flt, hkey, hlow⟩ := (State.intoA1 { s with mode := { s.mode with fllLock := true } }).sampleKey_eq rfl rfl
    refine ⟨_, exec_fllLock_inReset s hon hlock ok h, ?_⟩
    rw [State.attestStart_eq, hkey]
    exact ⟨rfl, rfl, rfl, rfl, rfl, by simp [State.intoA1, State.startEntropy, h], rfl, rfl, rfl, hlow, rfl, rfl, rfl⟩
  case warm =>
    refine ⟨_, exec_fllLock_imageOk s hon hlock r h hr, ?_⟩
    obtain ⟨p, i, q, hcheck, -⟩ := (s.wokenFrom r).linkCheck_off hlink
    have hgrants : ((s.wokenFrom r).linkCheck.addGrant .firstLane [] none 0 0).gov.grants =
        [⟨(s.wokenFrom r).linkCheck.nextId, .firstLane, [], none, 0, 0, (s.wokenFrom r).linkCheck.nextId⟩] := by
      rw [hcheck]
      exact congrArg (· ++ _) hgr
    obtain ⟨hparts, hledger, hseals, hret, hmode⟩ := State.issueNew_firstLane _ _ (s.wokenFrom r).linkCheck.nextId hgrants rfl
    rw [hcheck] at hparts hledger hseals hret hmode ⊢
    exact ⟨by rw [hmode]; exact h, hret, by rw [hmode]; rfl, by rw [hledger]; rfl, hparts, by rw [hseals]; rfl⟩
  case badImage =>
    obtain ⟨dk, flt, hkey, hlow⟩ := (State.intoA1 { s with
      mode := { s.mode with fllLock := true, warmFail := true }, retained := none, ledger := { s.ledger with known := [] } }).sampleKey_eq rfl rfl
    refine ⟨_, exec_fllLock_imageBad s hon hlock r h hr, ?_⟩
    rw [State.attestStart_eq, hkey]
    refine ⟨rfl, rfl, rfl, fun hv => ?_⟩
    obtain ⟨hdk, hflt⟩ := hlow hv
    exact ⟨hdk, by rw [State.send_flt]; exact congrArg (fun f : Flt => f.inFlight ++ _) hflt⟩
  case testState =>
    rw [exec_fllLockTimeout s hon hlock, State.failStart, if_neg (by simp [h])]
    rfl
  case timeout =>
    obtain ⟨hq, -, hslots, halarm, hflt, -⟩ := s.failStart_spec h
    refine ⟨_, exec_fllLockTimeout s hon hlock, hq, rfl, hslots, halarm, ?_⟩
    show (s.failStart.send 0x80 2 0).flt.inFlight = _
    rw [State.send_flt, hflt]

/-! ### Phases A1 and A2 of ATTEST -/

/-- QUARANTINE entered while the link is OFF stops all work and erases the keys (R94, R113, R414). -/
theorem State.quarantine_spec (s : State) (hmode : s.mode.mode ≠ .inReset ∧ s.mode.mode ≠ .quarantine ∧ s.mode.mode ≠ .test)
    (hlink : s.pair.link = .off) : s.quarantine.mode.mode = .quarantine ∧ s.quarantine.mode.safe = true ∧ s.quarantine.hw.slots = [] ∧
      s.quarantine.hw.keks = [] ∧ s.quarantine.hw.alarm = true ∧ s.quarantine.reqs = [] := by
  rw [State.quarantine, if_neg (by simp [hmode]), if_pos hlink, State.setMode_eq, State.dropReqPin_eq]
  exact ⟨rfl, rfl, rfl, rfl, rfl, rfl⟩

/-- The state after a phase A1 that passes: the forced safe state has ended and phase A2 waits for the region (R109, R111). -/
def State.afterA1 (s : State) (bs bk : List Nat) : State :=
  ({ s with
    mode := { s.mode with phase := .a2Wait, safe := false }
    hw := { s.hw with badSlots := bs, badKeks := bk }
    persist := { s.persist with regionWait := true } } : State).fwStart

section PhaseA1

variable (s : State) (bs bk : List Nat)

theorem exec_attestA1Done_of_not_sampled (pass : Bool) (h : s.mode.keySampled = false) : exec (.attestA1Done pass bs bk) s = .next s :=
  congrArg _ (if_pos (by simp [h]))

variable (hph : s.mode.phase = .a1) (hks : s.mode.keySampled = true) (hdk : s.hw.dk ≠ none)
include hph hks hdk

theorem exec_attestA1Done_fail : exec (.attestA1Done false bs bk) s = .next s.quarantine := by
  change execAttestA1Done false bs bk s = _
  rw [execAttestA1Done, if_neg (by simp [hph, hks, hdk])]
  rfl

/-- The banks are read at once where PERSIST_CTL.EN is 1 (R109). -/
theorem exec_attestA1Done_pass : exec (.attestA1Done true bs bk) s = .next
    (if bitAt (s.blk 0xD08) 0 then (s.afterA1 bs bk).readBanks else s.afterA1 bs bk) := by
  change execAttestA1Done true bs bk s = _
  rw [execAttestA1Done, if_neg (by simp [hph, hks, hdk])]
  rfl

end PhaseA1

theorem State.blk_setBlk (s : State) (off : Nat) (w : Word) : (s.setBlk off w).blk off = w.toNat := by
  simp only [State.blk, State.setBlk, RegFile.get_set_self]

/-- A write of bit 0 with its byte enabled reaches an RW bit 0. -/
theorem mergeWord_bit0 (o : Word) (m : Nat) (ben : BitVec 4) (d : Word) (hm : m.testBit 0 = true) (hb : ben.getLsbD 0 = true)
    (hd : d.getLsbD 0 = true) : (mergeWord o m ben d).getLsbD 0 = true := by
  have hmask : (wordOf m).getLsbD 0 = true := by simp [wordOf, BitVec.getLsbD_ofNat, hm]
  simp only [mergeWord, BitVec.getLsbD_or, BitVec.getLsbD_and, benMask_bit0, hb, hd, hmask, Bool.and_self, Bool.or_true]

/-- PERSIST_CTL takes the data, EN staying set once it is (R430). -/
def State.persistCtlSet (s : State) (ben : BitVec 4) (d : Word) : State :=
  s.setBlk 0xD08 (mergeWord (wordOf (s.blk 0xD08)) 3 ben d ||| (wordOf (s.blk 0xD08) &&& 1))

theorem exec_persistCtlEnWrite_served (s : State) (p : Bool) (ben : BitVec 4) (d : Word) (hclk : s.pins.fabClk = true)
    (haon : s.pins.aonRel = true) (hport : s.portErr p false 0xD08 = false) : exec (.persistCtlEnWrite p ben d) s = .next
    { (if s.mode.phase = .a2Wait ∧ bitAt ((s.persistCtlSet ben d).blk 0xD08) 0 then (s.persistCtlSet ben d).readBanks
        else s.persistCtlSet ben d) with port := ⟨0, false⟩ } := by
  change execPersistCtlEnWrite p ben d s = _
  rw [execPersistCtlEnWrite, s.portWrite_served p 0xD08 ben false _ hclk hport (.inl rfl) haon]
  rfl

theorem State.persistCtlSet_en (s : State) (ben : BitVec 4) (d : Word) (hb : ben.getLsbD 0 = true) (hd : d.getLsbD 0 = true) :
    bitAt ((s.persistCtlSet ben d).blk 0xD08) 0 = true := by
  rw [State.persistCtlSet, State.blk_setBlk]
  show (mergeWord (wordOf (s.blk 0xD08)) 3 ben d ||| (wordOf (s.blk 0xD08) &&& 1)).getLsbD 0 = true
  rw [BitVec.getLsbD_or, mergeWord_bit0 _ 3 ben d rfl hb hd, Bool.true_or]

/-- Settles O20: phase A1 by its outcome and PERSIST_CTL.EN, and the write that sets EN while phase A2 waits. -/
theorem attestReadsBanks : Obligations.AttestReadsBanks := by
  intro s bs bk
  refine ⟨fun _ hks pass => exec_attestA1Done_of_not_sampled s bs bk pass hks, fun hmode hph hks hdk hlink => ?fail,
    fun hph hks hdk hen => ?wait, fun hph hks hdk hen => ?read, fun p ben d hclk haon hport => ⟨fun hph => ?write, fun hph hb hd => ?enable⟩⟩
  case fail =>
    exact ⟨_, exec_attestA1Done_fail s bs bk hph hks hdk, s.quarantine_spec (by simp [hmode]) hlink⟩
  case wait =>
    refine ⟨_, exec_attestA1Done_pass s bs bk hph hks hdk, ?_⟩
    rw [hen]
    exact ⟨rfl, rfl, rfl, rfl⟩
  case read =>
    refine ⟨_, exec_attestA1Done_pass s bs bk hph hks hdk, ?_⟩
    rw [hen]
    exact ⟨rfl, rfl, rfl⟩
  case write =>
    rw [exec_persistCtlEnWrite_served s p ben d hclk haon hport, if_neg (fun h => hph h.1)]
    rfl
  case enable =>
    have hen := s.persistCtlSet_en ben d hb hd
    refine ⟨_, exec_persistCtlEnWrite_served s p ben d hclk haon hport, ?_⟩
    rw [if_pos ⟨hph, hen⟩]
    exact ⟨rfl, hen, rfl⟩

end Sys2Proof.Machine
end

section
/-! The pins: TEST_MODE, the supplies, CLK_FAB, the root key, the tamper inputs, the negotiation and the test access port (spec/02 R45 to
R53, R84 to R88), and the statements O12 to O16 of spec/00_scope.md. -/

namespace Sys2Proof.Machine

/-! ### TEST_MODE -/

/-- A rise of TEST_MODE halts the core, erases every key and enters the test state (R87, R414). -/
def State.tested (s : State) : State :=
  (({ s with pins := { s.pins with testMode := true } } : State).haltCore.keyAlarm.dropReqPin).setMode .test

theorem exec_testModeRise (s : State) (haon : s.pins.aonRel = true) (hmode : s.mode.mode ≠ .test) :
    exec .testModeRise s = .next (if s.tested.pair.link = .off then s.tested.leaveIso else s.tested.linkAlign) :=
  congrArg _ (if_neg (by simp [haon, hmode]))

/-- A unit after a halt with the keys erased: gated, idle and without key and data (R89, R414). -/
def UnitSt.silent (u : UnitSt) : Prop := u.key = none ∧ u.power = .gated ∧ u.work = .idle ∧ u.tiles = []

theorem State.haltCore_keyAlarm_units (s : State) : ∀ x ∈ s.haltCore.keyAlarm.units, x.2.silent := by
  have hgated : ∀ y ∈ s.haltCore.units, y.2.power = .gated ∧ y.2.work = .idle := by
    dsimp only [State.haltCore]
    exact Store.forall_mapAll s.units _ (fun u => u.power = .gated ∧ u.work = .idle) fun _ _ => ⟨rfl, rfl⟩
  dsimp only [State.keyAlarm]
  exact Store.forall_mapAll s.haltCore.units _ UnitSt.silent fun y hy => ⟨rfl, (hgated y hy).1, (hgated y hy).2, rfl⟩

theorem State.leaveIso_of_not_retained (s : State) (h : s.retained = none) : s.leaveIso = { s with pins := { s.pins with coreIso := false } } := by
  simp only [State.leaveIso, h]

/-- With the link OFF the isolation ends, whatever the link does next (R51; log entry 16). -/
theorem State.leaveIso_coreIso (s : State) (h : s.pair.link = .off) : s.leaveIso.pins.coreIso = false := by
  unfold State.leaveIso
  split
  · next r _ =>
    obtain ⟨l, c, i, lanes, n, p, hcheck⟩ := State.linkCheck_eq
      { s with pins := { s.pins with coreIso := false }, pair := { s.pair with ident := r.ident } } (by simp [State.session, h])
    rw [hcheck]
  · rfl

/-- Settles O12: the rise by the state it leaves, the fall by RST_AON_N. -/
theorem testModePin : Obligations.TestModePin := by
  intro s
  refine ⟨fun haon hmode => ⟨s.tested, exec_testModeRise s haon hmode, fun h => s.tested.leaveIso_of_not_retained ?retained,
    s.tested.leaveIso_coreIso, ?rise⟩, fun haon => ?fallHigh, fun haon => ?fallLow⟩
  case retained =>
    rw [State.tested, State.setMode_eq, State.dropReqPin_eq]
    exact h
  case rise =>
    rw [State.tested, State.setMode_eq, State.dropReqPin_eq]
    have hchg : (s.mode.chg || decide (s.mode.mode ≠ .test)) = true := by simp [hmode]
    exact ⟨rfl, rfl, rfl, rfl, hchg, rfl, rfl, rfl, rfl, rfl, rfl, rfl, rfl, s.haltCore_keyAlarm_units, rfl, rfl, rfl, rfl⟩
  case fallHigh => exact congrArg _ (if_pos haon)
  case fallLow => exact congrArg _ (if_neg (by simp [haon]))

/-! ### The supplies and CLK_FAB -/

/-- The wake takes the selected operating point, 0b11 standing for 0b00 (R49, R50, R107). -/
theorem State.wake_eq (s : State) (h : s.mode.mode = .dormant) : s.wake = { s with
    pins := { s.pins with coreIso := false }
    mode := { s.mode with
      mode := .waking, chg := true, fllOn := true, fllLock := false, active := if s.mode.point = 3 then 0 else s.mode.point } } := by
  have hchg : (s.mode.chg || decide (s.mode.mode ≠ .waking)) = true := by simp [h]
  rw [State.wake, State.setMode_eq, hchg]

/-- Settles O13: a wake needs DORMANT and another TARGET, and the clock stops where R45 allows it. -/
theorem corePowerAndFabricClock : Obligations.CorePowerAndFabricClock := by
  intro s
  refine ⟨fun hmode htarget => ?wakes, fun h => ?stays, rfl, fun hclk hwhere hidle => ?stops, rfl⟩
  case wakes =>
    have htry := State.wake_eq { s with pins := { s.pins with corePwrGood := true } } hmode
    exact congrArg _ ((if_pos ⟨hmode, htarget, rfl⟩).trans htry)
  case stays =>
    refine congrArg _ (if_neg ?_)
    rintro ⟨hmode, htarget, -⟩
    exact h.elim (· hmode) htarget
  case stops =>
    refine congrArg _ (if_pos ⟨hclk, ?_⟩)
    simpa [State.mayStopFab, hidle] using hwhere

/-! ### The root key and the tamper inputs -/

/-- Outside a phase A1 that has still to sample, nothing is sampled (R86). -/
theorem State.sampleKey_of_over (s : State) (h : s.mode.phase ≠ .a1 ∨ s.mode.keySampled = true) : s.sampleKey = s :=
  if_pos (h.imp id fun hks => .inl hks)

theorem mem_addMem (l : List Nat) (n m : Nat) : m ∈ addMem l n ↔ m ∈ l ∨ m = n := by
  unfold addMem
  split
  · next h => exact ⟨.inl, fun hm => hm.elim id fun he => he ▸ h⟩
  · rw [List.mem_append, List.mem_singleton]

/-- What a registered tamper input does (R85, R414). -/
def State.tampered (s : State) (k : Nat) : State :=
  ({ s with pins := { s.pins with
    tamperLevel := addMem s.pins.tamperLevel k, tamperLatch := addMem s.pins.tamperLatch k } } : State).keyAlarm.send (0x88 + k) 6 0

theorem exec_tamperRegistered (s : State) (k : Nat) (haon : s.pins.aonRel = true) (hk : k < 4) :
    exec (.tamperRegistered k) s = .next (s.tampered k) :=
  congrArg _ (if_neg (by simp [haon, hk]))

/-- Settles O14: the key by what it is and by whether phase A1 has still to sample, and the tamper input by its number. -/
theorem rootKeyAndTamper : Obligations.RootKeyAndTamper := by
  refine ⟨fun s key => ⟨fun hph hks hne0 hne1 => ?good, fun hph hks hbad => ?bad, fun hover => ?sampled, rfl, fun hph hks hv => ?late⟩,
    fun s k haon hk => ?tamper, fun s k h => congrArg _ (if_pos ?none)⟩
  case good =>
    have hsample := State.sampleKey_of_valid { s with pins := { s.pins with rootKeyVld := true, rootKey := key } } hph hks rfl
    exact congrArg _ (hsample.trans (if_neg (not_or.mpr ⟨hne0, hne1⟩)))
  case bad =>
    have hsample := State.sampleKey_of_valid { s with pins := { s.pins with rootKeyVld := true, rootKey := key } } hph hks rfl
    exact congrArg _ (hsample.trans (if_pos hbad))
  case sampled =>
    exact congrArg _ (State.sampleKey_of_over { s with pins := { s.pins with rootKeyVld := true, rootKey := key } } hover)
  case late => exact congrArg _ (if_pos (by simp [hph, hks, hv]))
  case tamper =>
    refine ⟨_, exec_tamperRegistered s k haon hk, (mem_addMem _ k k).2 (.inr rfl), (mem_addMem _ k k).2 (.inr rfl),
      fun j hj => (mem_addMem _ k j).2 (.inl hj), rfl, rfl, rfl, rfl, ?_, rfl, rfl⟩
    exact Store.forall_mapAll s.units (fun _ u => u.eraseKey) (fun u => u.key = none ∧ u.tiles = [] ∧ u.acc = 0) fun _ _ => ⟨rfl, rfl, rfl⟩
  case none => exact h.imp_left (by simp [·])

/-! ### The negotiation -/

section Negotiation

variable (s : State) (haon : s.pins.aonRel = true)
include haon

/-- The budget after a rise of PWR_GNT is the higher one while a waiting grant needs it, and else the request falls (R84, R121). -/
theorem exec_pwrGntRise_granted (hreq : s.pins.pwrReq = true) (hgr : s.gov.granted = false) :
    exec .pwrGntRise s = .next (if s.mode.safe = false ∧ s.wantsHigh = true
      then { s with pins := { s.pins with pwrGnt := true }, gov := { s.gov with high := true, granted := true } }
      else { s with pins := { s.pins with pwrGnt := true, pwrReq := false }, gov := { s.gov with high := false, granted := true } }) := by
  have hexpected : ¬ ((!s.pins.pwrReq) = true ∨ s.gov.granted = true) := by simp [hreq, hgr]
  refine congrArg _ ((if_neg (by simp [haon])).trans ((if_neg hexpected).trans ?_))
  simp only [Bool.not_eq_true']
  rfl

theorem exec_pwrGntRise_stray (h : s.pins.pwrReq = false ∨ s.gov.granted = true) :
    exec .pwrGntRise s = .next (({ s with pins := { s.pins with pwrGnt := true } } : State).send 0x68 1 0) :=
  congrArg _ ((if_neg (by simp [haon])).trans (if_pos (h.imp_left (by simp [·]))))

/-- A fall of PWR_GNT that completes the handshake starts the next negotiation where one is due (R84, R121). -/
theorem exec_pwrGntFall_granted (hreq : s.pins.pwrReq = false) (hgr : s.gov.granted = true) :
    exec .pwrGntFall s = .next
      (({ s with pins := { s.pins with pwrGnt := false }, gov := { s.gov with granted := false } } : State).negotiate) := by
  have hexpected : ¬ (s.pins.pwrReq = true ∨ (!s.gov.granted) = true) := by simp [hreq, hgr]
  exact congrArg _ ((if_neg (by simp [haon])).trans (if_neg hexpected))

theorem exec_pwrGntFall_stray (h : s.pins.pwrReq = true ∨ s.gov.granted = false) :
    exec .pwrGntFall s = .next (({ s with pins := { s.pins with pwrGnt := false } } : State).send 0x68 1 0) :=
  congrArg _ ((if_neg (by simp [haon])).trans (if_pos (h.imp_right (by simp [·]))))

end Negotiation

/-- Settles O15: each edge by where the handshake stands. -/
theorem powerNegotiation : Obligations.PowerNegotiation := by
  intro s haon
  refine ⟨fun hreq hgr hsafe hwants => ?grant, fun hreq hgr hsafe => ?safe, exec_pwrGntRise_stray s haon, fun hreq hgr => ?fall,
    exec_pwrGntFall_stray s haon, fun hreq hgr => ?timeout, fun hreq hgr hused hborrow => ?hold⟩
  case grant => rw [exec_pwrGntRise_granted s haon hreq hgr, if_pos ⟨hsafe, hwants⟩]
  case safe => rw [exec_pwrGntRise_granted s haon hreq hgr, if_neg (by simp [hsafe])]
  case fall =>
    obtain ⟨x, hx⟩ := State.negotiate_pwrReq { s with pins := { s.pins with pwrGnt := false }, gov := { s.gov with granted := false } }
    rw [exec_pwrGntFall_granted s haon hreq hgr, hx]
    exact ⟨_, rfl, rfl, rfl⟩
  case timeout => exact congrArg _ (if_pos (by simp [hreq, hgr]))
  case hold =>
    refine congrArg _ ((if_pos (by simp [hreq, hgr, hused, hborrow])).trans ?_)
    rw [State.lowerReq, hgr, Bool.true_and]

/-! ### The test access port -/

/-- The controller comes to Update-IR from Exit1-IR and Exit2-IR, where nothing shifts (R88). -/
theorem TapState.next_updateIr {t : TapState} {tms : Bool} (h : t.next tms = .updateIr) : t = .exit1Ir ∨ t = .exit2Ir := by
  cases t <;> cases tms <;> simp_all [TapState.next]

theorem State.tckRise_captureDr (s : State) (tdi : Bool) (h : s.jtag.st = .captureDr) : s.tckRise tdi = { s.jtag with drSh := s.captured } := by
  simp only [State.tckRise, h]

theorem State.tckRise_shiftDr (s : State) (tdi : Bool) (h : s.jtag.st = .shiftDr) (hinstr : s.instr = false) :
    s.tckRise tdi = { s.jtag with drSh := s.jtag.drSh.drop 1 ++ [tdi] } := by
  simp [State.tckRise, h, hinstr]

theorem State.tckRise_captureIr (s : State) (tdi : Bool) (h : s.jtag.st = .captureIr) :
    s.tckRise tdi = { s.jtag with irSh := [true, false, false, false] } := by
  simp only [State.tckRise, h]
  rfl

theorem State.tckRise_shiftIr (s : State) (tdi : Bool) (h : s.jtag.st = .shiftIr) :
    s.tckRise tdi = { s.jtag with irSh := s.jtag.irSh.drop 1 ++ [tdi] } := by
  simp only [State.tckRise, h]

theorem State.tckRise_exitIr (s : State) (tdi : Bool) (h : s.jtag.st = .exit1Ir ∨ s.jtag.st = .exit2Ir) : s.tckRise tdi = s.jtag := by
  rcases h with h | h <;> simp only [State.tckRise, h]

theorem State.tckRise_st (s : State) (tdi : Bool) : (s.tckRise tdi).st = s.jtag.st := by
  unfold State.tckRise
  dsimp only
  split <;> rfl

/-- INSTR_ACCESS needs its own code and TEST_MODE high (R88). -/
theorem State.instr_eq_false (s : State) (h : s.jtag.ir ≠ 8 ∨ s.pins.testMode = false) : s.instr = false := by
  simpa [State.instr, ← imp_iff_not_or] using h

/-- The port after one cycle of TCK with TRST_N high (R88). -/
def State.tck (s : State) (tms tdi : Bool) : Jtag :=
  { s.tckRise tdi with
    st := s.jtag.st.next tms
    ir := if s.jtag.st.next tms = .updateIr then bitsNat (s.tckRise tdi).irSh % 16
      else if s.jtag.st.next tms = .testLogicReset then 1 else (s.tckRise tdi).ir
    tdo := match s.jtag.st.next tms with
      | .shiftDr => if s.instr then Config.instrumentTdo (s.tckRise tdi).drSh else (s.tckRise tdi).drSh.headD false
      | .shiftIr => (s.tckRise tdi).irSh.headD false
      | _ => (s.tckRise tdi).tdo }

theorem exec_testAccess_clocked (s : State) (tms tdi : Bool) : exec (.testAccess true tms tdi) s = .next { s with jtag := s.tck tms tdi } := by
  rw [State.tck, ← s.tckRise_st tdi]
  rfl

theorem bitsNat_four (a b c d : Bool) : bitsNat [a, b, c, d] % 16 = b2n a + 2 * b2n b + 4 * b2n c + 8 * b2n d := by
  revert a b c d
  decide

/-- Settles O16: each capture, shift and update by the controller's state. -/
theorem testPortFollowsJtag : Obligations.TestPortFollowsJtag := by
  intro s tms tdi
  refine ⟨rfl, _, exec_testAccess_clocked s tms tdi, rfl, rfl, fun hst => ?reset, fun hst hir => ?idcode, fun hst hir hinstr => ?bypass,
    fun hst hinstr => ?shift, fun hst htms hinstr => ?out, fun hst => ?captureIr, fun hst => ?shiftIr, fun hst a b c d hsh _ => ?update⟩
  case reset =>
    have hnext : s.jtag.st.next tms = .testLogicReset := hst
    simp [State.tck, hnext]
  case idcode =>
    simp only [State.tck, s.tckRise_captureDr tdi hst, State.captured, if_pos hir]
    exact bitList_getElem s.idcode
  case bypass =>
    simp only [State.tck, s.tckRise_captureDr tdi hst, State.captured, if_neg hir, s.instr_eq_false hinstr]
    rfl
  case shift => simp only [State.tck, s.tckRise_shiftDr tdi hst (s.instr_eq_false hinstr)]
  case out =>
    have hnext : s.jtag.st.next tms = .shiftDr := by rw [hst, htms]; rfl
    simp [State.tck, hnext, s.instr_eq_false hinstr]
  case captureIr => simp only [State.tck, s.tckRise_captureIr tdi hst]
  case shiftIr => simp only [State.tck, s.tckRise_shiftIr tdi hst]
  case update =>
    have hnext : s.jtag.st.next tms = .updateIr := hst
    simp only [State.tck, s.tckRise_exitIr tdi (TapState.next_updateIr hnext), hnext, if_true, hsh, bitsNat_four]

end Sys2Proof.Machine
end

section
/-! PROOF. The fabric ports: which command takes which tag, what a return does for an issued and for a held tag, and a timeout. -/

namespace Sys2Proof.Machine

/-! ### Tags -/

/-- The lowest tag that nothing of its kind uses is the free one (R66). -/
theorem State.freeTag_eq (s : State) (port n : Nat) (w : Bool) (hn : n < if w then 128 else 256)
    (hfree : ∀ x ∈ s.fab, x.port = port → x.isWrite = w → x.phase ≠ .presented → x.tag ≠ n)
    (hused : ∀ m < n, ∃ x ∈ s.fab, x.port = port ∧ x.isWrite = w ∧ x.phase ≠ .presented ∧ x.tag = m) : s.freeTag port w = some n := by
  have hmem (m : Nat) : m ∈ (s.outstanding port w).map (·.tag) ↔
      ∃ x ∈ s.fab, x.port = port ∧ x.isWrite = w ∧ x.phase ≠ .presented ∧ x.tag = m := by
    simp [State.outstanding, and_assoc]
  refine find_lowest_unused _ n _ hn (fun h => ?_) (fun m hm => (hmem m).2 (hused m hm))
  obtain ⟨x, hx, hport, hw, hphase, htag⟩ := (hmem n).1 h
  exact hfree x hx hport hw hphase htag

/-- Transactions that are not presented on the port stay as they are ahead of the one that is transferred (R60). -/
theorem State.transfer_append (s : State) (port : Nat) (a b : List Txn) (ha : ∀ x ∈ a, x.port ≠ port ∨ x.phase ≠ .presented) :
    s.transfer port (a ++ b) = (s.transfer port b).map (a ++ ·) := by
  induction a with
  | nil => simp
  | cons x a ih =>
    have hx : ¬ (x.port = port ∧ x.phase = .presented) := not_and_or.mpr (ha x List.mem_cons_self)
    rw [List.cons_append, State.transfer, if_neg hx, ih fun y hy => ha y (List.mem_cons_of_mem x hy), Option.map_map]
    rfl

theorem State.transfer_presented (s : State) (port n : Nat) (t : Txn) (b : List Txn) (hport : t.port = port) (hphase : t.phase = .presented)
    (htag : s.freeTag port t.isWrite = some n) : s.transfer port (t :: b) = some ({ t with tag := n, phase := .issued } :: b) := by
  rw [State.transfer, if_pos ⟨hport, hphase⟩, htag]

theorem exec_fabricCommandTransfer (s : State) (port : Nat) (f : List Txn) (hclk : s.pins.fabClk = true) (hblk : s.pins.blkRel = true)
    (hsafe : s.mode.safe = false) (hf : s.transfer port s.fab = some f) : exec (.fabricCommandTransfer port) s = .next { s with fab := f } := by
  refine congrArg _ ((if_neg (by simp [hclk, hblk, hsafe])).trans ?_)
  rw [hf, Option.elim_some]

theorem exec_fabricCommandTransfer_safe (s : State) (port : Nat) (hsafe : s.mode.safe = true) :
    exec (.fabricCommandTransfer port) s = .next s :=
  congrArg _ (if_pos (.inr (.inr hsafe)))

/-! ### Read returns -/

/-- The read with one more beat (R62). -/
def Txn.take (t : Txn) (idx : Nat) (bs : Bytes) : Txn := { t with got := Store.put t.got idx bs }

theorem Txn.take_marked (t : Txn) (idx : Nat) (bs : Bytes) (h : idx ≠ failMark) : (t.take idx bs).marked = t.marked := by
  rw [Txn.marked, Txn.take, Store.any_put, beq_eq_false_iff_ne.mpr h, Bool.false_or, Txn.marked]

theorem Txn.mark_marked (t : Txn) : t.mark.marked = true := by
  rw [Txn.marked, Txn.mark, Store.any_put, beq_self_eq_true, Bool.true_or]

/-- The mark is no beat, so it does not complete a read that has at most 33 of them (R61). -/
theorem Txn.mark_full_eq (t : Txn) (h : t.beats ≤ 33) : t.mark.full = t.full := by
  refine Bool.eq_iff_iff.mpr ?_
  simp only [Txn.full, List.all_eq_true, List.mem_range]
  refine forall₂_congr fun i hi => ?_
  have hne : (failMark == i) = false := beq_eq_false_iff_ne.mpr (by simp only [failMark]; have : t.mark.beats = t.beats := rfl; omega)
  rw [Txn.has, Txn.mark, Store.any_put, hne, Bool.false_or, Txn.has]

/-- What a complete read does with RST_BLK_N high, for its last beat and its mark (R62, R67, R68, R89). -/
def State.readEnd (s : State) (u : Txn) : State :=
  if u.marked then s.readLost u.purpose else if s.mode.safe then s else s.readData u.purpose u.bytes

section Beat

variable (s : State) (port tag idx : Nat) (bs : Bytes) (t : Txn)

/-- A beat that is no fault is kept, and the last one ends the read (R62). -/
theorem State.beat_new (hblk : s.pins.blkRel = true) (hphase : t.phase = .issued) (hidx : idx < t.beats) (hnew : t.has idx = false) :
    s.beat port tag idx bs false t = if (t.take idx bs).full then (s.setTxn port false tag (fun _ => none)).readEnd (t.take idx bs)
      else s.setTxn port false tag (fun _ => some (t.take idx bs)) := by
  have hin : decide (t.beats ≤ idx) = false := decide_eq_false (Nat.not_le.mpr hidx)
  have hlate : (t.phase == TxnPhase.held) = false := by rw [hphase]; rfl
  have htake : ({ t with got := Store.put t.got idx bs } : Txn) = t.take idx bs := rfl
  cases hfull : (t.take idx bs).full
  case false => simp [State.beat, hin, hnew, hlate, htake, hfull]
  case true =>
    simp [State.beat, hin, hnew, hlate, hblk, htake, hfull, State.discards, State.readEnd]
    rfl

/-- A beat with a bad status is kept and reported once, and the read is lost with its last beat (R67, R68). -/
theorem State.beat_bad_last (hblk : s.pins.blkRel = true) (hphase : t.phase = .issued) (hidx : idx < t.beats) (hnew : t.has idx = false)
    (hmark : t.marked = false) (hfull : (t.take idx bs).mark.full = true) :
    s.beat port tag idx bs true t = ((s.send (0x40 + port) 4 t.addr).setTxn port false tag (fun _ => none)).readLost t.purpose := by
  have hin : decide (t.beats ≤ idx) = false := decide_eq_false (Nat.not_le.mpr hidx)
  have hlate : (t.phase == TxnPhase.held) = false := by rw [hphase]; rfl
  have hmarked : (t.take idx bs).mark.marked = true := Txn.mark_marked _
  have htake : ({ t with got := Store.put t.got idx bs } : Txn) = t.take idx bs := rfl
  simp [State.beat, hin, hnew, hlate, hblk, hmark, htake, hfull, hmarked]
  rfl

/-- A beat beyond the last one is discarded and reported once (R67). -/
theorem State.beat_beyond (bad : Bool) (hblk : s.pins.blkRel = true) (hphase : t.phase = .issued) (hidx : t.beats ≤ idx)
    (hmark : t.marked = false) (hfull : t.mark.full = false) :
    s.beat port tag idx bs bad t = (s.send (0x40 + port) 1 t.addr).setTxn port false tag (fun _ => some t.mark) := by
  have hout : decide (t.beats ≤ idx) = true := decide_eq_true hidx
  have hlate : (t.phase == TxnPhase.held) = false := by rw [hphase]; rfl
  simp [State.beat, hout, hlate, hblk, hmark, hfull]

end Beat

section Returns

variable (s : State) (port tag : Nat) (sts : BitVec 2)

theorem exec_readReturnBeat {t : Txn} (idx : Nat) (data : BitVec 1024) (hclk : s.pins.fabClk = true) (htxn : s.txn port false tag = some t) :
    exec (.readReturnBeat port tag idx data sts) s = .next (s.beat port tag idx (leBytes 128 data.toNat) (sts != 0) t) := by
  refine congrArg _ ((if_neg (by simp [hclk])).trans ?_)
  rw [htxn]

/-! ### Returns for a tag that is not in use (R58, R69) -/

theorem exec_readReturnBeat_stray (idx : Nat) (data : BitVec 1024) (hclk : s.pins.fabClk = true) (htxn : s.txn port false tag = none) :
    exec (.readReturnBeat port tag idx data sts) s = .next (s.stray port) := by
  refine congrArg _ ((if_neg (by simp [hclk])).trans ?_)
  rw [htxn]

theorem exec_writeCompletion_stray (hclk : s.pins.fabClk = true) (htxn : s.txn port true tag = none) :
    exec (.writeCompletion port tag sts) s = .next (s.stray port) := by
  refine congrArg _ ((if_neg (by simp [hclk])).trans ?_)
  rw [htxn]

theorem State.stray_released (h : s.pins.blkRel = true) : s.stray port = s.send (0x40 + port) 1 0 := if_pos h

theorem State.stray_reset (h : s.pins.blkRel = false) : s.stray port = s := if_neg (by simp [h])

theorem exec_writeCompletion_stopped (h : s.pins.fabClk = false) : exec (.writeCompletion port tag sts) s = .next s :=
  congrArg _ (if_pos (by simp [h]))

theorem exec_readReturnBeat_stopped (idx : Nat) (data : BitVec 1024) (h : s.pins.fabClk = false) :
    exec (.readReturnBeat port tag idx data sts) s = .next s :=
  congrArg _ (if_pos (by simp [h]))

/-! ### Write responses -/

section Write

variable {t : Txn} (hclk : s.pins.fabClk = true) (htxn : s.txn port true tag = some t)
include hclk htxn

theorem exec_writeCompletion_held (hphase : t.phase = .held) :
    exec (.writeCompletion port tag sts) s = .next (s.setTxn port true tag (fun _ => none)) := by
  refine congrArg _ ((if_neg (by simp [hclk])).trans ?_)
  rw [htxn]
  exact if_pos (.inl hphase)

/-- The response to an issued write with RST_BLK_N high (R64, R67, R68, R89). -/
theorem exec_writeCompletion_issued (hblk : s.pins.blkRel = true) (hphase : t.phase = .issued) :
    exec (.writeCompletion port tag sts) s = .next (if sts = 0 then
        if s.mode.safe then s.setTxn port true tag (fun _ => none) else (s.setTxn port true tag (fun _ => none)).written t true
      else ((s.setTxn port true tag (fun _ => none)).send (0x40 + port) 4 t.addr).written t false) := by
  refine congrArg _ ((if_neg (by simp [hclk])).trans ?_)
  rw [htxn]
  refine (if_neg (by simp [hphase, hblk])).trans ?_
  simp only [State.discards, hblk, Bool.not_true, Bool.false_or]

end Write
end Returns

/-- A failed interrupt write sets the partition's INTR_ERR and has no other consequence (R68). -/
theorem State.written_intr (s : State) (t : Txn) (p v : Nat) (h : t.purpose = .intr p v) :
    s.written t false = s.updPart p (fun x => { x with intrErr := true }) := by
  simp [State.written, h]

/-! ### Timeouts -/

/-- The transaction's tag is held and a message of kind 2 goes out (R70). -/
def State.timedOut (s : State) (port tag : Nat) (w : Bool) (t : Txn) : State :=
  (s.setTxn port w tag (fun x => some { x with phase := .held })).send (0x40 + port) 2 t.addr

theorem exec_fabricTimeout (s : State) (port tag : Nat) (w : Bool) (t : Txn) (htxn : s.txn port w tag = some t) (hphase : t.phase = .issued)
    (hmark : t.marked = false) (haon : s.pins.aonRel = true) :
    exec (.fabricTimeout port w tag) s = .next (if s.pins.blkRel = false then s.timedOut port tag w t
      else if w = true then (s.timedOut port tag w t).written t false else (s.timedOut port tag w t).readLost t.purpose) := by
  rw [show exec (.fabricTimeout port w tag) s = execFabricTimeout port w tag s from rfl, execFabricTimeout, htxn]
  refine congrArg _ ((if_neg (by simp [hphase])).trans ?_)
  have htold : ¬ (t.marked = true ∨ s.pins.aonRel = false) := by simp [hmark, haon]
  simp only [Bool.not_eq_true', if_neg htold]
  rfl

/-- Settles O27: a transfer by the split of the list at the command, a return by the transaction of its tag, a timeout by its access. -/
theorem fabricPorts : Obligations.FabricPorts := by
  refine ⟨fun s port n a b t hclk hblk hfab ha hport hphase hn hfree hused =>
      ⟨fun hsafe => ?transferred, exec_fabricCommandTransfer_safe s port⟩,
    fun s port tag idx data sts hclk hblk => ⟨?beats, ?beyond, ?strayRead, ?response, ?held, ?strayWrite⟩,
    fun s port tag w t u htxn hphase hmark haon hu => ?timeout, fun s port tag data sts idx hblk hread hwrite => ?reset⟩
  case transferred =>
    refine exec_fabricCommandTransfer s port _ hclk hblk hsafe ?_
    rw [hfab, State.transfer_append s port a _ ha,
      State.transfer_presented s port n t b hport hphase (s.freeTag_eq port n t.isWrite hn hfree hused), Option.map_some]
  case beats =>
    intro t u htxn hphase hmark hnew hidx hbeats hu
    obtain rfl : u = t.take idx (leBytes 128 data.toNat) := hu
    have hexec := exec_readReturnBeat s port tag sts idx data hclk htxn
    have hmarked : (t.take idx (leBytes 128 data.toNat)).marked = false :=
      (t.take_marked idx _ (by simp only [failMark]; omega)).trans hmark
    refine ⟨fun hsts hfull => ?kept, fun hsts hfull hsafe => ?last, fun hsts hfull hsafe => ?discarded, fun hsts hfull => ?lost⟩
    case kept =>
      rw [hexec, hsts, bne_self_eq_false, s.beat_new port tag idx _ t hblk hphase hidx hnew]
      exact congrArg _ (if_neg (by simp [hfull]))
    case last =>
      rw [hexec, hsts, bne_self_eq_false, s.beat_new port tag idx _ t hblk hphase hidx hnew, if_pos hfull, State.readEnd, hmarked]
      exact congrArg _ ((if_neg Bool.false_ne_true).trans (if_neg (by simp [hsafe])))
    case discarded =>
      rw [hexec, hsts, bne_self_eq_false, s.beat_new port tag idx _ t hblk hphase hidx hnew, if_pos hfull, State.readEnd, hmarked]
      exact congrArg _ ((if_neg Bool.false_ne_true).trans (if_pos hsafe))
    case lost =>
      rw [hexec, bne_iff_ne.mpr hsts,
        s.beat_bad_last port tag idx _ t hblk hphase hidx hnew hmark ((Txn.mark_full_eq (t.take idx _) hbeats).trans hfull)]
  case beyond =>
    intro t htxn hphase hmark hidx hbeats hfull
    rw [exec_readReturnBeat s port tag sts idx data hclk htxn,
      s.beat_beyond port tag idx _ t _ hblk hphase hidx hmark ((t.mark_full_eq hbeats).trans hfull)]
  case strayRead =>
    intro htxn
    rw [exec_readReturnBeat_stray s port tag sts idx data hclk htxn, s.stray_released port hblk]
    rfl
  case response =>
    intro t htxn hphase
    rw [exec_writeCompletion_issued s port tag sts hclk htxn hblk hphase]
    refine ⟨fun hsts hsafe => ?done, fun hsts hsafe => ?discarded, fun hsts p v hintr => ?interrupt, fun hsts => ?failed⟩
    case done => rw [if_pos hsts, if_neg (by simp [hsafe])]
    case discarded => rw [if_pos hsts, if_pos hsafe]
    case interrupt => rw [if_neg hsts, State.written_intr _ t p v hintr]; rfl
    case failed => rw [if_neg hsts]
  case held => exact fun t htxn hphase => exec_writeCompletion_held s port tag sts hclk htxn hphase
  case strayWrite =>
    intro htxn
    rw [exec_writeCompletion_stray s port tag sts hclk htxn, s.stray_released port hblk]
    rfl
  case timeout =>
    subst hu
    rw [exec_fabricTimeout s port tag w t htxn hphase hmark haon]
    refine ⟨fun hblk => ?inReset, fun hblk hw => ?write, fun hblk hw => ?read⟩
    case inReset => exact congrArg _ (if_pos hblk)
    case write => exact congrArg _ ((if_neg (by simp [hblk])).trans (if_pos hw))
    case read => exact congrArg _ ((if_neg (by simp [hblk])).trans (if_neg (by simp [hw])))
  case reset =>
    cases hclk : s.pins.fabClk
    case false => exact ⟨exec_readReturnBeat_stopped s port tag sts idx data hclk, exec_writeCompletion_stopped s port tag sts hclk⟩
    case true =>
      rw [exec_readReturnBeat_stray s port tag sts idx data hclk hread, exec_writeCompletion_stray s port tag sts hclk hwrite,
        s.stray_reset port hblk]
      exact ⟨rfl, rfl⟩

end Sys2Proof.Machine
end

section
/-! PROOF. The register port under REG_PRIV and in reset: every write at the port is one call of `State.portWrite`. -/

namespace Sys2Proof.Machine

/-! ### What the port answers -/

section Port

variable (s : State) (priv : Bool) (off : Nat) (ben : BitVec 4) (n : Bool) (f : State → State) (hclk : s.pins.fabClk = true)
include hclk

/-- A refused access has no effect (R77). -/
theorem State.portWrite_refused (herr : s.portErr priv false off = true) : s.portWrite priv off ben n f = { s with port := ⟨0, true⟩ } := by
  simp [State.portWrite, hclk, herr, State.wrote]

/-- While RST_AON_N is low a write changes nothing but the port's answer (log entry 7). -/
theorem State.portWrite_held (haon : s.pins.aonRel = false) : ∃ e, s.portWrite priv off ben n f = { s with port := ⟨0, e⟩ } ∧
    (s.portErr priv false off = false → fullBen ben = true → e = false) := by
  cases herr : s.portErr priv false off
  case true => exact ⟨true, s.portWrite_refused priv off ben n f hclk herr, nofun⟩
  case false =>
    cases hben : n && !(fullBen ben)
    case true => exact ⟨true, by simp [State.portWrite, hclk, herr, hben, State.wrote], fun _ hfull => by simp [hfull] at hben⟩
    case false => exact ⟨false, by simp [State.portWrite, hclk, herr, hben, haon, State.wrote], fun _ _ => rfl⟩

end Port

/-! ### Which accesses are refused (R76, R77) -/

/-- The global page needs REG_PRIV 1, a read of BLK_ID apart (R76). -/
theorem State.portErr_global (s : State) (isRead : Bool) (off : Nat) (hoff : off < 0x10000) (h : isRead = false ∨ off ≠ 0) :
    s.portErr false isRead off = true := by
  have hread : (isRead && off == 0) = false := by
    rcases h with h | h
    · rw [h, Bool.false_and]
    · rw [beq_eq_false_iff_ne.mpr h, Bool.and_false]
  simp [State.portErr, hoff, hread]

/-- A read of BLK_ID is refused in no mode, with either value of REG_PRIV (R76, R490). -/
theorem State.portErr_blkId (s : State) : s.portErr false true 0 = false := by
  simp [State.portErr, show isAonReg 0 = true by decide, show isSafeReg 0 = true by decide]

/-- A partition page accepts either value of REG_PRIV (R76). -/
theorem State.portErr_page (s : State) (priv isRead : Bool) (off : Nat) (hoff : 0x10000 ≤ off) :
    s.portErr priv isRead off = s.portErr true isRead off := by
  simp [State.portErr, Nat.not_lt.mpr hoff]

/-- An always-on register responds with REG_PRIV 1 outside the forced safe state (R77, R552). -/
theorem State.portErr_aonReg (s : State) (isRead : Bool) (off : Nat) (hoff : off < 0x10000) (hreg : isAonReg off = true)
    (hsafe : s.safePort = false) : s.portErr true isRead off = false := by
  simp [State.portErr, hoff, hreg, hsafe]

/-- The always-on registers lie in the global page (R552). -/
theorem isAonReg_of_page (off : Nat) (hoff : 0x10000 ≤ off) : isAonReg off = false := by
  simp [isAonReg, inRow]
  omega

/-- In reset a partition page does not respond (R77). -/
theorem State.portErr_pageInReset (s : State) (priv isRead : Bool) (off : Nat) (hoff : 0x10000 ≤ off) (hblk : s.pins.blkRel = false) :
    s.portErr priv isRead off = true := by
  simp [State.portErr, State.aonOnly, hblk, isAonReg_of_page off hoff]

/-! ### Every write is one at the port -/

/-- REG_WRITE at a page offset turns on its partition and its offset within the page, whatever REG_PRIV is (R76). -/
theorem exec_regWrite_ofPage (s : State) (priv : Bool) (ben : BitVec 4) (off : Nat) (d : Word) (hlo : 0x10000 ≤ off) (hhi : off < 0x110000) :
    exec (.regWrite priv ben off d) s = s.pageWrite ben (pageOf off) (pageOff off) d :=
  (if_neg (Nat.not_lt.mpr hlo)).trans (if_pos hhi)

/-- The command at a global offset writes at the port, at that offset and under the same REG_PRIV. -/
theorem State.globalWrite_portWrite (s : State) (priv : Bool) (ben : BitVec 4) (off : Nat) (d : Word) :
    ∃ n f, s.globalWrite priv ben off d = .next (s.portWrite priv off ben n f) := by
  unfold State.globalWrite
  dsimp only
  split
  case h_1 =>
    unfold State.writeModeCtl
    dsimp only
    split <;> exact ⟨_, _, rfl⟩
  case h_4 | h_5 | h_8 | h_12 | h_16 | h_18 => split <;> exact ⟨_, _, rfl⟩
  case h_20 =>
    split
    · next hrow =>
      obtain ⟨hbase, hstep, -⟩ := (inRow_eq_true_iff _ _ _ _).1 hrow
      have hat : 0xA40 + 4 * ((off - 0xA40) / 4) = off := by omega
      rw [execTapOwnWrite, hat]
      exact ⟨_, _, rfl⟩
    split
    · next hrow =>
      obtain ⟨hbase, hstep, hcount⟩ := (inRow_eq_true_iff _ _ _ _).1 hrow
      have hat : 0x1040 + 0x80 * ((off - 0x1040) / 0x80 % 8) = off := by omega
      rw [execMbGo, hat]
      exact ⟨_, _, rfl⟩
    · exact ⟨_, _, rfl⟩
  all_goals exact ⟨_, _, rfl⟩

theorem State.queueWrite_portWrite (s : State) (p q off : Nat) (ben : BitVec 4) (needAll : Bool) (g : State → Queue → State) :
    ∃ n f, s.queueWrite p q off ben needAll g = s.portWrite false (pageAt p off) ben n f := by
  unfold State.queueWrite
  split <;> exact ⟨_, _, rfl⟩

theorem execSealDb_portWrite (s : State) (p k : Nat) (ben : BitVec 4) (d : Word) :
    ∃ n f, execSealDb p k ben d s = .next (s.portWrite false (pageAt p (0x1000 + 16 * k)) ben n f) := by
  unfold execSealDb
  dsimp only
  split <;> exact ⟨_, _, rfl⟩

/-- A write of a partition page is one at the port, but for a push window, which does not respond in reset (R75, R77, R144). -/
theorem State.pageWrite_inReset (s : State) (ben : BitVec 4) (p off : Nat) (d : Word) (hclk : s.pins.fabClk = true)
    (haon : s.pins.aonRel = false) (hblk : s.pins.blkRel = false) : ∃ e, s.pageWrite ben p off d = .next { s with port := ⟨0, e⟩ } := by
  have hport : ∀ (r : Result) (a : Nat), (∃ n f, r = .next (s.portWrite false a ben n f)) →
      ∃ e, r = .next { s with port := ⟨0, e⟩ } := by
    rintro _ a ⟨n, f, rfl⟩
    obtain ⟨e, he, -⟩ := s.portWrite_held false a ben n f hclk haon
    exact ⟨e, congrArg _ he⟩
  have hqueue : ∀ q a n g, ∃ e, (.next (s.queueWrite p q a ben n g) : Result) = .next { s with port := ⟨0, e⟩ } := fun q a n g =>
    let ⟨n', f, h⟩ := s.queueWrite_portWrite p q a ben n g
    hport _ _ ⟨n', f, congrArg _ h⟩
  have hpush : ∀ w word, s.pushWrite p w word ben d = { s with port := ⟨0, true⟩ } := fun w word => by
    rw [State.pushWrite, if_neg (by simp [hclk]), if_pos (s.portErr_pageInReset false false _ (by simp only [pageAt]; omega) hblk)]
    rfl
  unfold State.pageWrite
  split
  · exact hqueue _ _ _ _
  split
  · exact hport _ _ ⟨_, _, rfl⟩
  split
  · exact hqueue _ _ _ _
  split
  · exact hqueue _ _ _ _
  split
  · exact hqueue _ _ _ _
  split
  · exact hport _ _ (execSealDb_portWrite s p _ ben d)
  split
  · exact hport _ _ ⟨_, _, rfl⟩
  split
  · exact hport _ _ ⟨_, _, rfl⟩
  split
  · exact hport _ _ ⟨_, _, rfl⟩
  split
  · exact ⟨true, congrArg _ (hpush _ _)⟩
  · exact hport _ _ ⟨_, _, rfl⟩

/-! ### REG_WRITE -/

section Write

variable (s : State) (ben : BitVec 4) (off : Nat) (d : Word) (hclk : s.pins.fabClk = true)

include hclk in
theorem exec_regWrite_unprivileged (hoff : off < 0x10000) : exec (.regWrite false ben off d) s = .next { s with port := ⟨0, true⟩ } := by
  obtain ⟨n, f, h⟩ := s.globalWrite_portWrite false ben off d
  rw [exec_regWrite_global s false ben off d hoff, h, s.portWrite_refused false off ben n f hclk (s.portErr_global false off hoff (.inl rfl))]

include hclk in
/-- While both resets are low a write changes the port's answer alone (R77; log entry 7). -/
theorem exec_regWrite_inReset (priv : Bool) (haon : s.pins.aonRel = false) (hblk : s.pins.blkRel = false) :
    ∃ e, exec (.regWrite priv ben off d) s = .next { s with port := ⟨0, e⟩ } ∧
      (off < 0x10000 → s.portErr priv false off = false → fullBen ben = true → e = false) := by
  rcases Nat.lt_or_ge off 0x10000 with hglob | hpage
  · obtain ⟨n, f, h⟩ := s.globalWrite_portWrite priv ben off d
    obtain ⟨e, he, hfalse⟩ := s.portWrite_held priv off ben n f hclk haon
    exact ⟨e, by rw [exec_regWrite_global s priv ben off d hglob, h, he], fun _ => hfalse⟩
  · have hlocal : ∃ e, exec (.regWrite priv ben off d) s = .next { s with port := ⟨0, e⟩ } := by
      rcases Nat.lt_or_ge off 0x110000 with hlt | hbeyond
      · obtain ⟨e, he⟩ := s.pageWrite_inReset ben (pageOf off) (pageOff off) d hclk haon hblk
        exact ⟨e, (exec_regWrite_ofPage s priv ben off d hpage hlt).trans he⟩
      · obtain ⟨e, he, -⟩ := s.portWrite_held priv off ben false (fun t => t) hclk haon
        exact ⟨e, by rw [exec_regWrite_beyond s priv ben off d hbeyond, he]⟩
    obtain ⟨e, he⟩ := hlocal
    exact ⟨e, he, fun hglob => absurd hglob (Nat.not_lt.mpr hpage)⟩

end Write

/-- Settles O28: an access by whether the port refuses it, a write in reset by its one call of the port. -/
theorem globalPageNeedsPriv : Obligations.GlobalPageNeedsPriv := by
  intro s off ben data hclk
  refine ⟨exec_regWrite_unprivileged s ben off data hclk, fun hoff hne => ?read, fun last => ⟨?sealTime, ?persist⟩, ?blkId,
    fun haon hblk p => ?inReset, fun p hlo hhi => ⟨?pageWrite, ?pageRead⟩⟩
  case read => exact if_pos (s.portErr_global true off hoff (.inr hne))
  case sealTime =>
    exact congrArg _ ((if_neg (by simp [hclk])).trans (if_pos (s.portErr_global true 0xA00 (by decide) (.inr (by decide)))))
  case persist =>
    refine congrArg _ ((if_neg (by simp [hclk])).trans (if_pos ?_))
    cases last
    · exact s.portErr_global true 0xD10 (by decide) (.inr (by decide))
    · exact s.portErr_global true 0xD28 (by decide) (.inr (by decide))
  case blkId => exact if_neg (by simp [s.portErr_blkId])
  case inReset =>
    obtain ⟨e, he, hfalse⟩ := exec_regWrite_inReset s ben off data hclk p haon hblk
    refine ⟨e, he, fun hp hben hoff hreg hsafe => hfalse hoff ?_ (by rw [hben]; rfl)⟩
    rw [hp]
    exact s.portErr_aonReg false off hoff hreg hsafe
  case pageWrite => rw [exec_regWrite_ofPage s p ben off data hlo hhi, exec_regWrite_ofPage s true ben off data hlo hhi]
  case pageRead => rw [State.regRead, s.portErr_page p true off hlo, State.regRead]

end Sys2Proof.Machine
end

section
/-! PROOF. Mode control (spec/03 R92 to R112): what a write of MODE_CTL does in each mode, how a drain ends, and what a unit-stage test and
the first lane of a wake lead to; the statements O17 to O19 and O22 of spec/00_scope.md. -/

namespace Sys2Proof.Machine

/-! ### A write of MODE_CTL (R92, R95) -/

/-- The command that writes a TARGET value. -/
def targetInstr (p : Bool) (ben : BitVec 4) (ie : Bool) : Target → Instr
  | .service => .targetService p ben ie
  | .dormant => .targetDormant p ben ie
  | .drain => .targetDrain p ben ie
  | .maintenance => .targetMaintenance p ben ie
  | .follower => .targetFollower p ben ie

theorem exec_targetInstr (p : Bool) (ben : BitVec 4) (ie : Bool) (g : Target) (s : State) :
    exec (targetInstr p ben ie g) s = .next (s.modeWrite p ben ie (fun t => t.aim g)) := by
  cases g <;> rfl

/-- CHG_IE takes its written value. -/
def State.setChgIe (s : State) (ie : Bool) : State := { s with mode := { s.mode with chgIe := ie } }

section ModeWrite

variable (s : State) (p ie : Bool) (ben : BitVec 4) (hclk : s.pins.fabClk = true) (haon : s.pins.aonRel = true)
  (hport : s.portErr p false 0x100 = false) (hben : ben.getLsbD 0 = true)
include hclk haon hport hben

theorem State.modeWrite_served (f : State → State) (hmode : s.mode.mode ≠ .inReset) :
    s.modeWrite p ben ie f = { f (s.setChgIe ie) with port := ⟨0, false⟩ } := by
  rw [State.modeWrite, s.portWrite_served p 0x100 ben false _ hclk hport (.inl rfl) haon, if_neg (by simp [hben]), if_neg hmode]
  rfl

theorem State.modeWrite_inReset (f : State → State) (hmode : s.mode.mode = .inReset) :
    s.modeWrite p ben ie f = { s.setChgIe ie with port := ⟨0, false⟩ } := by
  rw [State.modeWrite, s.portWrite_served p 0x100 ben false _ hclk hport (.inl rfl) haon, if_neg (by simp [hben]), if_pos hmode]
  rfl

theorem exec_targetInstr_served (g : Target) (hmode : s.mode.mode ≠ .inReset) :
    exec (targetInstr p ben ie g) s = .next { (s.setChgIe ie).aim g with port := ⟨0, false⟩ } := by
  rw [exec_targetInstr, s.modeWrite_served p ie ben hclk haon hport hben _ hmode]

end ModeWrite

/-! ### TARGET by the mode in which it is written (R94, R95) -/

theorem State.aim_of_starting (s : State) (g : Target) (h : s.mode.mode = .waking ∨ s.mode.mode = .attest) : s.aim g = s.setTarget g := by
  rcases h with h | h <;> simp only [State.aim, h]

theorem State.setMode_other (s : State) (m : Mode) (h : s.mode.mode ≠ m) :
    s.setMode m = { s with mode := { s.mode with mode := m, chg := true } } := if_neg h

theorem State.startDrain_eq (s : State) (h : s.mode.mode ≠ .drain) :
    s.startDrain = { s with mode := { s.mode with mode := .drain, chg := true, drainStart := s.now, drainForced := false } } := by
  rw [State.startDrain, s.setMode_other .drain h]

/-- SERVICE is left through DRAIN for DRAIN, DORMANT and FOLLOWER (R94). -/
theorem State.aim_service_drains (s : State) (g : Target) (h : s.mode.mode = .service) (hg : g = .dormant ∨ g = .drain ∨ g = .follower) :
    s.aim g = { s with
      mode := { s.mode with mode := .drain, chg := true, target := g, drainStart := s.now, drainForced := false } } := by
  have hdrain := (s.setTarget g).startDrain_eq (show s.mode.mode ≠ .drain by simp [h])
  rcases hg with rfl | rfl | rfl <;> simp only [State.aim, h] <;> exact hdrain

theorem State.aim_service_maintenance (s : State) (h : s.mode.mode = .service) :
    s.aim .maintenance = { s with mode := { s.mode with mode := .maintenance, chg := true, target := .maintenance } } := by
  simp only [State.aim, h]
  exact (s.setTarget .maintenance).setMode_other .maintenance (show s.mode.mode ≠ .maintenance by simp [h])

/-- MAINTENANCE without an activity under way ends at once for SERVICE (R94, R96). -/
theorem State.tryLeave_service (s : State) (h : s.mode.mode = .maintenance) (hg : s.mode.target = .service) (hbusy : s.maintBusy = false) :
    s.tryLeave = s.endMaintenance.setMode .service := by
  rw [State.tryLeave, if_neg (by simp [h, State.leaving, hg, hbusy]), if_pos hg]

theorem State.aim_maintenance_service (s : State) (h : s.mode.mode = .maintenance) (hbusy : s.maintBusy = false) :
    s.aim .service = { s.endMaintenance with mode := { s.mode with mode := .service, chg := true, target := .service } } := by
  simp only [State.aim, h]
  rw [(s.setTarget .service).tryLeave_service h rfl hbusy]
  exact (s.setTarget .service).endMaintenance.setMode_other .service (show s.mode.mode ≠ .service by simp [h])

/-- DORMANT with CORE_PWR_GOOD high wakes for every other TARGET (R51, R95). -/
theorem State.aim_dormant_wakes (s : State) (g : Target) (h : s.mode.mode = .dormant) (hg : g ≠ .dormant) (hpwr : s.pins.corePwrGood = true) :
    s.aim g = (s.setTarget g).wake := by
  simp only [State.aim, h]
  exact if_pos ⟨h, hg, hpwr⟩

/-- FOLLOWER refuses DRAIN and MAINTENANCE (R95). -/
theorem State.aim_follower_refuses (s : State) (g : Target) (h : s.mode.mode = .follower) (hg : g = .drain ∨ g = .maintenance) :
    s.aim g = s.badReq := by
  rcases hg with rfl | rfl <;> simp only [State.aim, h]

/-- Settles O17: the write sets CHG_IE and takes TARGET by the mode of the moment. -/
theorem targetWrites : Obligations.TargetWrites := by
  intro s p ie ben hclk haon hport hben
  have hexec := exec_targetInstr_served s p ie ben hclk haon hport hben
  refine ⟨fun hmode => ?starting, fun hmode => ?drains, fun hmode => ?maintains, fun hmode hbusy => ?leaves, fun hmode hpwr c g hc => ?wakes,
    fun hmode c hc => ?refuses⟩
  case starting =>
    have hrec : ∀ g, exec (targetInstr p ben ie g) s =
        .next { s with mode := { s.mode with target := g, chgIe := ie }, port := ⟨0, false⟩ } := fun g => by
      rw [hexec g (by rcases hmode with h | h <;> simp [h]), (s.setChgIe ie).aim_of_starting g hmode]
      rfl
    exact ⟨hrec .service, hrec .dormant, hrec .drain, hrec .maintenance, hrec .follower⟩
  case drains =>
    have hdrain : ∀ g, g = .dormant ∨ g = .drain ∨ g = .follower → exec (targetInstr p ben ie g) s = .next { s with
        mode := { s.mode with mode := .drain, chg := true, target := g, chgIe := ie, drainStart := s.now, drainForced := false }
        port := ⟨0, false⟩ } := fun g hg => by
      rw [hexec g (by simp [hmode]), (s.setChgIe ie).aim_service_drains g hmode hg]
      rfl
    exact ⟨hdrain .dormant (.inl rfl), hdrain .drain (.inr (.inl rfl)), hdrain .follower (.inr (.inr rfl))⟩
  case maintains =>
    refine (hexec .maintenance (by simp [hmode])).trans ?_
    rw [(s.setChgIe ie).aim_service_maintenance hmode]
    rfl
  case leaves =>
    refine ⟨_, hexec .service (by simp [hmode]), ?_⟩
    rw [(s.setChgIe ie).aim_maintenance_service hmode hbusy]
    exact ⟨rfl, rfl, rfl⟩
  case wakes =>
    obtain ⟨rfl, hg⟩ : c = targetInstr p ben ie g ∧ g ≠ .dormant := by
      simp only [List.mem_cons, Prod.mk.injEq, List.not_mem_nil, or_false] at hc
      rcases hc with ⟨rfl, rfl⟩ | ⟨rfl, rfl⟩ | ⟨rfl, rfl⟩ | ⟨rfl, rfl⟩ <;> exact ⟨rfl, nofun⟩
    refine ⟨_, hexec g (by simp [hmode]), ?_⟩
    rw [(s.setChgIe ie).aim_dormant_wakes g hmode hg hpwr, ((s.setChgIe ie).setTarget g).wake_eq hmode]
    exact ⟨rfl, rfl, rfl, rfl, rfl, rfl⟩
  case refuses =>
    have hbad : ∀ g, g = .drain ∨ g = .maintenance → exec (targetInstr p ben ie g) s =
        .next { s with mode := { s.mode with badReq := true, chgIe := ie }, port := ⟨0, false⟩ } := fun g hg => by
      rw [hexec g (by simp [hmode]), (s.setChgIe ie).aim_follower_refuses g hmode hg]
      rfl
    simp only [List.mem_cons, List.not_mem_nil, or_false] at hc
    rcases hc with rfl | rfl
    · exact hbad .drain (.inl rfl)
    · exact hbad .maintenance (.inr rfl)

/-- Settles O18: every TARGET command is one write of MODE_CTL, which in reset takes CHG_IE alone. -/
theorem reservedTargetRefused : Obligations.ReservedTargetRefused := by
  intro s p ie ben hclk haon hport hben
  refine ⟨fun hmode => ?refused, fun hmode c hc => ?inReset⟩
  case refused => exact congrArg _ (s.modeWrite_served p ie ben hclk haon hport hben State.badReq hmode)
  case inReset =>
    obtain ⟨f, hf⟩ : ∃ f, exec c s = .next (s.modeWrite p ben ie f) := by
      simp only [List.mem_cons, List.not_mem_nil, or_false] at hc
      rcases hc with rfl | rfl | rfl | rfl | rfl | rfl <;> exact ⟨_, rfl⟩
    rw [hf, s.modeWrite_inReset p ie ben hclk haon hport hben f hmode]
    rfl

/-! ### The drain (R97, R101 to R104) -/

theorem State.draining_iff (s : State) :
    s.draining = true ↔ s.mode.mode = .drain ∧ (s.mode.target = .dormant ∨ s.mode.target = .follower) := by
  simp [State.draining]

theorem exec_drainComplete_drained (s : State) (hdraining : s.draining = true) (hdrained : s.drained = true) :
    exec .drainComplete s = .next (if s.mode.target = .dormant then s.sleep else s.enterFollower) :=
  congrArg _ (if_pos ⟨hdraining, hdrained⟩)

/-- In DORMANT what lies outside the always-on island is in reset, and the image is kept (R104, R106). -/
theorem State.sleep_core (s : State) : s.sleep.pins.coreIso = true ∧ s.sleep.mode.fllOn = false ∧ s.sleep.retained ≠ none ∧
    s.sleep.parts = [] ∧ s.sleep.reqs = [] ∧ s.sleep.seals = Seal.reset ∧ s.sleep.regsBlk = [] ∧ ∀ u ∈ s.sleep.units, u.2 = UnitSt.reset :=
  ⟨rfl, rfl, nofun, rfl, rfl, rfl, rfl, Store.forall_mapAll _ (fun _ _ => UnitSt.reset) (· = UnitSt.reset) fun _ _ => rfl⟩

/-- With no request and no image under way the limit cuts the chains alone (R102). -/
theorem State.drainExpire_of_no_work (s : State) (hreqs : s.reqs = []) (hout : s.persist.out = none) : s.drainExpire = { s with
    mode := { s.mode with drainExp := true, drainForced := true }
    parts := Store.mapAll s.parts (fun _ y => { y with queues := Store.mapAll y.queues (fun _ q => q.cutChain) }) } := by
  simp [State.drainExpire, hreqs, hout]

theorem exec_drainTmoExpiry_reached (s : State) (hdraining : s.draining = true) (hforced : s.mode.drainForced = false)
    (hlimit : s.aon 0x10C % 2 ^ 24 ≠ 0) : exec .drainTmoExpiry s = .next s.drainExpire :=
  congrArg _ (if_pos ⟨hdraining, by simp [hforced], hlimit⟩)

/-- The write sets DRAIN_TMO; where no drain has a limit it does nothing else (R97). -/
theorem exec_drainTmoWrite_not_draining (s : State) (p : Bool) (ben : BitVec 4) (d : Word) (hclk : s.pins.fabClk = true)
    (haon : s.pins.aonRel = true) (hport : s.portErr p false 0x10C = false) (h : s.draining = false) :
    exec (.drainTmoWrite p ben d) s = .next { s.rwAon 0x10C ben d with port := ⟨0, false⟩ } := by
  change execDrainTmoWrite p ben d s = _
  have hrow := s.rwAon_of_row 0x10C ben d ⟨0x10C, 0xFFFFFF, 20000⟩ rfl
  have hstill : ¬ (s.rwAon 0x10C ben d).draining = true := by
    rw [hrow]
    exact Bool.not_eq_true _ ▸ h
  rw [execDrainTmoWrite, s.portWrite_served p 0x10C ben false _ hclk hport (.inl rfl) haon, if_neg (fun hall => hstill hall.1)]

/-- Settles O19: the drain by its target, the limit by what it finds under way. -/
theorem drainAndItsLimit : Obligations.DrainAndItsLimit := by
  intro s hmode
  refine ⟨fun htarget hdrained => ?dormant, fun htarget hdrained => ?follower, fun htarget hforced hlimit hreqs hout => ?expiry,
    fun p ben d hclk haon hport htarget => ?write⟩
  case dormant =>
    refine ⟨?_, s.sleep_core⟩
    rw [exec_drainComplete_drained s (s.draining_iff.2 ⟨hmode, .inl htarget⟩) hdrained, if_pos htarget]
  case follower =>
    rw [exec_drainComplete_drained s (s.draining_iff.2 ⟨hmode, .inr htarget⟩) hdrained, if_neg (by simp [htarget])]
  case expiry =>
    rw [exec_drainTmoExpiry_reached s (s.draining_iff.2 ⟨hmode, htarget⟩) hforced hlimit, s.drainExpire_of_no_work hreqs hout]
  case write =>
    rw [exec_drainTmoWrite_not_draining s p ben d hclk haon hport (by simp [State.draining, htarget]),
      s.rwAon_of_row 0x10C ben d ⟨0x10C, 0xFFFFFF, 20000⟩ rfl]
    rfl

/-! ### Unit-stage tests and the end of a wake (R94, R107, R110, R111) -/

/-- A unit whose state is not that of reset is built. -/
theorem State.find_unit_isSome (s : State) (n : Nat) (h : s.unit n ≠ UnitSt.reset) : (Store.find s.units n).isSome = true := by
  rw [State.unit] at h
  cases hfind : Store.find s.units n with
  | none => simp [hfind] at h
  | some x => rfl

/-- The unit's stage test has ended: a unit that passed is gated in service, one that failed is fenced and reported (R110). -/
def State.unitTested (s : State) (n : Nat) (pass : Bool) : State :=
  if pass then s.updUnit n (fun u => { u with passed := true, work := .idle, power := .gated, charge := none })
  else (s.updUnit n (fun u => { u.eraseKey with fltFence := true, work := .idle, power := .gated, charge := none })).send n 5 3

theorem State.unitTested_mode (s : State) (n : Nat) (pass : Bool) : (s.unitTested n pass).mode = s.mode := by
  cases pass <;> rfl

theorem State.unitTested_tested_other (s : State) (n m : Nat) (pass : Bool) (hne : m ≠ n) (h : (s.unit m).tested = false) :
    ((s.unitTested n pass).unit m).tested = false := by
  cases pass <;> exact unit_tested_of_other s n m _ hne h

/-- The served mode begins outside the forced safe state (R94). -/
def State.beginServed (s : State) : State := { s with mode := { s.mode with served := true, phase := .none, safe := false } }

theorem State.enterServed_standby (s : State) (h : s.pair.ident.standby = true) (hmode : s.mode.mode ≠ .follower) : s.enterServed = { s with
    mode := { s.mode with mode := .follower, chg := true, served := true, phase := .none, safe := false } } :=
  (if_pos h).trans (s.beginServed.setMode_other .follower hmode)

theorem State.enterServed_active (s : State) (h : s.pair.ident.standby = false) (hmode : s.mode.mode ≠ .service) : s.enterServed = ({ s with
    mode := { s.mode with mode := .service, chg := true, served := true, phase := .none, safe := false } } : State).resumeSeals.resumeQueues :=
  (if_neg (by simp [h])).trans (congrArg (fun t => t.resumeSeals.resumeQueues) (s.beginServed.setMode_other .service hmode))

theorem State.pursue_follower_service (s : State) (hmode : s.mode.mode = .follower) (htarget : s.mode.target = .service) : s.pursue = s := by
  simp only [State.pursue, hmode, htarget]

/-- The lane that passed begins the served mode, which under a standby identity is FOLLOWER (R94, R111). -/
theorem State.tryServe_standby (s : State) (n : Nat) (hmode : s.mode.mode = .attest) (hphase : s.mode.phase = .a2Done) (hn : n < 24)
    (hpass : (s.unit n).passed = true) (hstandby : s.pair.ident.standby = true) (htarget : s.mode.target = .service) : s.tryServe = { s with
    mode := { s.mode with mode := .follower, chg := true, served := true, phase := .none, safe := false } } :=
  calc s.tryServe = s.enterServed.pursue := if_pos ⟨hmode, hphase, List.any_eq_true.2 ⟨n, List.mem_range.2 hn, hpass⟩⟩
    _ = _ := (congrArg State.pursue (s.enterServed_standby hstandby (by simp [hmode]))).trans (State.pursue_follower_service _ rfl htarget)

section StageTest

variable (s : State) (n m : Nat) (hn : n ∈ stageUnits s.mode.stage) (hstage : s.mode.stage < 8) (hm : m ∈ stageUnits s.mode.stage)
  (hwork : (s.unit n).work = .stageTest) (hpower : (s.unit n).power = .awake) (hfence : (s.unit n).fltFence = false)
include hn hstage hm hwork hpower hfence

/-- A test whose stage another unit has still to pass leaves the stage as it is (R111). -/
theorem exec_unitStageTestDone_staged (pass : Bool) (hkeep : (s.unitTested n pass).tryServe.mode.stage = s.mode.stage)
    (hleft : ((s.unitTested n pass).tryServe.unit m).tested = false) :
    exec (.unitStageTestDone n pass) s = .next (s.unitTested n pass).tryServe := by
  change execUnitStageTestDone n pass s = _
  have hall : ¬ ((stageUnits (s.unitTested n pass).tryServe.mode.stage).all
      (fun u => ((s.unitTested n pass).tryServe.unit u).tested) = true) := by
    rw [hkeep, List.all_eq_true]
    exact fun h => by simpa [hleft] using h m hm
  rw [execUnitStageTestDone, if_neg (by simp [hn, hstage, hwork, hpower])]
  simp only [hfence, Bool.false_eq_true, if_false]
  exact congrArg _ (if_neg hall)

theorem exec_unitStageTestDone_not_attest (pass : Bool) (hmode : s.mode.mode ≠ .attest) (hne : m ≠ n)
    (huntested : (s.unit m).tested = false) : exec (.unitStageTestDone n pass) s = .next (s.unitTested n pass) := by
  have hserve : (s.unitTested n pass).tryServe = s.unitTested n pass :=
    State.tryServe_of_not_attest _ (by rw [State.unitTested_mode]; exact hmode)
  rw [exec_unitStageTestDone_staged s n m hn hstage hm hwork hpower hfence pass (by rw [hserve, State.unitTested_mode])
    (by rw [hserve]; exact s.unitTested_tested_other n m pass hne huntested), hserve]

end StageTest

/-- The lane that ends a warm wake leaves the unit stages to the units not yet tested (R107, R111). -/
theorem exec_wakeLaneReady_awake (s : State) (n : Nat) (hmode : s.mode.mode = .waking) (hlock : s.mode.fllLock = true) (hn : n < 24)
    (hpower : (s.unit n).power = .awake) (hpass : (s.unit n).passed = true) :
    exec .wakeLaneReady s = .next ((s.enterServed.stageStart 9).pursue) :=
  congrArg _ (if_pos ⟨hmode, hlock, List.any_eq_true.2 ⟨n, List.mem_range.2 hn, by simp [hpower, hpass]⟩⟩)

/-- Settles O22: the test by its outcome and by whether it begins the served mode, the wake by its first lane. -/
theorem unitStageTestsAndWakeEnd : Obligations.UnitStageTestsAndWakeEnd := by
  refine ⟨fun s n m hn hstage hm hne huntested hwork hpower hfence => ⟨fun hmode => ?passes, fun hmode => ?fails,
    fun hmode hphase hlane hstandby htarget => ?attest⟩, fun s n hmode hlock hn hpower hpass => ⟨?wake, fun h => ?standby, fun h => ?active⟩⟩
  case passes => exact exec_unitStageTestDone_not_attest s n m hn hstage hm hwork hpower hfence true hmode hne huntested
  case fails => exact exec_unitStageTestDone_not_attest s n m hn hstage hm hwork hpower hfence false hmode hne huntested
  case attest =>
    have hbuilt := s.find_unit_isSome n (fun h => by simp [h, UnitSt.reset] at hwork)
    have hpassed : ((s.unitTested n true).unit n).passed = true := by
      rw [State.unitTested, if_pos rfl, s.unit_updUnit n _ hbuilt]
    have hserve := (s.unitTested n true).tryServe_standby n hmode hphase hlane hpassed hstandby htarget
    refine ⟨_, exec_unitStageTestDone_staged s n m hn hstage hm hwork hpower hfence true (by rw [hserve]; rfl) ?_, ?_⟩
    · rw [hserve]
      exact s.unitTested_tested_other n m true hne huntested
    · rw [hserve]
      exact ⟨rfl, rfl, rfl, hpassed⟩
  case wake => exact exec_wakeLaneReady_awake s n hmode hlock hn hpower hpass
  case standby => exact s.enterServed_standby h (by simp [hmode])
  case active => exact s.enterServed_active h (by simp [hmode])

end Sys2Proof.Machine
end

section
/-! PROOF. The power governor (spec/03 R112 to R122): what the lone grant of a stage test does, when grants time out and units are gated or
woken, and what a write of GOV_BUDGET takes; the statements O23 and O24 of spec/00_scope.md. -/

namespace Sys2Proof.Machine

/-! ### The lone grant of a stage test (R112, R117, R119) -/

/-- PWR_REQ rises for a grant that waits, so not where none does (R121). -/
theorem State.negotiate_of_no_grant (s : State) (h : s.gov.grants = []) : s.negotiate = s := by
  unfold State.negotiate
  split
  · rfl
  · exact if_neg (by simp [h])

/-- The grant of the stage test of one unit, which no partition is charged for (R119). -/
structure Grant.TestsUnit (g : Grant) (u : Nat) : Prop where
  what : g.what = .stageTest
  units : g.units = [u]
  part : g.part = none

section LoneGrant

variable (s : State) (g : Grant) (u : Nat) (hlone : s.gov.grants = [g]) (htests : g.TestsUnit u)

include htests in
theorem State.refit_stageTest (hidle : (s.unit u).work = .idle) : s.refit g = some g := by
  simp [State.refit, htests.what, htests.units, hidle]

include htests in
theorem State.grantAdd_stageTest : s.grantAdd g = s.addMw [u] := by
  simp [State.grantAdd, Grant.isBind, htests.what, htests.units]

include htests in
theorem State.grantShare_stageTest (budget : Nat) : s.grantShare budget g = true := by
  simp [State.grantShare, htests.part]

include hlone htests in
/-- Its unit is clock-enabled for the test (R116). -/
theorem State.issue_stageTest : s.issue g = { s with
    gov := { s.gov with grants := [] }
    units := Store.upd s.units u (fun x => { x with
      power := if x.power = .gated then .waking else x.power, work := .stageTest, charge := none }) } := by
  simp [State.issue, htests.what, htests.units, hlone, State.enable, State.updUnit]

include hlone htests in
theorem State.tryGrant_stageTest (hidle : (s.unit u).work = .idle) (hpower : s.usedMw + s.addMw [u] ≤ s.effBudget)
    (hroom : s.stageRoom = true) : s.tryGrant true g = some (s.issue g) := by
  have hhead : s.grantHead g = true := by simp [State.grantHead, hlone, htests.what]
  have hok : s.powerOk s.effBudget (s.grantAdd g) = true := by
    rw [s.grantAdd_stageTest g u htests]
    exact decide_eq_true hpower
  have hgate : s.gateOn g = s := if_pos hok
  have hgrant : s.grantOk s.effBudget g = true := by
    simp [State.grantOk, hok, s.grantShare_stageTest g u htests, hroom]
  simp [State.tryGrant, hhead, s.refit_stageTest g u htests hidle, s.grantShare_stageTest g u htests, hgate, hgrant]

include hlone htests in
theorem State.serveGrant_stageTest (hidle : (s.unit u).work = .idle) (hpower : s.usedMw + s.addMw [u] ≤ s.effBudget)
    (hroom : s.stageRoom = true) : s.serveGrant = s.issue g := by
  have horder : s.grantOrder = [g] := by simp [State.grantOrder, hlone]
  have hissued : (s.issue g).gov.grants = [] := by rw [s.issue_stageTest g u hlone htests]
  simp only [State.serveGrant, horder, List.findSome?_cons, s.tryGrant_stageTest g u hlone htests hidle hpower hroom]
  exact (s.issue g).negotiate_of_no_grant hissued

end LoneGrant

/-! ### Timeouts and clocks (R116, R118, R120) -/

/-- The grant of a request, and that of a BIND_TAP, times out while GOV_CFG.TMO_US is not 0 (R120). -/
theorem exec_grantTimeoutExpiry_due (s : State) (g : Grant) (rid : Nat) (hfind : s.gov.grants.find? (fun x => x.gid == g.gid) = some g)
    (htmo : s.aon 0x204 % 0x400 ≠ 0) :
    (g.what = .req rid → exec (.grantTimeoutExpiry g.gid) s = .next (s.grantTmo.endReq rid St.grantTimeout 0)) ∧
    (g.what = .bind rid → exec (.grantTimeoutExpiry g.gid) s = .next ((s.grantTmo.dropBind rid).reject rid St.grantTimeout 0)) := by
  change (_ → execGrantTimeoutExpiry g.gid s = _) ∧ (_ → execGrantTimeoutExpiry g.gid s = _)
  constructor <;> intro hwhat <;> simp [execGrantTimeoutExpiry, hfind, htmo, Grant.endless, hwhat]

theorem exec_idleGateExpiry_idle (s : State) (u : Nat) (hidle : bitsAt (s.aon 0x204) 16 8 ≠ 0) (hpower : (s.unit u).power = .awake)
    (hwork : (s.unit u).work = .idle) (hkind : kindOf u ≠ none) : exec (.idleGateExpiry u) s = .next (s.updUnit u UnitSt.gate) :=
  congrArg _ (if_pos ⟨hidle, hpower, hwork, Option.isSome_iff_ne_none.2 hkind⟩)

theorem exec_unitWakeReady_ready (s : State) (u : Nat) (hpower : (s.unit u).power = .waking) (hnext : s.nextToWake u = true) :
    exec (.unitWakeReady u) s = .next (s.unitReady u) := congrArg _ (if_pos ⟨hpower, hnext⟩)

/-- The unit's clock is ready. -/
def State.awaken (s : State) (u : Nat) : State := s.updUnit u (fun x => { x with power := .awake })

theorem State.awaken_power (s : State) (u : Nat) (h : (s.unit u).power = .waking) : ((s.awaken u).unit u).power = .awake := by
  rw [State.awaken, s.unit_updUnit u _ (s.find_unit_isSome u (fun hreset => by simp [hreset, UnitSt.reset] at h))]

/-- A test waits for nothing but its own unit (R116). -/
theorem exec_unitWakeReady_test (s : State) (u : Nat) (hpower : (s.unit u).power = .waking)
    (hwork : (s.unit u).work = .stageTest ∨ (s.unit u).work = .unitTest) : exec (.unitWakeReady u) s = .next (s.awaken u) := by
  have hnext : s.nextToWake u = true := by rcases hwork with h | h <;> simp only [State.nextToWake, h]
  rw [exec_unitWakeReady_ready s u hpower hnext]
  rcases hwork with h | h <;> simp only [State.unitReady, h] <;> rfl

/-- A request on one unit goes on once that unit is ready (R116). -/
theorem exec_unitWakeReady_req (s : State) (u rid : Nat) (r : Req) (hpower : (s.unit u).power = .waking) (hwork : (s.unit u).work = .req rid)
    (hreq : s.req rid = some r) (hphase : r.phase = .waking) (hunits : r.units = [u]) :
    exec (.unitWakeReady u) s = .next ((s.awaken u).dispatch rid) := by
  have hnext : s.nextToWake u = true := by simp [State.nextToWake, hwork, hreq, hunits]
  have hready : ((s.awaken u).req rid).elim false
      (fun r => r.phase == .waking && r.units.all (fun x => ((s.awaken u).unit x).power == .awake)) = true := by
    rw [show (s.awaken u).req rid = some r from hreq]
    simp [hphase, hunits, s.awaken_power u hpower]
  rw [exec_unitWakeReady_ready s u hpower hnext]
  simp only [State.unitReady, hwork]
  exact congrArg _ (if_pos hready)

/-- Settles O23: the lone grant is served, a grant times out by what it is for, and a unit by its clock and its work. -/
theorem grantsAndUnitClocks : Obligations.GrantsAndUnitClocks := by
  refine ⟨fun s g u => ⟨fun hsafe hlone hwhat hunits hpart hidle hpower hroom => ?issues, fun hsafe => congrArg _ (if_pos hsafe)⟩,
    exec_grantTimeoutExpiry_due,
    fun s u => ⟨exec_idleGateExpiry_idle s u, fun hidle => ?ungated, exec_unitWakeReady_test s u, fun rid r => exec_unitWakeReady_req s u rid r⟩⟩
  case issues =>
    have htests : g.TestsUnit u := ⟨hwhat, hunits, hpart⟩
    rw [← s.issue_stageTest g u hlone htests, ← s.serveGrant_stageTest g u hlone htests hidle hpower hroom]
    exact congrArg _ (if_neg (by simp [hsafe]))
  case ungated => exact congrArg _ (if_neg (fun h => h.1 hidle))

/-! ### GOV_BUDGET (R122) -/

/-- The value that a write of GOV_BUDGET.MW asks for. -/
def State.askedMw (s : State) (ben : BitVec 4) (d : Word) : Nat := (mergeWord (wordOf (s.aon 0x200)) 0xFFFF ben d).toNat

theorem exec_govBudgetWrite_served (s : State) (p : Bool) (ben : BitVec 4) (d : Word) (hclk : s.pins.fabClk = true)
    (haon : s.pins.aonRel = true) (hport : s.portErr p false 0x200 = false) :
    exec (.govBudgetWrite p ben d) s = .next { s.setBudget (s.askedMw ben d) with port := ⟨0, false⟩ } :=
  congrArg _ (s.portWrite_served p 0x200 ben false _ hclk hport (.inl rfl) haon)

theorem State.setBudget_refused (s : State) (mw : Nat) (h : mw < 1000 ∨ mw < 400 + s.shares) :
    s.setBudget mw = { s with gov := { s.gov with budgetRej := true } } := if_pos h

theorem State.aon_setAon (s : State) (off : Nat) (w : Word) : (s.setAon off w).aon off = w.toNat := by
  simp only [State.aon, State.setAon, RegFile.get_set_self]

/-- A new budget gates units that no longer fit and may start a negotiation (R118, R121). -/
theorem State.gateFor_negotiate_eq (s : State) (budget : Nat) : ∃ units pwrReq,
    (s.gateFor budget [] 48).negotiate = { s with units := units, pins := { s.pins with pwrReq := pwrReq } } := by
  obtain ⟨units, hgate⟩ := s.gateFor_units budget [] 48
  obtain ⟨pwrReq, hneg⟩ := State.negotiate_pwrReq { s with units := units }
  exact ⟨units, pwrReq, by rw [hgate, hneg]⟩

theorem State.setBudget_taken (s : State) (mw : Nat) (hlow : 1000 ≤ mw) (hshares : 400 + s.shares ≤ mw) : ∃ units pwrReq,
    s.setBudget mw = { s.setAon 0x200 (wordOf (min mw 20000)) with units := units, pins := { s.pins with pwrReq := pwrReq } } := by
  rw [State.setBudget, if_neg (by omega)]
  exact State.gateFor_negotiate_eq _ _

/-- Settles O24: the bound of R122 decides whether the value is taken. -/
theorem budgetWrite : Obligations.BudgetWrite := by
  intro s p d hclk haon hport
  refine ⟨fun ben hlow => ?refused, fun ben hlow hshares => ?taken⟩
  case refused => rw [exec_govBudgetWrite_served s p ben d hclk haon hport, s.setBudget_refused (s.askedMw ben d) hlow]
  case taken =>
    obtain ⟨units, pwrReq, hset⟩ := s.setBudget_taken (s.askedMw ben d) hlow hshares
    refine ⟨_, exec_govBudgetWrite_served s p ben d hclk haon hport, ?_⟩
    rw [hset]
    refine ⟨(s.aon_setAon 0x200 (wordOf (min (s.askedMw ben d) 20000))).trans ?_, rfl⟩
    exact Nat.mod_eq_of_lt (by omega)

end Sys2Proof.Machine
end

section
/-! PROOF. Rings and doorbells (spec/04): what the registers of a queue and the push windows take, what a completed request posts, and the
statements O29, O32, O33, O34 and O36 of spec/00_scope.md. -/

namespace Sys2Proof.Machine

/-! ### A register of a queue's blocks (R75, R77, R168) -/

section QueueRegister

variable (s : State) (part q off : Nat) (ben : BitVec 4) (n : Bool) (f : State → Queue → State) (hclk : s.pins.fabClk = true)
  (hport : s.portErr false false (pageAt part off) = false)
include hclk hport

theorem State.queueWrite_absent (hq : s.queue part q = none) : s.queueWrite part q off ben n f = { s with port := ⟨0, false⟩ } := by
  simp [State.queueWrite, hq, State.portWrite, hclk, hport, State.wrote]

theorem State.queueWrite_served (x : Queue) (hx : s.queue part q = some x) (haon : s.pins.aonRel = true)
    (hben : n = false ∨ fullBen ben = true) : s.queueWrite part q off ben n f = { f s x with port := ⟨0, false⟩ } := by
  rw [State.queueWrite, hx]
  exact s.portWrite_served false (pageAt part off) ben n _ hclk hport hben haon

theorem State.queueWrite_partial (x : Queue) (hx : s.queue part q = some x) (hben : fullBen ben = false) :
    s.queueWrite part q off ben true f = { s with port := ⟨0, true⟩ } := by
  rw [State.queueWrite, hx]
  exact s.portWrite_partial false (pageAt part off) ben _ hclk hport hben

end QueueRegister

/-! ### A queue that does not exist (R168) -/

/-- Q_CTL and Q_STAT stand at 0x100 to 0x2FC of a partition's page. -/
theorem State.partVal_queueRegister (s : State) (p off : Nat) (hlo : 0x100 ≤ off) (hhi : off < 0x300) :
    s.partVal p off = (s.part p).elim 0 (fun _ => s.queueVal p ((off - 0x100) / 8) (off % 8 == 4)) := by
  unfold State.partVal
  cases s.part p
  case none => rfl
  case some x =>
    dsimp only [Option.elim]
    split
    case h_18 => exact if_pos ⟨hlo, hhi⟩
    all_goals omega

theorem State.queueVal_absent (s : State) (p q : Nat) (stat : Bool) (h : s.queue p q = none) : s.queueVal p q stat = 0 := by
  cases stat <;> simp [State.queueVal, State.qStat, h]

/-- A served read of a page returns the register's value, and a refused one 0 (R77). -/
theorem State.regRead_page_eq_zero (s : State) (priv : Bool) (part off : Nat) (hp : part < 64) (ho : off < 0x4000)
    (h : s.partVal part off = 0) : (s.regRead priv (pageAt part off)).1 = 0 := by
  have hlo : ¬ pageAt part off < 0x10000 := by simp only [pageAt]; omega
  have hhi : pageAt part off < 0x110000 := by simp only [pageAt]; omega
  have hval : s.regVal (pageAt part off) = 0 := by
    rw [State.regVal, if_neg hlo, if_pos hhi, pageOf_pageAt part off ho, pageOff_pageAt part off ho, h]
  rw [State.regRead, hval]
  split <;> rfl

theorem State.regRead_absentQueue (s : State) (part q i : Nat) (hp : part < 64) (hq : q < 64) (hi : i = 0 ∨ i = 4)
    (habsent : s.queue part q = none) : (s.regRead false (pageAt part (0x100 + i + 8 * q))).1 = 0 := by
  have hidx : (0x100 + i + 8 * q - 0x100) / 8 = q := by omega
  refine s.regRead_page_eq_zero false part _ hp (by omega) ?_
  rw [s.partVal_queueRegister part _ (by omega) (by omega), hidx, s.queueVal_absent part q _ habsent]
  cases s.part part <;> rfl

/-- Settles O29: the four writes are writes to a register of a queue that does not exist, and its two registers read 0. -/
theorem absentQueueIgnoresWrites : Obligations.AbsentQueueIgnoresWrites := by
  intro s part q ben data hclk hp hq habsent hport
  have hignored : ∀ off < 0x4000, ∀ n f, s.queueWrite part q off ben n f = { s with port := ⟨0, false⟩ } :=
    fun off hoff n f => s.queueWrite_absent part q off ben n f hclk (hport off hoff) habsent
  refine ⟨fun c hc => ?writes, s.regRead_absentQueue part q 0 hp hq (.inl rfl) habsent,
    s.regRead_absentQueue part q 4 hp hq (.inr rfl) habsent⟩
  case writes =>
    simp only [List.mem_cons, List.not_mem_nil, or_false] at hc
    rcases hc with rfl | rfl | rfl | rfl <;> exact congrArg _ (hignored _ (by omega) _ _)

/-! ### SQ_DB (R140) -/

theorem dbIndex_eq_of_some (n v : Nat) (d : Word) (h : dbIndex n d = some v) : n * (d.toNat / 2 ^ 16 % 2) + d.toNat % 2 ^ 16 = v := by
  by_cases hok : d.toNat / 2 ^ 17 = 0 ∧ d.toNat % 2 ^ 16 < n
  · exact Option.some.inj ((dbIndex_some n d hok.1 hok.2).symm.trans h)
  · rw [dbIndex_none n d (by omega)] at h
    exact absurd h nofun

section SubmissionDoorbell

variable (s : State) (part q : Nat) (data : Word) (x : Queue) (hclk : s.pins.fabClk = true)
  (hport : s.portErr false false (pageAt part (0x800 + 16 * q)) = false) (hx : s.queue part q = some x)
include hclk hport hx

theorem exec_sqDb_taken (haon : s.pins.aonRel = true) (v : Nat) (hv : dbIndex x.sqN data = some v)
    (hroom : occ x.sqN v x.tail ≤ x.sqN - occ x.sqN x.tail x.head) : exec (.sqDb part q 0xF data) s =
      .next { (s.updQueue part q (fun y => { y with tail := v })).fetchMore part q 5 with port := ⟨0, false⟩ } := by
  refine (congrArg _ (s.queueWrite_served part q _ 0xF true _ hclk hport x hx haon (.inr rfl))).trans ?_
  simp only [hv, if_pos hroom]

/-- A doorbell is not accepted for its bits or for a tail that reduces the occupancy. -/
theorem exec_sqDb_rejected (haon : s.pins.aonRel = true)
    (hbad : ∀ v, dbIndex x.sqN data = some v → x.sqN - occ x.sqN x.tail x.head < occ x.sqN v x.tail) :
    exec (.sqDb part q 0xF data) s =
      .next { (s.updQueue part q (fun y => { y with dbErr := true })).errEvent part with port := ⟨0, false⟩ } := by
  refine (congrArg _ (s.queueWrite_served part q _ 0xF true _ hclk hport x hx haon (.inr rfl))).trans ?_
  cases hv : dbIndex x.sqN data with
  | none => simp only [State.queueErr]
  | some v => simp only [if_neg (Nat.not_le.2 (hbad v hv)), State.queueErr]

theorem exec_sqDb_partial (ben : BitVec 4) (hben : ben ≠ 0xF) :
    exec (.sqDb part q ben data) s = .next { s with port := ⟨0, true⟩ } :=
  congrArg _ (s.queueWrite_partial part q _ ben _ hclk hport x hx (fullBen_eq_false ben hben))

end SubmissionDoorbell

/-- Settles O32: the doorbell by whether its word names an index and by the room that R140 leaves. -/
theorem submissionDoorbell : Obligations.SubmissionDoorbell := by
  intro s part q x data hclk haon hport hx
  refine ⟨fun hbits hpos hroom => ?taken, fun hbad => ?rejected, exec_sqDb_partial s part q data x hclk hport hx⟩
  case taken =>
    obtain ⟨y, hy, hkeep⟩ := State.fetchMore_queue _ part q 5 _ (s.queue_updQueue part q _ x hx)
    have htail := congrArg Queue.tail hkeep
    refine ⟨_, y, exec_sqDb_taken s part q data x hclk hport hx haon _ (dbIndex_some x.sqN data hbits hpos) hroom, hy, htail, ?_, rfl, ?_⟩
    · rw [htail]; exact hkeep
    · rw [State.fetchMore_eq]; rfl
  case rejected =>
    refine exec_sqDb_rejected s part q data x hclk hport hx haon fun v hv => ?_
    rcases hbad with hbits | hpos | hroom
    · exact absurd hv (by simp [dbIndex_none x.sqN data (.inl hbits)])
    · exact absurd hv (by simp [dbIndex_none x.sqN data (.inr hpos)])
    · exact dbIndex_eq_of_some x.sqN v data hv ▸ hroom

/-! ### CQ_DB (R163) -/

section CompletionDoorbell

variable (s : State) (part q : Nat) (data : Word) (x : Queue) (hclk : s.pins.fabClk = true) (haon : s.pins.aonRel = true)
  (hport : s.portErr false false (pageAt part (0x804 + 16 * q)) = false) (hx : s.queue part q = some x)
include hclk haon hport hx

theorem exec_cqDb_taken (v : Nat) (hv : dbIndex x.cqN data = some v) (hfwd : occ x.cqN x.cqTail v ≤ occ x.cqN x.cqTail x.cqHead) :
    exec (.cqDb part q 0xF data) s =
      .next { (s.updQueue part q (fun y => { y with cqHead := v })).postWaiting part q with port := ⟨0, false⟩ } := by
  refine (congrArg _ (s.queueWrite_served part q _ 0xF true _ hclk hport x hx haon (.inr rfl))).trans ?_
  simp only [hv, if_pos hfwd]

/-- A doorbell is not accepted for its bits, or for a head that passes the tail or moves backwards. -/
theorem exec_cqDb_rejected (hbad : ∀ v, dbIndex x.cqN data = some v → occ x.cqN x.cqTail x.cqHead < occ x.cqN x.cqTail v) :
    exec (.cqDb part q 0xF data) s =
      .next { (s.updQueue part q (fun y => { y with dbErr := true })).errEvent part with port := ⟨0, false⟩ } := by
  refine (congrArg _ (s.queueWrite_served part q _ 0xF true _ hclk hport x hx haon (.inr rfl))).trans ?_
  cases hv : dbIndex x.cqN data with
  | none => simp only [State.queueErr]
  | some v => simp only [if_neg (Nat.not_le.2 (hbad v hv)), State.queueErr]

end CompletionDoorbell

/-- A doorbell word by its position and its LAP. -/
theorem dbIndex_of_fields (n i l : Nat) (d : Word) (hn : i < n) (hl : l < 2) (hi : i < 2 ^ 16) (hd : d.toNat = 2 ^ 16 * l + i) :
    dbIndex n d = some (n * l + i) := by
  have hpos : d.toNat % 2 ^ 16 = i := by omega
  have hlap : d.toNat / 2 ^ 16 % 2 = l := by omega
  rw [dbIndex_some n d (by omega) (by omega), hpos, hlap]

/-! ### INVAL (R149, R150) -/

/-- A fetched entry with a slot in the range of an INVAL. -/
def Queue.hits (q : Queue) (first count : Nat) (c : CacheEntry) : Bool :=
  !c.pushed && (List.range c.slots).any (fun i => inRange q.sqN first count (q.adv c.v i))

/-- The cache after an INVAL: the entries in its range are to be read again. -/
def Queue.dropRange (q : Queue) (first count : Nat) : List CacheEntry :=
  q.cache.map (fun c => if q.hits first count c then { c with dropped := true } else c)

theorem Queue.dropRange_v (q : Queue) (first count : Nat) : (q.dropRange first count).map (·.v) = q.cache.map (·.v) := by
  rw [Queue.dropRange, List.map_map]
  refine List.map_congr_left fun c _ => ?_
  simp only [Function.comp_apply]
  split <;> rfl

theorem Queue.mem_dropRange_of_pushed (q : Queue) (first count : Nat) (c : CacheEntry) (hc : c ∈ q.cache) (hpush : c.pushed = true) :
    c ∈ q.dropRange first count :=
  List.mem_map.2 ⟨c, hc, if_neg (by simp [Queue.hits, hpush])⟩

/-- COUNT 0 names the whole ring (R149). -/
theorem Queue.mem_dropRange_of_whole (q : Queue) (first : Nat) (c : CacheEntry) (hc : c ∈ q.cache) (hpush : c.pushed = false)
    (hslots : 0 < c.slots) : { c with dropped := true } ∈ q.dropRange first 0 :=
  List.mem_map.2 ⟨c, hc, if_pos (by simpa [Queue.hits, hpush, inRange] using ⟨0, hslots⟩)⟩

theorem Queue.staleFrom_of_none (q : Queue) (first count : Nat) (h : q.slots = []) : q.staleFrom [] first count = none := by
  simp [Queue.staleFrom, h]

/-- With nothing fetched ahead of the parse point an INVAL only records the head and drops cached entries. -/
theorem State.invalidate_queue (s : State) (p q : Nat) (x : Queue) (first count : Nat) (hx : s.queue p q = some x) (hslots : x.slots = [])
    (hreads : s.fetchReads p q = []) :
    (s.invalidate p q x first count).queue p q = some { x with inv := x.head, cache := x.dropRange first count } := by
  simp only [State.invalidate, hreads, x.staleFrom_of_none first count hslots]
  refine (s.queue_updQueue p q _ x hx).trans ?_
  simp only [hslots, List.filter_nil]
  rfl

section Inval

variable (s : State) (part q : Nat) (data : Word) (x : Queue) (hclk : s.pins.fabClk = true) (haon : s.pins.aonRel = true)
  (hport : s.portErr false false (pageAt part (0x808 + 16 * q)) = false) (hx : s.queue part q = some x)
include hclk haon hport hx

theorem exec_inval_rejected (hfirst : x.sqN ≤ data.toNat % 2 ^ 16) : exec (.inval part q 0xF data) s =
    .next { (s.updQueue part q (fun y => { y with invalErr := true })).errEvent part with port := ⟨0, false⟩ } := by
  refine (congrArg _ (s.queueWrite_served part q _ 0xF true _ hclk hport x hx haon (.inr rfl))).trans ?_
  simp only [if_pos hfirst, State.queueErr]

theorem exec_inval_taken (hfirst : data.toNat % 2 ^ 16 < x.sqN) : exec (.inval part q 0xF data) s =
    .next { (s.invalidate part q x (data.toNat % 2 ^ 16) (data.toNat / 2 ^ 16)).fetchMore part q 5 with port := ⟨0, false⟩ } := by
  refine (congrArg _ (s.queueWrite_served part q _ 0xF true _ hclk hport x hx haon (.inr rfl))).trans ?_
  simp only [if_neg (Nat.not_le.2 hfirst)]

end Inval

/-! ### Q_CTL (R164, R166, R185) -/

/-- A change of a partition that leaves its queues alone. -/
theorem State.queue_updPart_of_queues (s : State) (p q : Nat) (f : Partition → Partition) (h : ∀ y, (f y).queues = y.queues) :
    (s.updPart p f).queue p q = s.queue p q := by
  rw [State.queue, State.queue, State.part_updPart_map]
  cases s.part p <;> simp [h]

section QueueControl

variable (s : State) (part q : Nat) (p : Partition) (x : Queue) (cie : Bool) (hx : s.queue part q = some x)
include hx

theorem State.setQctl_rises (hen : x.en = false) (hfetch : x.fetchErr = false) (hcmpl : x.cmplErr = false) :
    s.setQctl part q true cie =
      ((s.updQueue part q (fun y => { y with cie := cie })).updQueue part q (fun y => { y with en := true })).refill part q := by
  simp [State.setQctl, hx, hen, hfetch, hcmpl]

/-- While FETCH_ERR or CMPL_ERR is set a queue is not enabled (R164). -/
theorem State.setQctl_barred (hen : x.en = false) (herr : x.fetchErr = true ∨ x.cmplErr = true) :
    s.setQctl part q true cie = s.updQueue part q (fun y => { y with cie := cie }) := by
  simp [State.setQctl, hx, hen, herr]

theorem State.setQctl_falls (hen : x.en = true) :
    s.setQctl part q false cie = (s.updQueue part q (fun y => { y with cie := cie })).disable part q := by
  simp [State.setQctl, hx, hen]

theorem State.setQctl_stays (en : Bool) (hen : x.en = en) : s.setQctl part q en cie = s.updQueue part q (fun y => { y with cie := cie }) := by
  subst hen
  cases hen : x.en <;> simp [State.setQctl, hx, hen]

variable (hp : s.part part = some p)
include hp

/-- EN is taken where R185 does not refuse it and no partition reset is under way. -/
theorem State.qctl_eq_setQctl (en : Bool) (hadmin : q = 0 → en = true → x.en = false → p.adminOk = true)
    (hreset : q ≠ 0 → en = true → p.reset = none) : s.qctl part q en cie = s.setQctl part q en cie := by
  have hok : ¬ (q = 0 ∧ en ∧ !x.en ∧ !p.adminOk) := by simpa using hadmin
  have hfree : ¬ (q ≠ 0 ∧ en ∧ p.reset.isSome) := by simpa using hreset
  simp only [State.qctl, hx, hp, if_neg hok, if_neg hfree]

/-- R185: queue 0 is not enabled with wrong admin ring registers. -/
theorem State.qctl_adminRefused (hq : q = 0) (hen : x.en = false) (hadmin : p.adminOk = false) : s.qctl part q true cie =
    (s.updPart part (fun y => { y with admCfgErr := true })).updQueue part q (fun y => { y with cie := cie }) := by
  subst hq
  have hsame := (s.queue_updPart_of_queues part 0 (fun y => { y with admCfgErr := true }) fun _ => rfl).trans hx
  rw [← State.setQctl_stays _ part 0 x cie hsame false hen]
  simp [State.qctl, hx, hp, hen, hadmin]

end QueueControl

section QueueControlWrite

variable (s : State) (part q : Nat) (x : Queue) (ben : BitVec 4) (data : Word) (hclk : s.pins.fabClk = true) (haon : s.pins.aonRel = true)
  (hport : s.portErr false false (pageAt part (0x100 + 8 * q)) = false) (hx : s.queue part q = some x)
include hclk haon hport hx

theorem exec_qCtlWrite_byte0 (hben : ben.getLsbD 0 = true) : exec (.qCtlWrite part q ben data) s =
    .next { s.qctl part q (data.getLsbD 0) (data.getLsbD 1) with port := ⟨0, false⟩ } := by
  refine (congrArg _ (s.queueWrite_served part q _ ben false _ hclk hport x hx haon (.inl rfl))).trans ?_
  simp only [hben, if_true]

theorem exec_qCtlWrite_other (hben : ben.getLsbD 0 = false) : exec (.qCtlWrite part q ben data) s = .next { s with port := ⟨0, false⟩ } := by
  refine (congrArg _ (s.queueWrite_served part q _ ben false _ hclk hport x hx haon (.inl rfl))).trans ?_
  simp only [hben, Bool.false_eq_true, if_false]

end QueueControlWrite

/-- Settles O33: each write by what it names, and Q_CTL by where EN stands. -/
theorem completionDoorbellInvalAndEnable : Obligations.CompletionDoorbellInvalAndEnable := by
  refine ⟨fun s part q x data hclk haon hport hq hx => ⟨fun i l hi hl hd hi' hfwd => ?released, fun hbad => ?wrong, fun hfirst => ?badRange,
      fun hfirst hslots hreads _ => ?dropped⟩,
    fun s part q p x ben data hclk haon hport hp hx => ⟨fun hben => ?otherBytes, fun hben hd hen hq hreset hfetch hcmpl => ?rises,
      fun hben hd hen hq hreset herr => ?barred, fun hben hd hen hq hadmin => ?adminRefused, fun hben hd hen => ?falls⟩⟩
  case released =>
    exact exec_cqDb_taken s part q data x hclk haon (hport _ (by omega)) hx _ (dbIndex_of_fields x.cqN i l data hi hl hi' hd) hfwd
  case wrong =>
    have hnone := dbIndex_none x.cqN data hbad
    exact exec_cqDb_rejected s part q data x hclk haon (hport _ (by omega)) hx fun v hv => absurd hv (by simp [hnone])
  case badRange => exact exec_inval_rejected s part q data x hclk haon (hport _ (by omega)) hx hfirst
  case dropped =>
    obtain ⟨y, hy, hkeep⟩ := State.fetchMore_queue _ part q 5 _
      (s.invalidate_queue part q x (data.toNat % 2 ^ 16) (data.toNat / 2 ^ 16) hx hslots hreads)
    rw [hkeep] at hy
    refine ⟨_, _, exec_inval_taken s part q data x hclk haon (hport _ (by omega)) hx hfirst, hy, rfl, rfl, rfl, rfl, x.dropRange_v _ _,
      x.mem_dropRange_of_pushed _ _, fun c hc hpush hn hcount => ?_⟩
    rw [hcount]
    exact x.mem_dropRange_of_whole _ c hc hpush hn
  case otherBytes => exact exec_qCtlWrite_other s part q x ben data hclk haon hport hx hben
  all_goals rw [exec_qCtlWrite_byte0 s part q x ben data hclk haon hport hx hben, hd]
  case rises =>
    rw [s.qctl_eq_setQctl part q p x _ hx hp true (fun h => absurd h hq) (fun _ _ => hreset),
      s.setQctl_rises part q x _ hx hen hfetch hcmpl]
  case barred =>
    rw [s.qctl_eq_setQctl part q p x _ hx hp true (fun h => absurd h hq) (fun _ _ => hreset), s.setQctl_barred part q x _ hx hen herr]
    rfl
  case falls => rw [s.qctl_eq_setQctl part q p x _ hx hp false nofun nofun, s.setQctl_falls part q x _ hx hen]
  case adminRefused =>
    have hsame := (s.queue_updPart_of_queues part q (fun y => { y with admCfgErr := true }) fun _ => rfl).trans hx
    rw [s.qctl_adminRefused part q p x _ hx hp hq hen hadmin]
    refine ⟨_, _, rfl, State.part_updPart _ part _ _ (State.part_updPart s part _ p hp), rfl, fun z hz => ?_⟩
    obtain rfl := Option.some.inj ((State.queue_updQueue _ part q _ x hsame).symm.trans hz)
    exact ⟨hen, rfl⟩

/-! ### Writes to a push window (R75, R144 to R146) -/

section PushWrite

variable (s : State) (part w word : Nat) (ben : BitVec 4) (data : Word) (p : Partition) (hclk : s.pins.fabClk = true)
  (hport : s.portErr false false (pageAt part (0x2000 + 512 * w + 4 * word)) = false) (hp : s.part part = some p)
include hclk hport hp

/-- A window bound to no queue has REG_ERR for header words alone (R144). -/
theorem State.pushWrite_unbound (hw : p.windowQueue w = none) :
    s.pushWrite part w word ben data = { s with port := ⟨0, word % 8 == 0 && fullBen ben⟩ } := by
  simp [State.pushWrite, hclk, hport, hp, hw, State.wrote]

variable (qn : Nat) (q : Queue) (hw : p.windowQueue w = some (qn, q))
include hw

/-- A word that is no header lands in the window (R144). -/
theorem State.pushWrite_body (hword : word % 8 ≠ 0) : s.pushWrite part w word ben data = { s.updPart part (fun x => { x with
    windows := Mem.setBytes x.windows (512 * w + 4 * word)
      (leBytes 4 (mergeWord (wordOf (leNat (Mem.bytes p.windows (512 * w + 4 * word) 4))) 0xFFFFFFFF ben data).toNat) }) with
    port := ⟨0, false⟩ } := by
  simp [State.pushWrite, hclk, hport, hp, hw, hword, State.wrote]

/-- A header word at the window position of the tail takes the entry (R145). -/
theorem State.pushWrite_header (hword : word % 8 = 0) (hben : fullBen ben = true) (hpos : word / 8 = q.tail % q.sqN % 16) :
    s.pushWrite part w word ben data = s.take part w qn p q data := by
  simp [State.pushWrite, hclk, hport, hp, hw, hword, hben, hpos]

end PushWrite

/-! ### Entries taken and refused (R145, R146) -/

theorem State.pushRefused_follower (s : State) (p : Partition) (q : Queue) (steps : Nat) (h : s.mode.mode = .follower) :
    s.pushRefused p q steps = some false := if_pos h

theorem State.pushRefused_disabled (s : State) (p : Partition) (q : Queue) (steps : Nat) (hmode : s.mode.mode ≠ .follower)
    (hen : q.en = false) : s.pushRefused p q steps = some true := by
  simp [State.pushRefused, hmode, hen]

theorem State.pushRefused_eq_none (s : State) (p : Partition) (q : Queue) (steps : Nat) (hmode : s.mode.mode ≠ .follower)
    (hen : q.en = true) (hreset : p.reset = none) (hpushes : q.pushes < 4) (hload : q.load < 16)
    (hroom : occ q.sqN q.tail q.head + steps ≤ q.sqN) : s.pushRefused p q steps = none := by
  simp [State.pushRefused, hmode, hen, hreset, hpushes, hload, hroom]

/-- The steps that a taken entry of `n` slots advances the tail: it ends with the ring (R145). -/
def Queue.pushSteps (q : Queue) (n : Nat) : Nat := min n (q.sqN - q.tail % q.sqN)

/-- The tail passes a taken entry, and so does the fetch point where nothing is posted ahead of it. -/
def Queue.passTail (q : Queue) (steps : Nat) : Queue :=
  { q with tail := q.adv q.tail steps, fetch := if q.fetch = q.tail then q.adv q.tail steps else q.fetch }

/-- The taken entry in the cache. -/
def State.pushedEntry (s : State) (q : Queue) (e : Bytes) : CacheEntry :=
  { v := q.tail, slots := q.pushSteps (eSlots e), bytes := e, first := eSlots e, pushed := true, dropped := false
    drained := s.mode.mode == .drain && !decide (eOpcode e = Opc.pad) }

section Take

variable (s : State) (part w qn : Nat) (p : Partition) (q : Queue) (data : Word)

theorem State.take_refused (rej : Bool) (h : s.pushRefused p q (q.pushSteps (eSlots (p.pushed w q data))) = some rej) :
    s.take part w qn p q data =
      { (if rej then s.updQueue part qn (fun y => { y with pushRej := true }) else s) with port := ⟨0, true⟩ } := by
  rw [Queue.pushSteps] at h
  simp only [State.take, h, State.wrote]

theorem State.take_accepted (e : Bytes) (he : e = p.pushed w q data) (h : s.pushRefused p q (q.pushSteps (eSlots e)) = none) :
    s.take part w qn p q data = { (((s.updPart part (fun x => x.zeroWindow w (q.tail % q.sqN) (eSlots e))).updQueue part qn
      (fun y => y.passTail (q.pushSteps (eSlots e)))).updQueue part qn (fun y => y.insert (s.pushedEntry q e))).updQueue part qn
      (fun y => y.parseAll s.serving 20) with port := ⟨0, false⟩ } := by
  subst he
  rw [Queue.pushSteps] at h
  simp only [State.take, h]
  rfl

/-- What a taken entry leaves of its queue and its window. -/
theorem State.take_accepted_spec (e : Bytes) (he : e = p.pushed w q data) (h : s.pushRefused p q (q.pushSteps (eSlots e)) = none)
    (hp : s.part part = some p) (hq : s.queue part qn = some q) :
    ∃ t x y, s.take part w qn p q data = t ∧ t.part part = some x ∧ t.queue part qn = some y ∧
      y.tail = q.adv q.tail (q.pushSteps (eSlots e)) ∧ y.en = q.en ∧
      x.windows = (p.zeroWindow w (q.tail % q.sqN) (eSlots e)).windows ∧ t.port = ⟨0, false⟩ ∧
      t = { s with parts := t.parts, port := t.port } := by
  obtain ⟨htail, hen⟩ := Queue.parseAll_keeps s.serving 20 ((q.passTail (q.pushSteps (eSlots e))).insert (s.pushedEntry q e))
  have hq' := (s.queue_updPart_of_queues part qn (fun x => x.zeroWindow w (q.tail % q.sqN) (eSlots e)) fun _ => rfl).trans hq
  refine ⟨_, _, _, s.take_accepted part w qn p q data e he h,
    State.part_updPart _ part _ _ (State.part_updPart _ part _ _ (State.part_updPart _ part _ _ (State.part_updPart s part _ p hp))),
    State.queue_updQueue _ part qn _ _ (State.queue_updQueue _ part qn _ _ (State.queue_updQueue _ part qn _ q hq')),
    htail, hen, rfl, rfl, ?_⟩
  simp only [State.updQueue, State.updPart]

end Take

/-- PUSH_TAKE at the window position of the tail is a take (R145). -/
theorem exec_pushTake_at_tail (s : State) (part w pos qn : Nat) (p : Partition) (q : Queue) (data : Word) (hclk : s.pins.fabClk = true)
    (hport : s.portErr false false (pageAt part (0x2000 + 512 * w + 4 * (8 * pos))) = false) (hp : s.part part = some p)
    (hw : p.windowQueue w = some (qn, q)) (hpos : pos = q.tail % q.sqN % 16) :
    exec (.pushTake part w pos data) s = .next (s.take part w qn p q data) :=
  congrArg _ (s.pushWrite_header part w (8 * pos) 0xF data p hclk hport hp qn q hw (by omega) rfl (by omega))

/-- Settles O34: a word by whether its window is bound and whether it is a header, a take by whether R146 refuses it. -/
theorem pushWindows : Obligations.PushWindows := by
  intro s part w pos qn p q data hclk hport hw hpos hp
  have hwindow : ∀ word < 128, s.portErr false false (pageAt part (0x2000 + 512 * w + 4 * word)) = false :=
    fun word hword => hport _ (by omega)
  refine ⟨fun hunbound => ⟨?header, fun word ben hword hbody => ?ignored⟩, fun word ben hword hbody hbound => ?lands,
    fun hbound hq htail => ?takes⟩
  case header =>
    refine (congrArg _ (s.pushWrite_unbound part w (8 * pos) 0xF data p hclk (hwindow _ (by omega)) hp hunbound)).trans ?_
    simp [fullBen]
  case ignored =>
    refine (congrArg _ (s.pushWrite_unbound part w word ben data p hclk (hwindow word hword) hp hunbound)).trans ?_
    simp [hbody]
  case lands => exact congrArg _ (s.pushWrite_body part w word ben data p hclk (hwindow word hword) hp qn q hbound hbody)
  case takes =>
    have htake := exec_pushTake_at_tail s part w pos qn p q data hclk (hwindow _ (by omega)) hp hbound htail
    rw [htake]
    refine ⟨fun hmode => ?follower, fun hmode hen => ?disabled, fun e he hmode hen hreset hpushes hload hroom => ?accepted⟩
    case follower => exact congrArg _ (s.take_refused part w qn p q data false (s.pushRefused_follower p q _ hmode))
    case disabled => exact congrArg _ (s.take_refused part w qn p q data true (s.pushRefused_disabled p q _ hmode hen))
    case accepted =>
      obtain ⟨t, x, y, htaken, hx, hy, htl, hyen, hrest⟩ := s.take_accepted_spec part w qn p q data e he
        (s.pushRefused_eq_none p q _ hmode hen hreset hpushes hload hroom) hp hq
      exact ⟨t, x, y, congrArg _ htaken, hx, hy, htl, hyen.trans hen, hrest⟩

/-! ### The completion of a request that holds a credit (R158, R159) -/

/-- A request that holds no unit gives up none. -/
theorem State.letGo_of_no_unit (s : State) (rid : Nat) (r : Req) (h : r.units = []) : s.letGo rid r = s := by
  simp [State.letGo, State.chargeHeld, h]

/-- The request once its status is fixed and before its completion entry is written: nothing is held for it. -/
def Req.ended (r : Req) (st detail res : Nat) : Req :=
  { r with phase := .waitCredit, status := st, detail := detail, result := res, dslot := none, staging := 0, ctxTiles := 0, tiles := 0
           units := [], segs := [], ending := none, victimOf := none, expIdx := 0 }

/-- The state in which the completion entry of a request without units is written: its grants, save areas and tiles are free. -/
def State.ended (s : State) (rid : Nat) (r : Req) (st detail res : Nat) : State :=
  ((((s.dropGrants rid).dropSave rid).countP r.part 28 1).countP r.part (if st = St.authFail then 30 else 32) (b2n (st != St.success))).updReq
    rid (fun x => x.ended st detail res)

/-- Besides the request itself, a completion moves grants, save areas and counters alone before its entry is written. -/
theorem State.ended_eq (s : State) (rid : Nat) (r : Req) (st detail res : Nat) : ∃ u,
    s.ended rid r st detail res = State.updReq u rid (fun x => x.ended st detail res) ∧
      u = { s with gov := u.gov, units := u.units, bg := u.bg } :=
  ⟨_, rfl, rfl⟩

/-- The writes of a completion entry name its queue themselves (R167). -/
theorem State.writeTxns_cmpl (s u : State) (part cls addr p q : Nat) (bs : Bytes) (rid : Option Nat) :
    u.writeTxns part cls addr bs (.cmpl p q rid) = s.writeTxns part cls addr bs (.cmpl p q rid) := rfl

/-- A completion entry takes its status, DETAIL and RESULT from the completion. -/
theorem cqEntry_withStatus (x : Queue) (r : Req) (a b c st detail res : Nat) :
    cqEntry x { r with status := a, detail := b, result := c } st detail res = cqEntry x r st detail res := rfl

section Completion

variable (s : State) (rid : Nat) (r : Req) (hreq : s.req rid = some r) (howner : r.owner = .queue) (hquiet : r.quiet = false)
  (hcredit : r.credit = true) (hg : r.g0 = 0) (hunits : r.units = [])
include hreq howner hquiet hcredit hg hunits

theorem State.complete_eq_postCq (st detail res : Nat) :
    s.complete rid st detail res = (s.ended rid r st detail res).postCq rid { r with status := st, detail := detail, result := res } := by
  simp only [State.complete, hreq, hg, State.letGo_of_no_unit _ rid r hunits, howner, hquiet, hcredit]
  rfl

/-- The completion entry goes out at the completion tail, and its credit becomes an occupied entry (R158 to R161). -/
theorem State.complete_spec (st detail res : Nat) (x : Queue) (hx : s.queue r.part r.qid = some x) :
    ∃ t y z, s.complete rid st detail res = t ∧
      t.fab = s.fab ++ s.writeTxns r.part 3 (x.cfg.cqBase + 16 * (x.cqTail % x.cqN)) (cqEntry x r st detail res)
        (.cmpl r.part r.qid (some rid)) ∧
      t.req rid = some y ∧ y.phase = .completing ∧ y.status = st ∧ y.detail = detail ∧ y.result = res ∧
      t.queue r.part r.qid = some z ∧ z = { x with cqTail := (x.cqTail + 1) % (2 * x.cqN), reserved := x.reserved - 1 } ∧
      t.hw = s.hw ∧ t.mode = s.mode ∧ t.pins = s.pins ∧ t.port = s.port ∧ t.flt = s.flt := by
  obtain ⟨u, hended, hu⟩ := s.ended_eq rid r st detail res
  have hdone := s.complete_eq_postCq rid r hreq howner hquiet hcredit hg hunits st detail res
  have hur : u.req rid = some r := by rw [hu]; exact hreq
  have hux : (u.updReq rid (fun x => x.ended st detail res)).queue r.part r.qid = some x := by rw [hu]; exact hx
  have hufab : u.fab = s.fab := by rw [hu]
  rw [hended] at hdone
  obtain ⟨t, ht, hfab, hy, hz, hkeep⟩ := State.postCq_spec _ rid { r with status := st, detail := detail, result := res }
    (r.ended st detail res) x hux (State.req_updReq u rid r _ hur)
  rw [State.writeTxns_cmpl s, cqEntry_withStatus, State.updReq_fab, hufab] at hfab
  refine ⟨t, _, _, hdone.trans ht, hfab, hy, rfl, rfl, rfl, rfl, hz, rfl, ?_⟩
  rw [hkeep, hu]
  exact ⟨rfl, rfl, rfl, rfl, rfl⟩

end Completion

/-! ### SLOT_INFO (R408) and FENCE (R153) -/

section SlotInfo

variable (s : State) (rid : Nat) (r : Req) (hreq : s.req rid = some r) (hphase : r.phase = .admitted) (hop : r.opcode = Opc.slotInfo)
include hreq hphase hop

theorem execSlotInfo_eq : execSlotInfo rid s = .next (if 1 < fld r.entry 10 1 then s.complete rid St.malformed 0x0A 0
    else if !(s.slotIn r.part (cSlot r.entry)) then s.complete rid St.keySlotInvalid 0x01 0
    else s.complete rid St.success 0 (s.slotInfo (s.gOf r.part (cSlot r.entry)) (fld r.entry 10 1))) := by
  simp only [execSlotInfo, s.fresh_some rid r (fun r => r.opcode == Opc.slotInfo) hreq hphase (beq_iff_eq.2 hop), State.reject]

/-- The three answers of R408. -/
theorem exec_slotInfo_completes (st d res : Nat)
    (h : (1 < fld r.entry 10 1 ∧ st = St.malformed ∧ d = 0x0A ∧ res = 0) ∨
      (fld r.entry 10 1 ≤ 1 ∧ s.slotIn r.part (cSlot r.entry) = false ∧ st = St.keySlotInvalid ∧ d = 1 ∧ res = 0) ∨
      (fld r.entry 10 1 ≤ 1 ∧ s.slotIn r.part (cSlot r.entry) = true ∧ st = St.success ∧ d = 0 ∧
        res = s.slotInfo (s.gOf r.part (cSlot r.entry)) (fld r.entry 10 1))) :
    exec (.slotInfo rid) s = .next (s.complete rid st d res) := by
  refine (execSlotInfo_eq s rid r hreq hphase hop).trans (congrArg _ ?_)
  rcases h with ⟨hpage, rfl, rfl, rfl⟩ | ⟨hpage, hslot, rfl, rfl, rfl⟩ | ⟨hpage, hslot, rfl, rfl, rfl⟩
  · rw [if_pos hpage]
  · rw [if_neg (Nat.not_lt.2 hpage), if_pos (by simp [hslot])]
  · rw [if_neg (Nat.not_lt.2 hpage), if_neg (by simp [hslot])]

end SlotInfo

theorem any_earlier_iff (l : List (Nat × Req)) (seq : Nat) : l.any (fun o => decide (o.2.seq < seq) && o.2.phase != .exported) = true ↔
    ∃ o ∈ l, o.2.seq < seq ∧ o.2.phase ≠ .exported := by
  simp only [List.any_eq_true, Bool.and_eq_true, decide_eq_true_eq, bne_iff_ne]

section Fence

variable (s : State) (rid : Nat) (r : Req) (hreq : s.req rid = some r) (hphase : r.phase = .admitted) (hop : r.opcode = Opc.fence)
include hreq hphase hop

theorem execFence_eq : execFence rid s =
    .next (if (s.queueReqs r.part r.qid).any (fun o => decide (o.2.seq < r.seq) && o.2.phase != .exported) then s
      else s.complete rid St.success 0 0) := by
  simp only [execFence, s.fresh_some rid r (fun r => r.opcode == Opc.fence) hreq hphase (beq_iff_eq.2 hop)]

/-- A request of the queue that was admitted before the FENCE has not completed; an exported one has (R153, R256). -/
theorem exec_fence_waits (h : ∃ o ∈ s.queueReqs r.part r.qid, o.2.seq < r.seq ∧ o.2.phase ≠ .exported) :
    exec (.fence rid) s = .next s :=
  (execFence_eq s rid r hreq hphase hop).trans (congrArg _ (if_pos ((any_earlier_iff _ _).2 h)))

theorem exec_fence_completes (h : ¬ ∃ o ∈ s.queueReqs r.part r.qid, o.2.seq < r.seq ∧ o.2.phase ≠ .exported) :
    exec (.fence rid) s = .next (s.complete rid St.success 0 0) :=
  (execFence_eq s rid r hreq hphase hop).trans (congrArg _ (if_neg (mt (any_earlier_iff _ _).1 h)))

end Fence

/-- Settles O36: SLOT_INFO completes with one of its three answers and FENCE by what its queue still holds. -/
theorem completionEntryIsPosted : Obligations.CompletionEntryIsPosted := by
  intro s rid r x hreq hphase howner hquiet hcredit hg hunits hx
  refine ⟨fun hop st d res hanswer => ?slotInfo, fun hop =>
    ⟨exec_fence_completes s rid r hreq hphase hop, exec_fence_waits s rid r hreq hphase hop⟩⟩
  case slotInfo =>
    obtain ⟨t, y, z, hdone, hpost⟩ := s.complete_spec rid r hreq howner hquiet hcredit hg hunits st d res x hx
    exact ⟨t, y, z, (exec_slotInfo_completes s rid r hreq hphase hop st d res hanswer).trans (congrArg _ hdone), hpost⟩

end Sys2Proof.Machine
end

section
/-! PROOF. Partitions, admin queues and interrupt vectors (spec/05): what the admin commands of queues do, what PM_CMD and PARTITION_RESET
do and when a partition reset ends, and what the vector registers do; the statements O45, O46 and O58 of spec/00_scope.md. -/

namespace Sys2Proof.Machine

/-! ### A change of a queue's configuration (R188, R189, R191, R420, R444) -/

/-- A partition changes; the image and the peer are told of the queue it is about. -/
def State.configure (s : State) (part q : Nat) (f : Partition → Partition) : State :=
  ((s.updPart part f).dirty 1).cfgGraft (.queue part q)

theorem State.configure_eq (s : State) (part q : Nat) (f : Partition → Partition) : s.configure part q f = { s with
    parts := (s.configure part q f).parts, persist := (s.configure part q f).persist, pair := (s.configure part q f).pair } := by
  unfold State.configure
  rw [State.cfgGraft_eq]
  rfl

theorem State.configure_change (s : State) (part q : Nat) (f : Partition → Partition) : (s.configure part q f).persist.change = true := by
  rw [State.configure, (State.cfgGraft_keeps_parts _ _).2]
  rfl

/-- The image and the graft leave the queues as the change made them. -/
theorem State.queue_configure (s : State) (part q : Nat) (f : Partition → Partition) (k : Nat) :
    (s.configure part q f).queue part k = (s.updPart part f).queue part k := by
  rw [State.queue, State.queue, State.part, State.configure, (State.cfgGraft_keeps_parts _ _).1]
  rfl

theorem State.queue_del (s : State) (part q : Nat) (p : Partition) (hp : s.part part = some p) :
    (s.updPart part (fun p => { p with queues := Store.del p.queues q })).queue part q = none ∧
    (∀ k, k ≠ q → (s.updPart part (fun p => { p with queues := Store.del p.queues q })).queue part k = s.queue part k) := by
  simp only [State.queue, s.part_updPart part _ p hp, hp, Option.bind_some, Store.find_del_self, true_and]
  exact fun k hk => Store.find_del_other _ _ _ (Ne.symm hk)

/-! ### The fields of an admin entry (R188) -/

theorem ringsOk_iff (sq cq sqBase cqBase : Nat) : ringsOk sq cq sqBase cqBase = true ↔
    (6 ≤ sq ∧ sq ≤ 16) ∧ (6 ≤ cq ∧ cq ≤ 16) ∧ sqBase % min 4096 (32 * 2 ^ sq) = 0 ∧ cqBase % min 4096 (16 * 2 ^ cq) = 0 := by
  simp only [ringsOk, Bool.and_eq_true, decide_eq_true_eq, beq_iff_eq, and_assoc]

/-- The checks of R188. -/
theorem Partition.createOk_iff (p : Partition) (e : Bytes) (c : QueueCfg) (hc : c = cqCfg e) :
    p.createOk e = true ↔ (1 ≤ aQid e ∧ aQid e < p.assign.queues) ∧ Store.find p.queues (aQid e) = none ∧ p.assign.classLimit ≤ c.cls ∧
      c.vector < p.assign.vectors ∧ (∀ w, c.window = some w → p.windowQueue w = none) ∧ c.qweight ≠ 0 ∧
      ringsOk c.sqLog2 c.cqLog2 c.sqBase c.cqBase = true := by
  subst hc
  cases hwindow : (cqCfg e).window <;> simp [Partition.createOk, hwindow, and_assoc]

/-- A field out of range bars the creation. -/
theorem Partition.createOk_eq_false (p : Partition) (e : Bytes) (c : QueueCfg) (hc : c = cqCfg e)
    (h : aQid e = 0 ∨ p.assign.queues ≤ aQid e ∨ (Store.find p.queues (aQid e)).isSome = true ∨ c.cls < p.assign.classLimit ∨
      c.qweight = 0 ∨ c.sqLog2 < 6 ∨ 16 < c.cqLog2) : p.createOk e = false := by
  refine Bool.eq_false_iff.2 fun hok => ?_
  obtain ⟨hqid, hnew, hcls, -, -, hweight, hrings⟩ := (p.createOk_iff e c hc).1 hok
  obtain ⟨hsq, hcq, -⟩ := (ringsOk_iff _ _ _ _).1 hrings
  rcases h with h | h | h | h | h | h | h
  case inr.inr.inl => simp [hnew] at h
  case inr.inr.inr.inr.inl => exact hweight h
  all_goals omega

/-! ### The admin commands of queues (R188 to R191) -/

theorem State.stopFetch_eq (s : State) (p q : Nat) : s.stopFetch p q = { s with fab := (s.stopFetch p q).fab } := by
  unfold State.stopFetch
  split <;> rfl

section AdminQueue

variable (s : State) (rid : Nat) (r : Req) (p : Partition) (hreq : s.req rid = some r) (hp : s.part r.part = some p)

section Admitted

variable (hphase : r.phase = .admitted)
include hreq hphase

include hp in
theorem exec_createQueue (hop : r.opcode = Opc.createQueue) : exec (.createQueue rid) s = .next (if p.createOk r.entry then
      (s.configure r.part (aQid r.entry) (fun p =>
        { p with queues := Store.put p.queues (aQid r.entry) (Queue.fresh (cqCfg r.entry)) })).complete rid St.success 0 0
    else s.reject rid St.malformed 0x0A) := by
  change execCreateQueue rid s = _
  simp only [execCreateQueue, s.fresh_some rid r (fun r => r.opcode == Opc.createQueue) hreq hphase (beq_iff_eq.2 hop), hp, Option.elim,
    State.configure]

include hp in
theorem exec_destroyQueue_refused (hop : r.opcode = Opc.destroyQueue) (hio : p.ioQueue (aQid r.entry) = false) :
    exec (.destroyQueue rid) s = .next (s.reject rid St.malformed 0x0A) := by
  change execDestroyQueue rid s = _
  simp [execDestroyQueue, s.fresh_some rid r (fun r => r.opcode == Opc.destroyQueue) hreq hphase (beq_iff_eq.2 hop), hp, hio]

include hp in
/-- Without ABORT the queue stops and its requests go on (R189). -/
theorem exec_destroyQueue_stops (hop : r.opcode = Opc.destroyQueue) (hio : p.ioQueue (aQid r.entry) = true)
    (habort : bitAt (fld r.entry 10 1) 0 = false) : exec (.destroyQueue rid) s =
      .next (((s.stopFetch r.part (aQid r.entry)).updQueue r.part (aQid r.entry) (fun x =>
        { x.discard with en := false, dying := true })).setPhase rid .waitIdle) := by
  change execDestroyQueue rid s = _
  simp [execDestroyQueue, s.fresh_some rid r (fun r => r.opcode == Opc.destroyQueue) hreq hphase (beq_iff_eq.2 hop), hp, hio, habort]

theorem exec_queueInfo (hop : r.opcode = Opc.queueInfo) : exec (.queueInfo rid) s = .next ((s.queue r.part (aQid r.entry)).elim
    (s.reject rid St.malformed 0x0A) (fun x => s.complete rid St.success 0 (s.queueInfo r.part (aQid r.entry) x))) := by
  change execQueueInfo rid s = _
  simp only [execQueueInfo, s.fresh_some rid r (fun r => r.opcode == Opc.queueInfo) hreq hphase (beq_iff_eq.2 hop)]
  cases s.queue r.part (aQid r.entry) <;> rfl

include hp in
theorem exec_setQos (hop : r.opcode = Opc.setQos) (c : QueueCfg) (hc : c = cqCfg r.entry) : exec (.setQos rid) s = .next (
    if p.ioQueue (aQid r.entry) && decide (p.assign.classLimit ≤ c.cls) && c.qweight != 0 then
      (s.configure r.part (aQid r.entry) (fun y => { y with queues := Store.upd y.queues (aQid r.entry) (fun x =>
        { x with cfg := { x.cfg with cls := c.cls, urgEn := c.urgEn, qweight := c.qweight } }) })).complete rid St.success 0 0
    else s.reject rid St.malformed 0x0A) := by
  subst hc
  change execSetQos rid s = _
  simp only [execSetQos, s.fresh_some rid r (fun r => r.opcode == Opc.setQos) hreq hphase (beq_iff_eq.2 hop), hp, Option.elim,
    State.configure, State.updQueue]

end Admitted

include hreq in
/-- The queue goes once Q_STAT.IDLE is 1 (R189 step 3). -/
theorem exec_destroyQueueIdle (hphase : r.phase = .waitIdle) : exec (.destroyQueueIdle rid) s = .next (
    if s.queueIdle r.part (aQid r.entry) then
      (s.configure r.part (aQid r.entry) (fun p => { p with queues := Store.del p.queues (aQid r.entry) })).complete rid St.success 0 0
    else s) := by
  change execDestroyQueueIdle rid s = _
  simp only [execDestroyQueueIdle, hreq, hphase, true_and, State.configure]

end AdminQueue

/-- Settles O45: each command by what its checks answer; a change reaches one queue of the partition. -/
theorem adminQueueCommands : Obligations.AdminQueueCommands := by
  rintro s rid q r p hreq hp rfl
  refine ⟨fun c hphase hop hc => ⟨fun hlow hhigh hnew hcls hvec hwindow hweight hsqLow hsqHigh hcqLow hcqHigh hsqBase hcqBase => ?created,
      fun hbad => ?notCreated⟩,
    fun hphase hop hio => exec_destroyQueue_refused s rid r p hreq hp hphase hop hio, fun x hphase hop hio habort hx => ?stopped,
    fun hphase hidle => ?gone, fun hphase hidle => ?notIdle, fun x hphase hop hx => ?info, fun hphase hop hx => ?noInfo,
    fun x c hphase hop hc hio hcls hweight hx => ?qos, fun hphase hop hbad => ?noQos⟩
  case created =>
    have hrings : ringsOk c.sqLog2 c.cqLog2 c.sqBase c.cqBase = true :=
      (ringsOk_iff _ _ _ _).2 ⟨⟨hsqLow, hsqHigh⟩, ⟨hcqLow, hcqHigh⟩, hsqBase, hcqBase⟩
    have hok := (p.createOk_iff r.entry c hc).2 ⟨⟨hlow, hhigh⟩, hnew, hcls, hvec, by simp [hwindow], hweight, hrings⟩
    obtain ⟨hput, hothers⟩ := s.queue_put r.part (aQid r.entry) p (Queue.fresh c) hp
    rw [exec_createQueue s rid r p hreq hp hphase hop, if_pos hok, ← hc]
    exact ⟨_, rfl, (s.queue_configure _ _ _ _).trans hput, fun k hk => (s.queue_configure _ _ _ _).trans (hothers k hk),
      s.configure_change _ _ _, s.configure_eq _ _ _⟩
  case notCreated =>
    rw [exec_createQueue s rid r p hreq hp hphase hop, p.createOk_eq_false r.entry c hc hbad, if_neg Bool.false_ne_true]
  case stopped =>
    have hstop := s.stopFetch_eq r.part (aQid r.entry)
    have hx' : (s.stopFetch r.part (aQid r.entry)).queue r.part (aQid r.entry) = some x := by rw [hstop]; exact hx
    have hreq' : (s.stopFetch r.part (aQid r.entry)).req rid = some r := by rw [hstop]; exact hreq
    refine ⟨_, _, exec_destroyQueue_stops s rid r p hreq hp hphase hop hio habort,
      State.queue_updQueue _ r.part (aQid r.entry) _ x hx', rfl, rfl, rfl, rfl, State.req_updReq _ rid r _ hreq', ?_⟩
    rw [hstop]
    rfl
  case gone =>
    obtain ⟨hdel, hothers⟩ := s.queue_del r.part (aQid r.entry) p hp
    rw [exec_destroyQueueIdle s rid r hreq hphase, if_pos hidle]
    exact ⟨_, rfl, (s.queue_configure _ _ _ _).trans hdel, fun k hk => (s.queue_configure _ _ _ _).trans (hothers k hk),
      s.configure_eq _ _ _⟩
  case notIdle => rw [exec_destroyQueueIdle s rid r hreq hphase, hidle, if_neg Bool.false_ne_true]
  case info => rw [exec_queueInfo s rid r hreq hphase hop, hx]; rfl
  case noInfo => rw [exec_queueInfo s rid r hreq hphase hop, hx]; rfl
  case qos =>
    rw [exec_setQos s rid r p hreq hp hphase hop c hc, if_pos (by simp [hio, hcls, hweight])]
    exact ⟨_, rfl, (s.queue_configure _ _ _ _).trans (s.queue_updQueue _ _ _ x hx), s.configure_eq _ _ _⟩
  case noQos =>
    rw [exec_setQos s rid r p hreq hp hphase hop _ rfl, if_neg]
    rcases hbad with hio | hweight
    · simp [hio]
    · simp [hweight]

/-! ### The tests of R177 that come first -/

theorem State.pmBar_busy (u : State) (h : u.pm.busy ≠ none) : u.pmBar = some 7 :=
  if_pos (Option.isSome_iff_ne_none.2 h)

theorem State.pmBar_notServing (u : State) (hbusy : u.pm.busy = none) (hserving : u.serving = false) : u.pmBar = some 6 := by
  simp [State.pmBar, hbusy, hserving]

theorem State.pmBar_eq_none (u : State) (hbusy : u.pm.busy = none) (hserving : u.serving = true) : u.pmBar = none := by
  simp [State.pmBar, hbusy, hserving]

theorem State.ownReset_of_no_part (u : State) (part : Nat) (h : u.part part = none) : u.ownReset part = false := by
  simp [State.ownReset, h]

section ManagerCommand

variable (u : State) (part : Nat)

theorem State.pmCreate_barred (n : Nat) (hbar : u.pmBar = some n) : u.pmCreate part = u.pmReject n part := by
  simp only [State.pmCreate, hbar]

theorem State.pmEnd_barred (kind : ResetKind) (n : Nat) (hbar : u.pmBar = some n) : u.pmEnd part kind = u.pmReject n part := by
  simp only [State.pmEnd, hbar]

variable (hbar : u.pmBar = none)
include hbar

/-! ### RESET and DESTROY (R177, R179, R193) -/

theorem State.pmEnd_absent (kind : ResetKind) (hpart : u.part part = none) : u.pmEnd part kind = u.pmReject 2 part := by
  simp [State.pmEnd, hbar, hpart]

theorem State.pmEnd_begins (kind : ResetKind) (hpart : u.part part ≠ none) (hown : u.ownReset part = false) :
    u.pmEnd part kind = u.pmBegin part kind := by
  simp [State.pmEnd, hbar, hpart, hown]

/-! ### CREATE (R172, R177, R178) -/

theorem State.pmCreate_exists (hpart : u.part part ≠ none) (hown : u.ownReset part = false) : u.pmCreate part = u.pmReject 1 part := by
  simp [State.pmCreate, hbar, Option.isSome_iff_ne_none.2 hpart, hown]

section Absent

variable (hpart : u.part part = none)
include hpart

theorem State.pmCreate_badAssign (hassign : assignOk u.pmAssign = false) : u.pmCreate part = u.pmReject 3 part := by
  simp [State.pmCreate, hbar, hpart, u.ownReset_of_no_part part hpart, hassign]

variable (hassign : assignOk u.pmAssign = true)
include hassign

theorem State.pmCreate_noPool (hpools : u.poolsHold u.pmAssign = false) : u.pmCreate part = u.pmReject 4 part := by
  simp [State.pmCreate, hbar, hpart, u.ownReset_of_no_part part hpart, hassign, hpools]

variable (hpools : u.poolsHold u.pmAssign = true)
include hpools

theorem State.pmCreate_noPower (hpower : u.budgetMw < 400 + u.shares + u.pmAssign.shareMw) : u.pmCreate part = u.pmReject 5 part := by
  simp [State.pmCreate, hbar, hpart, u.ownReset_of_no_part part hpart, hassign, hpools, hpower]

/-- A CREATE that passes leaves the partition new, its virtual times raised to those of the others (R178, R199). -/
theorem State.pmCreate_taken (hpower : 400 + u.shares + u.pmAssign.shareMw ≤ u.budgetMw) : ∃ t vt, u.pmCreate part = t ∧
    t.part part = some { Partition.fresh u.pmAssign (u.slotsFor u.pmAssign.slots) with vt := vt } ∧ (∀ k, k ≠ part → t.part k = u.part k) ∧
    t.pm = { u.pm with busy := none, queued := none, done := true, lastPart := part } ∧ t.persist.change = true ∧
    t = { u with parts := t.parts, pm := t.pm, persist := t.persist, pair := t.pair } := by
  obtain ⟨vt, hnew, hothers, hframe⟩ := State.resetV_spec
    { u with parts := Store.put u.parts part (Partition.fresh u.pmAssign (u.slotsFor u.pmAssign.slots)) } part _ (Store.find_put_self _ _ _)
  refine ⟨_, vt, rfl, ?_⟩
  simp only [State.pmCreate, hbar, hpart, u.ownReset_of_no_part part hpart, hassign, hpools, Nat.not_lt.2 hpower, Option.isSome_none,
    Bool.not_true, Bool.false_eq_true, if_false]
  rw [hframe, State.cfgGraft_eq]
  exact ⟨hnew, fun k hk => (hothers k hk).trans (Store.find_put_other _ _ _ _ (Ne.symm hk)), rfl, rfl, rfl⟩

end Absent

end ManagerCommand

/-! ### A write of PM_CMD (R173) -/

section ManagerWrite

variable (s : State) (d : Word) (hclk : s.pins.fabClk = true) (haon : s.pins.aonRel = true) (hport : s.portErr true false 0x400 = false)
  (u : State) (part : Nat) (hu : u = s.cmdRw 0x400 s.pm.busy.isSome 0x10000 0xF d) (hpart : part = u.blk 0x400 % 64)
include hclk haon hport hu hpart

theorem State.pmWrite_served (f : State → Nat → State) : s.pmWrite true 0xF d f = { f u part with port := ⟨0, false⟩ } := by
  rw [State.pmWrite, s.portWrite_served true 0x400 0xF false _ hclk hport (.inl rfl) haon, hpart, hu]
  rfl

theorem exec_pmCreate_served : exec (.pmCreate true 0xF d) s = .next { u.pmCreate part with port := ⟨0, false⟩ } :=
  congrArg _ (s.pmWrite_served d hclk haon hport u part hu hpart State.pmCreate)

theorem exec_pmReset_served : exec (.pmReset true 0xF d) s = .next { u.pmEnd part .byReset with port := ⟨0, false⟩ } :=
  congrArg _ (s.pmWrite_served d hclk haon hport u part hu hpart fun t p => t.pmEnd p .byReset)

theorem exec_pmDestroy_served : exec (.pmDestroy true 0xF d) s = .next { u.pmEnd part .byDestroy with port := ⟨0, false⟩ } :=
  congrArg _ (s.pmWrite_served d hclk haon hport u part hu hpart fun t p => t.pmEnd p .byDestroy)

theorem exec_pm_barred (n : Nat) (hbar : u.pmBar = some n) : ∀ c ∈ [Instr.pmCreate true 0xF d, .pmDestroy true 0xF d, .pmReset true 0xF d],
    exec c s = .next { u.pmReject n part with port := ⟨0, false⟩ } := by
  simp only [List.forall_mem_cons, exec_pmCreate_served s d hclk haon hport u part hu hpart,
    exec_pmDestroy_served s d hclk haon hport u part hu hpart, exec_pmReset_served s d hclk haon hport u part hu hpart,
    u.pmCreate_barred part n hbar, u.pmEnd_barred part _ n hbar, List.not_mem_nil, false_imp_iff, implies_true, and_self]

theorem exec_pmEnd_absent (hbar : u.pmBar = none) (habsent : u.part part = none) :
    ∀ c ∈ [Instr.pmDestroy true 0xF d, .pmReset true 0xF d], exec c s = .next { u.pmReject 2 part with port := ⟨0, false⟩ } := by
  simp only [List.forall_mem_cons, exec_pmDestroy_served s d hclk haon hport u part hu hpart,
    exec_pmReset_served s d hclk haon hport u part hu hpart, u.pmEnd_absent part hbar _ habsent, List.not_mem_nil, false_imp_iff,
    implies_true, and_self]

end ManagerWrite

/-! ### Partition reset (R192, R193) -/

/-- A driver's reset spares queue 0 (R192). -/
theorem exec_partitionReset (s : State) (rid : Nat) (r : Req) (hreq : s.req rid = some r) (hphase : r.phase = .admitted)
    (hop : r.opcode = Opc.partitionReset) :
    exec (.partitionReset rid) s = .next ((s.setPhase rid .resetting).beginReset r.part (.byDriver rid) false) := by
  change execPartitionReset rid s = _
  simp only [execPartitionReset, s.fresh_some rid r (fun r => r.opcode == Opc.partitionReset) hreq hphase (beq_iff_eq.2 hop)]

theorem State.partFabIdle_iff (s : State) (k : Nat) : s.partFabIdle k = true ↔ ∀ t ∈ s.fab, t.part ≠ k := by
  simp [State.partFabIdle]

theorem State.noStreams_iff (s : State) (k : Nat) :
    s.seals.streams.all (fun y => y.2.part != k) = true ↔ ∀ y ∈ s.seals.streams, y.2.part ≠ k := by
  simp

section PartitionReset

variable (s : State) (k : Nat) (p : Partition) (x : PartReset) (hp : s.part k = some p) (hx : p.reset = some x)
include hp hx

theorem exec_partResetFabricIdle : exec (.partResetFabricIdle k) s = .next (if x.closing then s.resetOn k
    else if s.partFabIdle k ∧ !(s.dropping k) then (s.resetClose k).resetOn k else s) := by
  change execPartResetFabricIdle k s = _
  simp only [execPartResetFabricIdle, hp, Option.bind_some, hx]

theorem exec_partResetFabricIdle_closes (hclosing : x.closing = false) (hfab : ∀ t ∈ s.fab, t.part ≠ k) (hdrop : s.dropping k = false) :
    exec (.partResetFabricIdle k) s = .next ((s.resetClose k).resetOn k) := by
  rw [exec_partResetFabricIdle s k p x hp hx, if_neg (by simp [hclosing]), if_pos ⟨(s.partFabIdle_iff k).2 hfab, by simp [hdrop]⟩]

theorem exec_partResetFabricIdle_waits (hclosing : x.closing = false) (h : (∃ t ∈ s.fab, t.part = k) ∨ s.dropping k = true) :
    exec (.partResetFabricIdle k) s = .next s := by
  rw [exec_partResetFabricIdle s k p x hp hx, if_neg (by simp [hclosing]), if_neg]
  rintro ⟨hidle, hdone⟩
  rcases h with ⟨t, ht, hk⟩ | hdrop
  · exact (s.partFabIdle_iff k).1 hidle t ht hk
  · simp [hdrop] at hdone

theorem State.resetOn_ends (hclosing : x.closing = true) (hack : x.waitAck = none) (hstreams : ∀ y ∈ s.seals.streams, y.2.part ≠ k) :
    s.resetOn k = s.endReset k x := by
  simp only [State.resetOn, hp, Option.bind_some, hx]
  exact if_pos ⟨hclosing, by simp [hack], (s.noStreams_iff k).2 hstreams⟩

theorem State.resetOn_waits (h : ∃ y ∈ s.seals.streams, y.2.part = k) : s.resetOn k = s := by
  obtain ⟨y, hy, hk⟩ := h
  simp only [State.resetOn, hp, Option.bind_some, hx]
  exact if_neg fun ⟨_, _, hnone⟩ => (s.noStreams_iff k).1 hnone y hy hk

end PartitionReset

/-- Settles O46: a write of PM_CMD by the first of R177's tests that fails, and a reset by what still holds it back. -/
theorem partitionCommands : Obligations.PartitionCommands := by
  intro s u part d hclk haon hport hu hpart
  obtain ⟨regs, hregs⟩ : ∃ regs, u = { s with regsBlk := regs } := ⟨_, hu.trans (State.cmdRw_eq _ _ _ _ _ _)⟩
  have hpm : u.pm = s.pm := by rw [hregs]
  have hserve : u.serving = s.serving := by rw [hregs]; rfl
  have hparts : ∀ k, u.part k = s.part k := fun k => by rw [hregs]; rfl
  have hresets : u.ownReset part = s.ownReset part := by rw [hregs]; rfl
  have hcreate := exec_pmCreate_served s d hclk haon hport u part hu hpart
  refine ⟨fun c hc => ⟨fun hbusy => ?busy, fun hbusy hserving => ?notServing⟩, fun hbusy hserving c hc habsent => ?absent,
    fun p hbusy hserving hp hown => ?present, fun hbusy hserving habsent => ?creates, fun rid r hreq hphase hop => ?driver,
    fun k p x hp hx => ⟨exec_partResetFabricIdle_closes s k p x hp hx, exec_partResetFabricIdle_waits s k p x hp hx,
      fun hclosing hack hstreams => ?ends, fun hclosing hstream => ?streams⟩⟩
  case busy => exact exec_pm_barred s d hclk haon hport u part hu hpart 7 (u.pmBar_busy (hpm ▸ hbusy)) c hc
  case notServing =>
    exact exec_pm_barred s d hclk haon hport u part hu hpart 6 (u.pmBar_notServing (hpm ▸ hbusy) (hserve.trans hserving)) c hc
  case driver => exact exec_partitionReset s rid r hreq hphase hop
  case ends =>
    rw [exec_partResetFabricIdle s k p x hp hx, if_pos hclosing, s.resetOn_ends k p x hp hx hclosing hack hstreams]
  case streams => rw [exec_partResetFabricIdle s k p x hp hx, if_pos hclosing, s.resetOn_waits k p x hp hx hstream]
  all_goals have hbar := u.pmBar_eq_none (hpm ▸ hbusy) (hserve.trans hserving)
  case absent => exact exec_pmEnd_absent s d hclk haon hport u part hu hpart hbar ((hparts part).trans habsent) c hc
  case present =>
    have hexists : u.part part ≠ none := by simp [hparts, hp]
    have hown' : u.ownReset part = false := hresets.trans hown
    rw [hcreate, exec_pmReset_served s d hclk haon hport u part hu hpart, exec_pmDestroy_served s d hclk haon hport u part hu hpart,
      u.pmCreate_exists part hbar hexists hown', u.pmEnd_begins part hbar _ hexists hown', u.pmEnd_begins part hbar _ hexists hown']
    exact ⟨rfl, rfl, rfl⟩
  case creates =>
    have hnone : u.part part = none := (hparts part).trans habsent
    rw [hcreate]
    refine ⟨fun hassign => ?badAssign, fun hassign hpools => ?noPool, fun hassign hpools hpower => ?noPower,
      fun hassign hpools hpower => ?taken⟩
    case badAssign => rw [u.pmCreate_badAssign part hbar hnone hassign]; rfl
    case noPool => rw [u.pmCreate_noPool part hbar hnone hassign hpools]; rfl
    case noPower => rw [u.pmCreate_noPower part hbar hnone hassign hpools hpower]; rfl
    case taken =>
      obtain ⟨t, vt, ht, hnew, hothers, hdone, hchange, hframe⟩ := u.pmCreate_taken part hbar hnone hassign hpools hpower
      rw [ht]
      refine ⟨_, _, rfl, hnew, rfl, rfl, rfl, rfl, fun k hk => (hothers k hk).trans (hparts k), ?_, ?_, ?_, hchange, ?_⟩
      · exact congrArg Pm.busy hdone
      · exact congrArg Pm.done hdone
      · exact congrArg Pm.lastPart hdone
      · exact congrArg (fun v : State => { v with port := ⟨0, false⟩ }) hframe

/-! ### Interrupt vectors (R195, R196, R558) -/

section Vectors

variable (s : State) (part vec : Nat) (x : Partition) (hx : s.part part = some x)
include hx

theorem State.unmasked_of_not_pend (hpend : (x.vec vec).pend = false) : s.unmasked part vec = s := by
  simp [State.unmasked, hx, hpend]

/-- Without an event counted a new COAL_CNT meets no trigger; COAL_US 0 stops the timer. -/
theorem State.recoal_of_count_zero (hcount : (x.vec vec).count = 0) :
    s.recoal part vec = { s with parts := (s.recoal part vec).parts } ∧
    ∃ y, (s.recoal part vec).part part = some y ∧ y.regs = x.regs := by
  simp only [State.recoal, hx, hcount, ne_eq, not_true_eq_false, false_and, if_false]
  split
  · exact ⟨rfl, _, s.part_updPart part _ x hx, rfl⟩
  · exact ⟨rfl, x, hx, rfl⟩

/-- A vector that the partition has not takes no write (R195). -/
theorem exec_vecCtlWrite_beyond (ben : BitVec 4) (d : Word) (hclk : s.pins.fabClk = true) (haon : s.pins.aonRel = true)
    (hport : s.portErr false false (pageAt part (0x40C + 16 * vec)) = false) (hvec : x.assign.vectors ≤ vec) :
    exec (.vecCtlWrite part vec ben d) s = .next { s with port := ⟨0, false⟩ } := by
  refine (congrArg _ (s.portWrite_served false _ ben false _ hclk hport (.inl rfl) haon)).trans ?_
  simp only [hx, Option.elim, decide_eq_true hvec, if_true]

theorem exec_vecCtlWrite_taken (ben : BitVec 4) (d : Word) (hclk : s.pins.fabClk = true) (haon : s.pins.aonRel = true)
    (hport : s.portErr false false (pageAt part (0x40C + 16 * vec)) = false) (hvec : vec < x.assign.vectors) :
    exec (.vecCtlWrite part vec ben d) s = .next { ((s.updPart part (fun p =>
      p.rw (0x40C + 16 * vec) ben d)).unmasked part vec).recoal part vec with port := ⟨0, false⟩ } := by
  refine (congrArg _ (s.portWrite_served false _ ben false _ hclk hport (.inl rfl) haon)).trans ?_
  simp only [hx, Option.elim, decide_eq_false (Nat.not_le.2 hvec), Bool.false_eq_true, if_false]

theorem exec_vectorCoalExpiry : exec (.vectorCoalExpiry part vec) s = .next (if (x.vec vec).timer then
    (s.updPart part (fun y => y.setVec vec { y.vec vec with timer := false })).trigger part vec else s) := by
  change execVectorCoalExpiry part vec s = _
  simp only [execVectorCoalExpiry, hx]

theorem State.mem_vecsNamed_iff (d : Word) (v : Nat) :
    v ∈ s.vecsNamed part d ↔ v < 32 ∧ d.getLsbD v = true ∧ v < x.assign.vectors := by
  simp [State.vecsNamed, hx]

end Vectors

/-- VEC_MSET and VEC_MCLR need every byte (R75). -/
theorem exec_vecMset_served (s : State) (part : Nat) (d : Word) (hclk : s.pins.fabClk = true) (haon : s.pins.aonRel = true)
    (hport : s.portErr false false (pageAt part 0x38) = false) : exec (.vecMset part 0xF d) s =
      .next { (s.vecsNamed part d).foldl (fun t v => t.setMask part v true) s with port := ⟨0, false⟩ } :=
  congrArg _ (s.portWrite_served false _ 0xF true _ hclk hport (.inr rfl) haon)

theorem exec_vecMclr_served (s : State) (part : Nat) (d : Word) (hclk : s.pins.fabClk = true) (haon : s.pins.aonRel = true)
    (hport : s.portErr false false (pageAt part 0x3C) = false) : exec (.vecMclr part 0xF d) s =
      .next { (s.vecsNamed part d).foldl (fun t v => (t.setMask part v false).unmasked part v) s with port := ⟨0, false⟩ } :=
  congrArg _ (s.portWrite_served false _ 0xF true _ hclk hport (.inr rfl) haon)

theorem Partition.vec_rw (p : Partition) (off : Nat) (ben : BitVec 4) (d : Word) (v : Nat) : (p.rw off ben d).vec v = p.vec v := by
  rw [Partition.rw_eq]
  rfl

/-- Settles O58: VEC_CTL by its vector, VEC_MSET by an induction over the vectors it names, the timer by whether it runs. -/
theorem interruptVectors : Obligations.InterruptVectors := by
  intro s part vec x hx
  refine ⟨fun ben d hclk haon hport => ⟨exec_vecCtlWrite_beyond s part vec x hx ben d hclk haon hport,
      fun hvec hpend hcount => ?written⟩,
    fun d hclk haon hport => ?masks, fun d hclk haon hport => ?unmasks, fun htimer => ?expired, fun htimer => ?noTimer⟩
  case written =>
    have hrw := s.part_updPart part (fun p => p.rw (0x40C + 16 * vec) ben d) x hx
    obtain ⟨hframe, y, hy, hregs⟩ := State.recoal_of_count_zero _ part vec _ hrw ((congrArg Vec.count (x.vec_rw _ ben d vec)).trans hcount)
    rw [exec_vecCtlWrite_taken s part vec x hx ben d hclk haon hport hvec,
      State.unmasked_of_not_pend _ part vec _ hrw ((congrArg Vec.pend (x.vec_rw _ ben d vec)).trans hpend)]
    exact ⟨_, y, rfl, hy, hregs, congrArg (fun v : State => { v with port := ⟨0, false⟩ }) hframe⟩
  case unmasks => exact exec_vecMclr_served s part d hclk haon hport
  case masks =>
    have hnamed := s.mem_vecsNamed_iff part x hx d
    obtain ⟨t, y, ht, hy, hmask, hframe⟩ := State.foldl_setMask_spec (s.vecsNamed part d) part s x (fun v hv => ((hnamed v).1 hv).1) hx
    rw [exec_vecMset_served s part d hclk haon hport, ht]
    refine ⟨_, y, rfl, hy, fun v hv hd hvec => ?_, congrArg (fun v : State => { v with port := ⟨0, false⟩ }) hframe⟩
    simp [hmask, (hnamed v).2 ⟨hv, hd, hvec⟩]
  case expired => rw [exec_vectorCoalExpiry s part vec x hx, if_pos htimer]
  case noTimer => rw [exec_vectorCoalExpiry s part vec x hx, if_neg (by simp [htimer])]

end Sys2Proof.Machine
end

section
/-! CIPHER, AEAD, XTS and MAC as they are admitted (spec/06 R211, R219, R226, spec/08 R275, spec/11 R371), and groves and suspension
(spec/07 R235, R239, R249, R254, spec/09 R310, R311): the statements O37 and O43 of spec/00_scope.md. -/

namespace Sys2Proof.Machine

/-! ### The ordered checks of a cipher entry (R219) -/

section CipherChecks
variable (s : State) (part : Nat) (e : Bytes)

theorem State.cipherChecks_malformed (hbody : cipherBodyOk e = false) : s.cipherChecks part e = some (St.malformed, 0x0A) := by
  simp [State.cipherChecks, firstFail, must, hbody]

variable (hbody : cipherBodyOk e = true)
include hbody

theorem State.cipherChecks_unsupported (hun : cipherUnsupported e = true) : s.cipherChecks part e = some (St.unsupported, 0) := by
  simp [State.cipherChecks, firstFail, must, hbody, hun]

variable (hun : cipherUnsupported e = false)
include hun

theorem State.cipherChecks_slot (f : Nat × Nat) (hslot : s.cipherSlot part e = some f) : s.cipherChecks part e = some f := by
  simp [State.cipherChecks, firstFail, must, hbody, hun, hslot]

theorem State.cipherChecks_limit (hslot : s.cipherSlot part e = none) :
    s.cipherChecks part e = (cipherLimit e).map (fun d => (St.lengthMismatch, d)) := by
  cases hlim : cipherLimit e <;> simp [State.cipherChecks, firstFail, must, hbody, hun, hslot, hlim]

end CipherChecks

/-! ### Joining a wait -/

/-- From `s` to `t` the request has begun to wait in a phase; beside it only the virtual times and the identifiers have moved. -/
structure State.WaitsIn (s t : State) (rid : Nat) (r : Req) (ph : ReqPhase) : Prop where
  req : ∃ n, t.req rid = some { r with phase := ph, waitSeq := n }
  frame : t = { s with reqs := t.reqs, parts := t.parts, nextId := t.nextId }

/-- A change of the requests alone before the wait begins belongs to the same step. -/
theorem State.WaitsIn.of_reqs {s t u : State} {rid : Nat} {r : Req} {ph : ReqPhase} (h : u.WaitsIn t rid r ph)
    (hu : u = { s with reqs := u.reqs }) : s.WaitsIn t rid r ph :=
  ⟨h.req, h.frame.trans (by rw [hu])⟩

/-- The phase in which a checked request waits for its unit (R226). -/
def Req.queueWait (r : Req) : ReqPhase := if r.stagingNeed = 0 then .waitPlace else .waitStaging

section Waits
variable (s : State) (rid : Nat) (r : Req) (hreq : s.req rid = some r)
include hreq

theorem State.enqueue_waitsIn : s.WaitsIn (s.enqueue rid) rid r r.queueWait := by
  obtain ⟨t, x, ht, hx, hxr, hframe⟩ := s.enqueue_spec rid r hreq
  refine ht ▸ ⟨⟨x.waitSeq, hx.trans (congrArg some hxr)⟩, ?_⟩
  rw [hframe]

theorem State.needRandom_waitsIn :
    s.WaitsIn (s.needRandom rid) rid r (if s.rng.ready = false then .waitRand else r.queueWait) := by
  cases hrng : s.rng.ready with
  | true => simpa [State.needRandom, hrng] using s.enqueue_waitsIn rid r hreq
  | false =>
    have hwait : s.needRandom rid = s.setPhase rid .waitRand := by simp [State.needRandom, hrng]
    rw [hwait]
    exact ⟨⟨r.waitSeq, s.req_updReq rid r _ hreq⟩, rfl⟩

end Waits

/-! ### The first wait of a cipher entry -/

theorem exec_cipher (s : State) (rid : Nat) : exec (.cipher rid) s = .next (s.cipherStart rid Opc.cipher) := rfl
theorem exec_aead (s : State) (rid : Nat) : exec (.aead rid) s = .next (s.cipherStart rid Opc.aead) := rfl
theorem exec_xts (s : State) (rid : Nat) : exec (.xts rid) s = .next (s.cipherStart rid Opc.xts) := rfl
theorem exec_mac (s : State) (rid : Nat) : exec (.mac rid) s = .next (s.cipherStart rid Opc.mac) := rfl

/-- The account that a request of an IV source names: the ledger's is that of its slot, which a slot without history lacks (R275). -/
def State.acctFor (s : State) (src : IvSource) (g : Nat) (r : Req) : Option Nat :=
  if src = .ledger then (if (s.slot g).st = .noHistory then none else s.acctOf (s.slot g)) else r.acct

section CipherStart
variable (s : State) (rid op : Nat) (r : Req) (hreq : s.req rid = some r) (hph : r.phase = .admitted) (hop : r.opcode = op)
include hreq hph hop

theorem State.cipherStart_fails (f : Nat × Nat) (hchk : s.cipherChecks r.part r.entry = some f) :
    s.cipherStart rid op = s.reject rid f.1 f.2 := by
  have hfresh := s.fresh_some rid r (fun r => r.opcode == op) hreq hph (by simp [hop])
  simp only [State.cipherStart, hfresh, hchk]

/-- A request that passes keeps its key and begins the wait that its IV source asks for. -/
theorem State.cipherStart_waitsIn (hchk : s.cipherChecks r.part r.entry = none) (g : Nat) (hg : g = s.gOf r.part (cSlot r.entry))
    (src : IvSource) (hsrc : src = ivSource r.entry (s.slot g).attr) :
    s.WaitsIn (s.cipherStart rid op) rid { r with keys := [(g, s.keyIdOf g)], acct := s.acctFor src g r }
      (if src = .drbg ∧ s.rng.ready = false then .waitRand else r.queueWait) := by
  have hfresh := s.fresh_some rid r (fun r => r.opcode == op) hreq hph (by simp [hop])
  have hkeys := s.req_useKeys rid r [g] hreq
  simp only [State.cipherStart, hfresh, hchk, ← hg, ← hsrc]
  cases src with
  | ledger => exact (State.enqueue_waitsIn _ rid _ (State.req_updReq _ rid _ _ hkeys)).of_reqs rfl
  | drbg => simpa [State.acctFor, Req.queueWait, Req.stagingNeed] using (State.needRandom_waitsIn _ rid _ hkeys).of_reqs rfl
  | none => exact (State.enqueue_waitsIn _ rid _ hkeys).of_reqs rfl
  | field => exact (State.enqueue_waitsIn _ rid _ hkeys).of_reqs rfl

end CipherStart

/-- Settles O37: the checks in their order, then the wait by IV source; the four commands differ in their opcode alone. -/
theorem cipherRequests : Obligations.CipherRequests := by
  intro s rid r hreq hph
  refine ⟨s.cipherChecks_malformed r.part r.entry, s.cipherChecks_unsupported r.part r.entry,
    fun f hbody hun => s.cipherChecks_slot r.part r.entry hbody hun f, fun d hbody hun hslot hlim => ?limit, fun f hchk => ?fails,
    fun g src hbody hun hslot hlim hg hsrc => ?passes⟩
  case limit => rw [s.cipherChecks_limit r.part r.entry hbody hun hslot, hlim]; rfl
  case fails =>
    have hstart := fun op hop => s.cipherStart_fails rid op r hreq hph hop f hchk
    rw [exec_cipher, exec_aead, exec_xts, exec_mac]
    exact ⟨fun hop => by rw [hstart _ hop], fun hop => by rw [hstart _ hop], fun hop => by rw [hstart _ hop],
      fun hop => by rw [hstart _ hop]⟩
  case passes =>
    have hchk : s.cipherChecks r.part r.entry = none := by rw [s.cipherChecks_limit r.part r.entry hbody hun hslot, hlim]; rfl
    obtain ⟨⟨n, hx⟩, hframe⟩ := s.cipherStart_waitsIn rid r.opcode r hreq hph rfl hchk g hg src hsrc
    rw [exec_cipher, exec_aead, exec_xts, exec_mac]
    exact ⟨_, _, fun hop => by rw [hop], fun hop => by rw [hop], fun hop => by rw [hop], fun hop => by rw [hop], hx, rfl, rfl, rfl,
      rfl, hframe⟩

/-! ### Groves: their start and their segments (R239, R240, R254) -/

theorem exec_groveFormed (s : State) (rid : Nat) (r : Req) (hreq : s.req rid = some r) (hph : r.phase = .forming) :
    exec (.groveFormed rid) s =
      .next (if ∀ u ∈ r.units, (s.unit u).power = .awake then (s.setPhase rid .reading).advance rid else s) := by
  change execGroveFormed rid s = _
  simp only [execGroveFormed, hreq, hph, true_and, List.all_eq_true, beq_iff_eq]

theorem State.writeOut_eq (s : State) (r : Req) (off : Nat) (bs : Bytes) (pf : Purpose) :
    s.writeOut r off bs pf = { s with fab := (s.writeOut r off bs pf).fab } := by
  unfold State.writeOut
  generalize spread r.dstElems off bs.length 0 = l
  induction l generalizing s with
  | nil => rfl
  | cons p l ih => rw [List.foldl_cons, ih]; rfl

/-- Writing a segment's output moves nothing of the segments but how far each is written. -/
theorem State.putSeg_spec (s : State) (rid : Nat) (r : Req) (g : Segment) (n : Nat) (hreq : s.req rid = some r) :
    ∃ (w : Segment → Nat) (c : Bool),
      (s.putSeg rid r g n).req rid = some { r with segs := r.segs.map (fun y => { y with wrote := w y }), clean := c } ∧
      s.putSeg rid r g n = { s with reqs := (s.putSeg rid r g n).reqs, fab := (s.putSeg rid r g n).fab } := by
  unfold State.putSeg
  split
  · exact ⟨Segment.wrote, r.clean, by simpa using hreq, rfl⟩
  · have hmap : r.segs.map (fun (h : Segment) => if h.start = g.start then { h with wrote := n } else h) =
        r.segs.map (fun y => { y with wrote := if y.start = g.start then n else y.wrote }) :=
      List.map_congr_left (fun y _ => by split <;> rfl)
    refine ⟨fun y => if y.start = g.start then n else y.wrote, false, ?_, ?_⟩ <;> rw [State.writeOut_eq]
    · exact (s.req_updReq rid r _ hreq).trans (by rw [hmap])
    · rfl

/-- What is left of an early output of the segment is written (R240). -/
def State.flushSeg (s : State) (rid : Nat) (r : Req) (g : Segment) : State :=
  if r.early then s.putSeg rid r g (g.size r.entry) else s

theorem State.flushSeg_spec (s : State) (rid : Nat) (r : Req) (g : Segment) (hreq : s.req rid = some r) :
    ∃ (w : Segment → Nat) (c : Bool),
      (s.flushSeg rid r g).req rid = some { r with segs := r.segs.map (fun y => { y with wrote := w y }), clean := c } ∧
      s.flushSeg rid r g = { s with reqs := (s.flushSeg rid r g).reqs, fab := (s.flushSeg rid r g).fab } := by
  unfold State.flushSeg
  split
  · exact s.putSeg_spec rid r g _ hreq
  · exact ⟨Segment.wrote, r.clean, by simpa using hreq, rfl⟩

/-- A lane ends its segment, and the idle lanes pick up what waits (R254). -/
def State.endSegment (s : State) (rid lane : Nat) (r : Req) (g : Segment) : State :=
  ((s.flushSeg rid r g).updReq rid (fun x => { x with segs := finishSeg x.segs lane })).pickUp rid

/-- The segments once a lane's is done and the idle lanes have picked up what waits. -/
def afterSegment (idle : List Nat) (lane : Nat) (segs : List Segment) : List Segment := handOut idle (finishSeg segs lane)

theorem afterSegment_ranges (idle : List Nat) (lane : Nat) (segs : List Segment) :
    (afterSegment idle lane segs).map (fun y => (y.start, y.len)) = segs.map (fun y => (y.start, y.len)) := by
  have h := congrArg (List.map (fun p : Nat × Nat × Bool => (p.1, p.2.1))) (handOut_ranges idle (finishSeg segs lane))
  simp only [List.map_map, Function.comp_def] at h
  exact h.trans (finishSeg_ranges segs lane)

theorem mem_afterSegment_done {idle : List Nat} {lane : Nat} {segs : List Segment} {g : Segment} (h : g ∈ segs)
    (hlane : g.lane = some lane) (hdone : g.done = false) : { g with done := true } ∈ afterSegment idle lane segs :=
  mem_handOut idle _ _ ((mem_finishSeg segs lane g h).1 hlane hdone) (.inl rfl)

theorem mem_afterSegment_other {idle : List Nat} {lane : Nat} {segs : List Segment} {g : Segment} (h : g ∈ segs)
    (hlane : g.lane ≠ some lane) (hnone : g.lane ≠ none) : g ∈ afterSegment idle lane segs :=
  mem_handOut idle _ _ ((mem_finishSeg segs lane g h).2 hlane) (.inr hnone)

section SegmentDone
variable (s : State) (rid lane : Nat) (r : Req) (hreq : s.req rid = some r)
include hreq

theorem exec_segmentDone_none (hfind : r.segs.find? (fun y => y.lane == some lane && !y.done) = none) :
    exec (.segmentDone rid lane) s = .next s := by
  change execSegmentDone rid lane s = _
  simp only [execSegmentDone, hreq, hfind]

theorem exec_segmentDone_arrived (hph : r.phase = .reading ∨ r.phase = .ready) (hdrawn : r.drawn = true) (g : Segment)
    (hfind : r.segs.find? (fun y => y.lane == some lane && !y.done) = some g)
    (harr : r.arrived (g.off r.entry) (g.size r.entry) = g.size r.entry) :
    exec (.segmentDone rid lane) s = .next (s.endSegment rid lane r g) := by
  have hwork : r.atWork = true := by rcases hph with h | h <;> simp [Req.atWork, hdrawn, h]
  have hrun : ¬ r.phase = .capturing := by rcases hph with h | h <;> simp [h]
  change execSegmentDone rid lane s = _
  simp only [execSegmentDone, hreq, hfind, hwork, harr, and_self, if_true, hrun, if_false]
  rfl

/-- The request after a segment's end: the rest of it as it was. -/
theorem State.endSegment_spec (g : Segment) :
    ∃ (idle : List Nat) (w : Segment → Nat) (c : Bool),
      (s.endSegment rid lane r g).req rid =
        some { r with segs := afterSegment idle lane (r.segs.map (fun y => { y with wrote := w y })), clean := c } ∧
      s.endSegment rid lane r g = { s with reqs := (s.endSegment rid lane r g).reqs, fab := (s.endSegment rid lane r g).fab } := by
  obtain ⟨w, c, hflush, hframe⟩ := s.flushSeg_spec rid r g hreq
  unfold State.endSegment
  generalize s.flushSeg rid r g = v at hflush hframe
  exact ⟨_, w, c, State.req_updReq _ rid _ _ (v.req_updReq rid _ _ hflush), by rw [hframe]; rfl⟩

end SegmentDone

/-! ### Suspension (R235, R249, R310, R311) -/

theorem State.frameWaits_of_no_stream (s : State) (h : s.seals.streams = []) : s.frameWaits = [] := by
  simp [State.frameWaits, State.boundStreams, h]

/-- Without a seal stream the grants that frames asked for are withdrawn, and nothing else happens. -/
theorem State.serveFrames_withdraws (s : State) (h : s.seals.streams = []) :
    s.serveFrames = { s with gov := { s.gov with grants := s.gov.grants.filter (fun g => g.frameOf.isNone) } } := by
  have hkeep : ∀ g : Grant, g.frameOf.elim true (fun k => s.frameWaits.any (fun p => p.1 == k)) = g.frameOf.isNone := by
    intro g
    cases g.frameOf <;> simp [s.frameWaits_of_no_stream h]
  rw [s.serveFrames_of_no_stream h, State.trimFrames]
  simp only [hkeep]

/-- A digest lane's request issues no output before its last cycle, so that a stop has none to write (R249). -/
theorem State.writeStopped_of_digest (s : State) (rid : Nat) (r : Req) (b : Nat) (hg : r.g0 < 2) (hop : 5 ≤ r.origOp) :
    s.writeStopped rid r b = s := by
  have hearly : r.early = false := by
    have : ¬ (1 ≤ r.origOp ∧ r.origOp ≤ 3) := by omega
    simp [Req.early, this]
  rw [State.writeStopped, if_neg (by omega), hearly]
  rfl

/-- From `s` to `t` the request has left its unit `u` idle and uncharged, and waits for its place again with its context in reserved
tiles or in the unit's save area. -/
structure State.ContextKept (s t : State) (rid u : Nat) (r : Req) : Prop where
  req : ∃ x, t.req rid = some x ∧ x.phase = .waitPlace ∧ x.units = [] ∧ (x.ctxTiles = r.tilesT ∨ (t.unit u).save = some rid)
  idle : (t.unit u).work = .idle
  uncharged : (t.unit u).charge = none
  frame : t = { s with units := t.units, reqs := t.reqs, parts := t.parts, nextId := t.nextId }

/-- A change of units, requests and virtual times alone before the context is kept belongs to the same step. -/
theorem State.ContextKept.of_frame {s v t : State} {rid u : Nat} {r : Req} (h : v.ContextKept t rid u r)
    (hv : v = { s with units := v.units, reqs := v.reqs, parts := v.parts, nextId := v.nextId }) : s.ContextKept t rid u r :=
  ⟨h.req, h.idle, h.uncharged, h.frame.trans (by rw [hv])⟩

theorem State.ContextKept.untouched {s t : State} {rid u : Nat} {r : Req} (h : s.ContextKept t rid u r) :
    t.gov = s.gov ∧ t.seals = s.seals ∧ t.fab = s.fab ∧ t.hw = s.hw ∧ t.flt = s.flt ∧ t.mode = s.mode ∧ t.pins = s.pins := by
  rw [h.frame]
  exact ⟨rfl, rfl, rfl, rfl, rfl, rfl, rfl⟩

theorem State.toPlace_contextKept (s : State) (rid u : Nat) (r x : Req) (hreq : s.req rid = some x) (hnone : x.units = [])
    (hctx : x.ctxTiles = r.tilesT ∨ (s.unit u).save = some rid) (hidle : (s.unit u).work = .idle) (hcharge : (s.unit u).charge = none) :
    s.ContextKept (s.toPlace rid) rid u r := by
  obtain ⟨hplaced, hframe⟩ := s.toPlace_spec rid x hreq
  have hunit : (s.toPlace rid).unit u = s.unit u := by rw [hframe]; rfl
  exact ⟨⟨_, hplaced, rfl, hnone, hunit.symm ▸ hctx⟩, hunit.symm ▸ hidle, hunit.symm ▸ hcharge, by rw [hframe]⟩

/-- R311: the tiles are taken where they fit, and else the save area of the lane. -/
theorem State.keepContext_contextKept (s : State) (rid u : Nat) (r x : Req) (hreq : s.req rid = some x) (hvictim : r.victimOf = none)
    (hnone : x.units = []) (hu : (Store.find s.units u).isSome = true) (hidle : (s.unit u).work = .idle)
    (hcharge : (s.unit u).charge = none) : s.ContextKept (s.keepContext rid u r) rid u r := by
  simp only [State.keepContext, hvictim, Option.isSome_none, Bool.false_eq_true, if_false]
  split
  case isTrue =>
    exact (State.toPlace_contextKept _ rid u r _ (s.req_updReq rid x (fun y => { y with ctxTiles := r.tilesT }) hreq) hnone (.inl rfl)
      hidle hcharge).of_frame rfl
  case isFalse =>
    have hsaved := s.unit_updUnit u (fun y => { y with save := some rid }) hu
    exact (State.toPlace_contextKept (s.updUnit u (fun y => { y with save := some rid })) rid u r x hreq hnone
      (.inr (by rw [hsaved])) (by rw [hsaved]; exact hidle) (by rw [hsaved]; exact hcharge)).of_frame rfl

/-- The request of a captured context holds no unit, and its open segments no lane. -/
def Req.released (x : Req) : Req :=
  { x with units := [], victimOf := none, ran := false
           segs := x.segs.map (fun (g : Segment) => if g.done then g else { g with lane := none }) }

/-- Without an ending or an urgent request the unit is freed and the context kept, and seal work then takes its turn. -/
theorem State.stopWhole_of_one_unit (s : State) (rid u : Nat) (r : Req) (hend : r.ending = none) (hunits : r.units = [u])
    (hvictim : r.victimOf = none) :
    s.stopWhole rid r = (((s.freeUnit u).updReq rid Req.released).keepContext rid u r).serveFrames := by
  simp only [State.stopWhole, hend, hunits, hvictim, State.freeUnits, List.foldl_cons, List.foldl_nil, List.headD_cons, State.urgentTakes]
  rfl

theorem State.unit_freeUnit (s : State) (u : Nat) (hu : (Store.find s.units u).isSome = true) :
    ((s.freeUnit u).unit u).work = .idle ∧ ((s.freeUnit u).unit u).charge = none := by
  have h : (s.freeUnit u).unit u = _ := s.unit_updUnit u _ hu
  rw [h]
  exact ⟨rfl, rfl⟩

/-- The whole request stops on its one unit. -/
theorem State.stopWhole_contextKept (s : State) (rid u : Nat) (r : Req) (hreq : s.req rid = some r) (hend : r.ending = none)
    (hunits : r.units = [u]) (hvictim : r.victimOf = none) (hu : (Store.find s.units u).isSome = true) (hno : s.seals.streams = []) :
    ∃ t, s.ContextKept t rid u r ∧
      s.stopWhole rid r = { t with gov := { s.gov with grants := s.gov.grants.filter (fun g => g.frameOf.isNone) } } := by
  have hfree := s.unit_freeUnit u hu
  have hkept := (State.keepContext_contextKept _ rid u r _ ((s.freeUnit u).req_updReq rid r Req.released hreq) hvictim rfl
    (by simpa [State.freeUnit, State.bump, State.updUnit, State.updReq] using hu) hfree.1 hfree.2).of_frame (s := s) rfl
  rw [s.stopWhole_of_one_unit rid u r hend hunits hvictim]
  generalize State.keepContext _ rid u r = t at hkept
  refine ⟨t, hkept, ?_⟩
  obtain ⟨hgov, hseals, -⟩ := hkept.untouched
  rw [t.serveFrames_withdraws (hseals ▸ hno), hgov]

section SuspendCapture
variable (s : State) (rid b c : Nat) (r : Req) (hreq : s.req rid = some r) (hph : r.phase = .capturing)
include hreq hph

theorem exec_suspendCapture_early (hstop : r.stopOk b = false) : exec (.suspendCapture rid b c) s = .next s := by
  change execSuspendCapture rid b c s = _
  simp only [execSuspendCapture, hreq, hph, hstop, Bool.not_false, if_true]

theorem exec_suspendCapture_stops (hstop : r.stopOk b = true) :
    exec (.suspendCapture rid b c) s = .next (((s.writeStopped rid r b).chargeV r (c * r.units.length)).stopWhole rid r) := by
  change execSuspendCapture rid b c s = _
  simp only [execSuspendCapture, hreq, hph, hstop, Bool.not_true, Bool.false_eq_true, if_false, if_true]

end SuspendCapture

/-- Settles O43: a grove by its lanes' power, a segment by whether its lane has one to finish, a suspension by whether the request may
stop where it is. -/
theorem grovesAndSuspension : Obligations.GrovesAndSuspension := by
  intro s rid r hreq
  refine ⟨fun hph hawake => ?formed, fun u hph hu hpower => ?forming, fun lane g hph hdrawn hfind harr => ?finished,
    fun lane => exec_segmentDone_none s rid lane r hreq,
    fun u b c hph hstop hend hg hunits hu hvictim _ hop hno => ?captured, fun b c hph => exec_suspendCapture_early s rid b c r hreq hph⟩
  case formed => rw [exec_groveFormed s rid r hreq hph, if_pos hawake]
  case forming => rw [exec_groveFormed s rid r hreq hph, if_neg (fun hawake => hpower (hawake u hu))]
  case finished =>
    obtain ⟨idle, w, cl, hx, hframe⟩ := s.endSegment_spec rid lane r hreq g
    have hmem : ∀ y ∈ r.segs, ({ y with wrote := w y } : Segment) ∈ r.segs.map (fun y => { y with wrote := w y }) :=
      fun y hy => List.mem_map_of_mem hy
    obtain ⟨hlane, hopen⟩ : g.lane = some lane ∧ g.done = false := by simpa using List.find?_some hfind
    refine ⟨_, _, exec_segmentDone_arrived s rid lane r hreq hph hdrawn g hfind harr, hx, ?_, ?_, fun y hy hother hnone => ?_, rfl,
      hframe⟩
    · exact (afterSegment_ranges _ _ _).trans (List.map_map ..)
    · exact ⟨_, mem_afterSegment_done (hmem g (List.mem_of_find?_eq_some hfind)) hlane hopen, rfl, rfl⟩
    · exact ⟨_, mem_afterSegment_other (hmem y hy) hother hnone, rfl, rfl, rfl, rfl⟩
  case captured =>
    have hparts := s.chargeV_eq r (c * r.units.length)
    rw [exec_suspendCapture_stops s rid b c r hreq hph hstop, s.writeStopped_of_digest rid r b hg hop, hparts]
    obtain ⟨t, hkept, hstopped⟩ :=
      State.stopWhole_contextKept { s with parts := (s.chargeV r (c * r.units.length)).parts } rid u r hreq hend hunits hvictim hu hno
    obtain ⟨x, hx, hplace, hfree, hctx⟩ := hkept.req
    obtain ⟨-, -, hsame⟩ := hkept.untouched
    rw [hstopped]
    exact ⟨_, x, rfl, hx, hplace, hfree, hctx, hkept.idle, hkept.uncharged, rfl, hsame⟩

end Sys2Proof.Machine
end

section
/-! PROOF. Context exports, resumption and the export engine (spec/07 R255 to R263, spec/09 R303, R304): what EXPORT_DONE writes, what
CONTEXT_RESUME and DISCARD do with the live export they name, and what an unwrapped record leads to: the statement O44. -/

namespace Sys2Proof.Machine

/-! ### The queue of a request's transactions (R167) -/

/-- A transaction's queue stays when an update of a request keeps its owner and its queue. -/
theorem State.queueOf_updReq (s : State) (rid : Nat) (f : Req → Req) (howner : ∀ r, (f r).owner = r.owner) (hqid : ∀ r, (f r).qid = r.qid)
    (pf : Purpose) : (s.updReq rid f).queueOf pf = s.queueOf pf := by
  have hserved : ∀ n, (Store.find (Store.upd s.reqs rid f) n).bind (fun r => if r.owner = .queue then some r.qid else none) =
      (Store.find s.reqs n).bind (fun r => if r.owner = .queue then some r.qid else none) := by
    intro n
    by_cases hn : rid = n
    · subst hn
      cases hfind : Store.find s.reqs rid <;> simp [hfind, howner, hqid]
    · rw [Store.find_upd_other _ _ _ _ hn]
  cases pf with
  | srcList n | dstList n | src n | recd n | out n | tagOut n | zero n | exp n => exact hserved n
  | _ => rfl

section Transactions
variable {s t : State} (hqueue : ∀ pf, t.queueOf pf = s.queueOf pf)
include hqueue

theorem State.readTxns_congr (part cls addr len : Nat) (pf : Nat → Purpose) :
    t.readTxns part cls addr len pf = s.readTxns part cls addr len pf := by simp only [State.readTxns, hqueue]

theorem State.writeTxns_congr (part cls addr : Nat) (bs : Bytes) (pf : Purpose) :
    t.writeTxns part cls addr bs pf = s.writeTxns part cls addr bs pf := by simp only [State.writeTxns, hqueue]

end Transactions

/-! ### EXPORT_DONE (R256, R259, R303) -/

/-- The context that the engine wraps, under its sequence number. -/
def Req.contextBytes (r : Req) (seq : Nat) : Bytes := (List.range (64 * r.tilesT)).map (Config.ctxByte seq r.part)

theorem Req.length_contextBytes (r : Req) (seq : Nat) : (r.contextBytes seq).length = 64 * r.tilesT := by simp [Req.contextBytes]

/-- The record of R259: the clear head, and the AES-KW output over head and context. -/
def State.exportRecord (s : State) (r : Req) (p : Partition) : Bytes :=
  r.recordHead p.ctxEpoch p.expSeq ++
    kwWrap (s.ctxKey r.part) (r.recordHead p.ctxEpoch p.expSeq ++ r.contextBytes p.expSeq)

/-- The partition once a record has used its EXP_SEQ: 0 is never one. -/
def Partition.seqTaken (p : Partition) : Partition := { p with expSeq := if p.expSeq = 0xFFFFFFFF then 1 else p.expSeq + 1 }

/-- The request takes the partition's EXP_SEQ for its record, and the export is counted. -/
def State.takeExpSeq (s : State) (rid : Nat) (r : Req) (p : Partition) : State :=
  ((s.updPart r.part Partition.seqTaken).updReq rid (fun x => { x with expSeq := p.expSeq })).countP r.part 48 1

theorem State.takeExpSeq_queueOf (s : State) (rid : Nat) (r : Req) (p : Partition) (pf : Purpose) :
    (s.takeExpSeq rid r p).queueOf pf = s.queueOf pf :=
  (s.updPart r.part Partition.seqTaken).queueOf_updReq rid (fun x => { x with expSeq := p.expSeq }) (fun _ => rfl) (fun _ => rfl) pf

theorem State.part_takeExpSeq (s : State) (rid : Nat) (r : Req) (p : Partition) (hpart : s.part r.part = some p) :
    (s.takeExpSeq rid r p).part r.part = some p.seqTaken := s.part_updPart r.part Partition.seqTaken p hpart

section ExportDone
variable (s : State) (rid : Nat) (r : Req) (p : Partition) (hreq : s.req rid = some r) (hpart : s.part r.part = some p)
include hreq

theorem State.req_takeExpSeq : (s.takeExpSeq rid r p).req rid = some { r with expSeq := p.expSeq } :=
  (s.updPart r.part Partition.seqTaken).req_updReq rid r _ hreq

variable (hhead : s.engineHead = some rid)
include hpart hhead

theorem exec_exportDone_writes (hph : r.phase = .exporting) (hout : s.writesOut rid = false) :
    exec (.exportDone rid) s =
      .next ((s.takeExpSeq rid r p).writes r.part 2 (p.expAddr (r.expIdx - 1)) (s.exportRecord r p) (.exp rid)) := by
  have hpass : ¬(r.phase ≠ .exporting ∨ s.writesOut rid = true) := by simp [hph, hout]
  have hwrap : ¬r.phase = .wrapping := by simp [hph]
  change execExportDone rid s = _
  simp only [execExportDone, hreq, hpart, hhead, ne_eq, not_true_eq_false, if_false, if_neg hwrap]
  rw [if_neg hpass]
  rfl

theorem exec_exportDone_emits (hph : r.phase = .wrapping) :
    exec (.exportDone rid) s = .next (s.emitAt rid r (dState r.entry) ((Store.find r.recd wrapKeyOff).getD []) r.result) := by
  change execExportDone rid s = _
  simp only [execExportDone, hreq, hpart, hhead, hph, ne_eq, not_true_eq_false, if_false, if_true]

end ExportDone

/-! ### Checks 1 and 2 of R262 -/

section ResumeCheck
variable (s : State) (r : Req) (p : Partition) (hpart : s.part r.part = some p)
include hpart

theorem State.resumeCheck_index (hidx : p.expCount ≤ rIndex r.entry) : s.resumeCheck r = .error (St.malformed, 0x0A) := by
  simp [State.resumeCheck, hpart, hidx]

variable (hidx : rIndex r.entry < p.expCount)
include hidx

theorem State.resumeCheck_unnamed (hlive : s.liveOf r = none) : s.resumeCheck r = .error (St.contextInvalid, 0x01) := by
  simp [State.resumeCheck, hpart, Nat.not_le.mpr hidx, hlive]

theorem State.resumeCheck_named (l : LiveExp) (hlive : s.liveOf r = some l) : s.resumeCheck r = .ok l := by
  simp [State.resumeCheck, hpart, Nat.not_le.mpr hidx, hlive]

end ResumeCheck

/-! ### CONTEXT_RESUME and DISCARD (R262, R263) -/

section Resume
variable (s : State) (rid : Nat) (r : Req) (hreq : s.req rid = some r) (hph : r.phase = .admitted) (hop : r.opcode = Opc.contextResume)
include hreq hph hop

theorem exec_contextResume_error (hdisc : rDiscard r.entry = false) (st d : Nat) (hchk : s.resumeCheck r = .error (st, d)) :
    exec (.contextResume rid) s = .next (s.reject rid st d) := by
  change execContextResume rid s = _
  simp [execContextResume, hreq, hph, hop, hdisc, hchk]

theorem exec_contextDiscard_error (hdisc : rDiscard r.entry = true) (st d : Nat) (hchk : s.resumeCheck r = .error (st, d)) :
    exec (.contextDiscard rid) s = .next (s.reject rid st d) := by
  change execContextDiscard rid s = _
  simp [execContextDiscard, hreq, hph, hop, hdisc, hchk]

/-- A failed check ends the entry in the same way under both commands. -/
theorem exec_resume_error (c : Instr)
    (hc : c = .contextResume rid ∧ rDiscard r.entry = false ∨ c = .contextDiscard rid ∧ rDiscard r.entry = true) (st d : Nat)
    (hchk : s.resumeCheck r = .error (st, d)) : exec c s = .next (s.reject rid st d) := by
  rcases hc with ⟨rfl, hdisc⟩ | ⟨rfl, hdisc⟩
  · exact exec_contextResume_error s rid r hreq hph hop hdisc st d hchk
  · exact exec_contextDiscard_error s rid r hreq hph hop hdisc st d hchk

theorem exec_contextResume_reads (p : Partition) (hpart : s.part r.part = some p) (hdisc : rDiscard r.entry = false) (l : LiveExp)
    (hchk : s.resumeCheck r = .ok l) (o : Req) (horig : s.req l.rid = some o) :
    exec (.contextResume rid) s =
      .next ((s.setPhase rid .resuming).reads r.part 1 (p.expAddr l.idx) (72 + 64 * o.tilesT) (fun k => .recd rid k)) := by
  change execContextResume rid s = _
  simp [execContextResume, hreq, hph, hop, hdisc, hchk, horig, hpart]

theorem exec_contextDiscard_ends (hdisc : rDiscard r.entry = true) (l : LiveExp) (hchk : s.resumeCheck r = .ok l) :
    exec (.contextDiscard rid) s = .next ((s.absorb rid l.rid).endReq l.rid St.abortedByHost 0x01) := by
  change execContextDiscard rid s = _
  simp [execContextDiscard, hreq, hph, hop, hdisc, hchk]

end Resume

/-! ### CONTEXT_UNWRAP_DONE (R263, R303, R304) -/

/-- Checks 5 to 7 of R262, for a record whose live export and original request still exist. -/
theorem State.resumeUnwrapped_of_live (s : State) (rid : Nat) (r o : Req) (p : Partition) (l : LiveExp) (hpart : s.part r.part = some p)
    (hlive : s.liveOf r = some l) (horig : s.req l.rid = some o) :
    s.resumeUnwrapped rid r = match kwUnwrap (s.ctxKey r.part) ((gathered r.recd).drop 32) with
      | none => s.reject rid St.contextInvalid 0x02
      | some u =>
        if u.take 32 ≠ (gathered r.recd).take 32 ∨ u.take 32 ≠ o.recordHead p.ctxEpoch l.seq then s.reject rid St.contextInvalid 0x03
        else if (s.absorb rid l.rid).keysSame o then (s.absorb rid l.rid).toPlace l.rid
        else (s.absorb rid l.rid).endReq l.rid St.contextInvalid 0x04 := by
  cases hunwrap : kwUnwrap (s.ctxKey r.part) ((gathered r.recd).drop 32) with
  | none => simp only [State.resumeUnwrapped, hlive, horig, hunwrap]
  | some u => simp only [State.resumeUnwrapped, hlive, horig, hunwrap, hpart, Option.elim, Bool.or_eq_true, bne_iff_ne]

section UnwrapDone
variable (s : State) (rid : Nat) (r : Req) (hreq : s.req rid = some r) (hph : r.phase = .unwrapping) (hhead : s.engineHead = some rid)
include hreq hph hhead

theorem exec_contextUnwrapDone :
    exec (.contextUnwrapDone rid) s = .next (if r.opcode = Opc.contextResume ∧ r.origOp = Opc.contextResume then s.resumeUnwrapped rid r
      else s.hmacUnwrapped rid r) := by
  change execContextUnwrapDone rid s = _
  simp only [execContextUnwrapDone, hreq, hph, hhead, ne_eq, not_true_eq_false, or_self, if_false]

theorem exec_contextUnwrapDone_resume (hop : r.opcode = Opc.contextResume) (horig : r.origOp = Opc.contextResume) :
    exec (.contextUnwrapDone rid) s = .next (s.resumeUnwrapped rid r) := by
  rw [exec_contextUnwrapDone s rid r hreq hph hhead, if_pos ⟨hop, horig⟩]

theorem exec_contextUnwrapDone_hmac (hop : r.opcode = Opc.hmac) : exec (.contextUnwrapDone rid) s = .next (s.hmacUnwrapped rid r) := by
  have hother : ¬r.opcode = Opc.contextResume := by rw [hop]; decide
  rw [exec_contextUnwrapDone s rid r hreq hph hhead, if_neg (fun h => hother h.1)]

end UnwrapDone

/-- Settles O44: the engine's head by its phase, CONTEXT_RESUME by the checks of R262, an unwrapped record by the entry it was read for. -/
theorem contextExport : Obligations.ContextExport := by
  intro s rid r p hreq hpart
  refine ⟨fun hph hhead hout => ?writes, fun hph hhead => exec_exportDone_emits s rid r p hreq hpart hhead hph,
    fun hph hop c hc => ⟨fun hidx => ?index, fun hidx hlive => ?unnamed⟩,
    fun l o hph hop hidx hlive horig => ⟨fun hdisc => ?reads, fun hdisc => ?discard⟩,
    fun l o hph hhead hop hown hlive horig => ?unwrapped, fun hph hhead hop => ?restored⟩
  case writes =>
    refine ⟨_, _, r.contextBytes p.expSeq, _, _, exec_exportDone_writes s rid r p hreq hpart hhead hph hout, ?_, rfl,
      r.length_recordHead _ _, r.length_contextBytes _, s.req_takeExpSeq rid r p hreq, rfl, s.part_takeExpSeq rid r p hpart, rfl, rfl⟩
    exact congrArg (s.fab ++ ·) (State.writeTxns_congr (s.takeExpSeq_queueOf rid r p) r.part 2 _ _ _)
  case index => exact exec_resume_error s rid r hreq hph hop c hc _ _ (s.resumeCheck_index r p hpart hidx)
  case unnamed =>
    exact exec_resume_error s rid r hreq hph hop c hc _ _ (s.resumeCheck_unnamed r p hpart hidx hlive)
  case reads =>
    have hchk := s.resumeCheck_named r p hpart hidx l hlive
    have hqueue := s.queueOf_updReq rid (fun x => { x with phase := .resuming }) (fun _ => rfl) (fun _ => rfl)
    exact ⟨_, _, exec_contextResume_reads s rid r hreq hph hop p hpart hdisc l hchk o horig, s.req_updReq rid r _ hreq, rfl,
      congrArg (s.fab ++ ·) (State.readTxns_congr hqueue r.part 1 _ _ _), rfl⟩
  case discard =>
    exact exec_contextDiscard_ends s rid r hreq hph hop hdisc l (s.resumeCheck_named r p hpart hidx l hlive)
  case unwrapped =>
    exact (exec_contextUnwrapDone_resume s rid r hreq hph hhead hop hown).trans
      (congrArg Host.Outcome.next (s.resumeUnwrapped_of_live rid r o p l hpart hlive horig))
  case restored => exact exec_contextUnwrapDone_hmac s rid r hreq hph hhead hop

end Sys2Proof.Machine
end

section
/-! PROOF. Heartwood administration (spec/08 R287, spec/13 R404, R410 to R412): a served write of HW_CMD by what is under way, what each
operation does once it starts, and LEDGER_PURGE.GO: the statement O48. -/

namespace Sys2Proof.Machine

/-- The answer of a served write. -/
def State.portDone (s : State) : State := { s with port := ⟨0, false⟩ }

theorem State.portWrite_portDone (s : State) (p : Bool) (off : Nat) (ben : BitVec 4) (n : Bool) (f : State → State)
    (hclk : s.pins.fabClk = true) (hport : s.portErr p false off = false) (hben : n = false ∨ fullBen ben = true)
    (haon : s.pins.aonRel = true) : s.portWrite p off ben n f = (f s).portDone :=
  s.portWrite_served p off ben n f hclk hport hben haon

/-! ### What an erasure leaves (R403, R404) -/

/-- An erasure whose graft is sent: its operation waits for the acknowledgements. -/
def State.erasureSent (t : State) (b : GraftBody) (op : Option Nat → HwOp) : State :=
  { t with hw := { t.hw with op := some (op (t.cfgGraft b).lastGraft) }, pair := (t.cfgGraft b).pair }

theorem State.erasureSent_eq (t : State) (b : GraftBody) (op : Option Nat → HwOp) :
    ({ t.cfgGraft b with hw := { (t.cfgGraft b).hw with op := some (op (t.cfgGraft b).lastGraft) } } : State) = t.erasureSent b op := by
  unfold State.erasureSent
  generalize (t.cfgGraft b).lastGraft = g
  rw [State.cfgGraft_eq]

/-- Slots and KEKs erased together: the slots named are empty, the KEKs named are gone, the others stay. -/
theorem State.eraseKeys_spec (s : State) (gs ps : List Nat) : ∃ t, (s.eraseSlots gs).eraseKeks ps = t ∧
    (∀ h ∈ gs, (t.slot h).st = .empty) ∧ (∀ h, h ∉ gs → t.slot h = s.slot h) ∧
    t.hw.keks = s.hw.keks.filter (fun k => !ps.contains k.1) ∧
    t = { s with reqs := t.reqs, persist := t.persist, units := t.units, hw := t.hw } := by
  obtain ⟨u, hu, huframe, hempty, hothers⟩ := s.eraseSlots_spec gs
  obtain ⟨t, ht, htframe, hslots⟩ := u.eraseKeks_spec ps
  have hkeks : u.hw.keks = s.hw.keks := by rw [huframe]
  refine ⟨t, by rw [hu, ht], fun h hh => by rw [hslots, hempty h hh], fun h hh => by rw [hslots, hothers h hh], ?_, ?_⟩
  · rw [htframe, ← hkeks]
    exact foldl_del_eq_filter ps u.hw.keks
  · rw [htframe, huframe]

/-! ### LOAD_KEK (R410) -/

section LoadKek

variable (u : State) (part : Nat)

theorem State.kekStart_elsewhere (hmaint : u.maintaining = false) : u.kekStart part = u.hwRefuse 1 := by
  simp [State.kekStart, hmaint]

theorem State.kekStart_absent (hmaint : u.maintaining = true) (hpart : u.part part = none) : u.kekStart part = u.hwRefuse 2 := by
  simp [State.kekStart, hmaint, hpart]

/-- Pleod's own request and its grant, before the grant is tried. -/
def State.kekAsked : State :=
  ({ u with
    reqs := Store.put u.reqs u.nextId (Req.kek part (u.blk 0xC04 + 2 ^ 32 * u.blk 0xC08) u.nextId)
    hw := { u.hw with op := some (.loadKek part u.nextId) } } : State).bump.addGrant (.loadKek u.nextId) [] none 0 0

theorem State.kekStart_asks (hmaint : u.maintaining = true) (hpart : (u.part part).isSome = true) :
    u.kekStart part = (u.kekAsked part).issueNew (u.nextId + 1) := by
  have hsome : (u.part part).isNone = false := by rw [Option.isNone_eq_false_iff, hpart]
  simp only [State.kekStart, hmaint, hsome, Bool.not_true, Bool.false_eq_true, if_false]
  rfl

theorem State.req_kekAsked : (u.kekAsked part).req u.nextId =
    some (Req.kek part (u.blk 0xC04 + 2 ^ 32 * u.blk 0xC08) u.nextId) :=
  Store.find_put_self _ _ _

theorem State.kekAsked_grant : ∃ g ∈ (u.kekAsked part).gov.grants, g.what = .loadKek u.nextId ∧ g.part = none :=
  ⟨_, List.mem_append_right _ (List.mem_singleton.2 rfl), rfl, rfl⟩

end LoadKek

/-! ### ERASE_SLOT (R404, R410) -/

section EraseSlot

variable (u : State) (part loc : Nat)

theorem State.slotErase_elsewhere (hmaint : u.maintaining = false) : u.slotErase part loc = u.hwRefuse 1 := by
  simp [State.slotErase, hmaint]

variable (hmaint : u.maintaining = true)
include hmaint

theorem State.slotErase_absent (hpart : u.part part = none) : u.slotErase part loc = u.hwRefuse 2 := by
  simp [State.slotErase, hmaint, hpart]

variable (hpart : (u.part part).isSome = true)
include hpart

theorem State.slotErase_beyond (hslot : u.slotIn part loc = false) : u.slotErase part loc = u.hwRefuse 3 := by
  simp [State.slotErase, hmaint, Option.isSome_iff_ne_none.1 hpart, hslot]

theorem State.slotErase_erases (hslot : u.slotIn part loc = true) (hst : (u.slot (u.gOf part loc)).st ≠ .empty) :
    ∃ t g, u.slotErase part loc = t ∧ (t.slot (u.gOf part loc)).st = .empty ∧ (∀ h, h ≠ u.gOf part loc → t.slot h = u.slot h) ∧
      t.hw.op = some (.erase u.nextSeq g) ∧ t.hw.keks = u.hw.keks ∧
      t = { u with units := t.units, reqs := t.reqs, hw := t.hw, persist := t.persist, pair := t.pair } := by
  obtain ⟨t, ht, hframe, hempty, hothers⟩ := u.eraseSlots_spec [u.gOf part loc]
  refine ⟨t.erasureSent (.erase (.slots [u.gOf part loc])) (.erase u.nextSeq), _, ?_, hempty _ (List.mem_singleton.2 rfl),
    fun h hh => hothers h (mt List.mem_singleton.1 hh), rfl, congrArg (·.hw.keks) hframe, ?_⟩
  · simp only [State.slotErase, hmaint, Option.isSome_iff_ne_none.1 hpart, hslot, hst, ht, State.erasureSent_eq, Option.isNone_iff_eq_none,
      Bool.not_true, Bool.false_eq_true, if_false]
  · rw [hframe]
    rfl

end EraseSlot

/-! ### ZEROISE_PART and ZEROISE (R410) -/

section Zeroise

variable (u : State) (part : Nat)

/-- ZEROISE_PART once HW_CMD names its partition. -/
def State.partZeroise : State :=
  if !u.maintaining then u.hwRefuse 1
  else if (u.part part).isNone then u.hwRefuse 2
  else (u.wipePart part).erasureSent (.erase (.part part)) (.erase u.nextSeq)

/-- ZEROISE. -/
def State.allZeroise : State :=
  if !u.maintaining then u.hwRefuse 1 else u.wipeAll.erasureSent (.erase .all) (.zeroise u.nextSeq [false, false])

theorem State.partZeroise_elsewhere (hmaint : u.maintaining = false) : u.partZeroise part = u.hwRefuse 1 := by
  simp [State.partZeroise, hmaint]

theorem State.allZeroise_elsewhere (hmaint : u.maintaining = false) : u.allZeroise = u.hwRefuse 1 := by
  simp [State.allZeroise, hmaint]

variable (hmaint : u.maintaining = true)
include hmaint

theorem State.partZeroise_absent (hpart : u.part part = none) : u.partZeroise part = u.hwRefuse 2 := by
  simp [State.partZeroise, hmaint, hpart]

theorem State.partZeroise_erases (x : Partition) (hpart : u.part part = some x) : ∃ t g, u.partZeroise part = t ∧
    (∀ h ∈ x.slotMap, (t.slot h).st = .empty) ∧ (∀ h, h ∉ x.slotMap → t.slot h = u.slot h) ∧ Store.find t.hw.keks part = none ∧
    t.hw.op = some (.erase u.nextSeq g) ∧
    t = { u with units := t.units, reqs := t.reqs, hw := t.hw, persist := t.persist, pair := t.pair } := by
  obtain ⟨t, ht, hempty, hothers, hkeks, hframe⟩ := u.eraseKeys_spec x.slotMap [part]
  have hwipe : u.wipePart part = t := by rw [← ht, State.wipePart, hpart]; rfl
  refine ⟨t.erasureSent (.erase (.part part)) (.erase u.nextSeq), _, ?_, hempty, hothers, ?_, rfl, ?_⟩
  · simp [State.partZeroise, hmaint, hpart, hwipe]
  · have hdel : t.hw.keks = Store.del u.hw.keks part := by rw [hkeks, ← foldl_del_eq_filter]; rfl
    exact (congrArg (Store.find · part) hdel).trans (Store.find_del_self _ _)
  · rw [hframe]
    rfl

theorem State.allZeroise_erases : ∃ t g, u.allZeroise = t ∧ (∀ h < 4096, (t.slot h).st = .empty) ∧ t.hw.keks = [] ∧
    t.hw.op = some (.zeroise u.nextSeq [false, false] g) ∧ t.zeroising = true ∧ t.persist.change = true ∧
    t = { u with units := t.units, reqs := t.reqs, hw := t.hw, persist := t.persist, pair := t.pair } := by
  obtain ⟨t, ht, hempty, -, hkeks, hframe⟩ := u.eraseKeys_spec (List.range 4096) (u.hw.keks.map (·.1))
  have hsame : (u.eraseSlots (List.range 4096)).hw.keks = u.hw.keks := by
    obtain ⟨v, hv, hvframe, -⟩ := u.eraseSlots_spec (List.range 4096)
    rw [hv, hvframe]
  have hwipe : u.wipeAll = t.dirty 0 := by rw [← ht, ← hsame]; rfl
  refine ⟨(t.dirty 0).erasureSent (.erase .all) (.zeroise u.nextSeq [false, false]), _, ?_,
    fun h hh => hempty h (List.mem_range.2 hh), hkeks.trans ?_, rfl, rfl, rfl, ?_⟩
  · simp [State.allZeroise, hmaint, hwipe]
  · exact List.filter_eq_nil_iff.2 fun k hk => by simpa using ⟨k.2, hk⟩
  · rw [hframe]
    rfl

end Zeroise

/-! ### A served write of HW_CMD (R410, R412, R551) -/

/-- The commands of HW_CMD, each with what it does to the state that the write of the register leaves. -/
def hwCommands (p : Bool) (ben : BitVec 4) (d : Word) : List (Instr × (State → Nat → Nat → State)) :=
  [(.loadKek p ben d, fun t q _ => t.kekStart q), (.eraseSlot p ben d, State.slotErase), (.zeroisePart p ben d, fun t q _ => t.partZeroise q),
    (.zeroise p ben d, fun t _ _ => t.allZeroise), (.hwCmdUndefinedOp p ben d, fun t _ _ => t.hwRefuse 8)]

theorem exec_hwCommand (p : Bool) (ben : BitVec 4) (d : Word) (s : State) :
    ∀ c ∈ hwCommands p ben d, exec c.1 s = .next (s.hwWrite p ben d c.2) := by
  have hpartZero : exec (.zeroisePart p ben d) s = .next (s.hwWrite p ben d fun t q _ => t.partZeroise q) := by
    simp only [State.partZeroise, ← State.erasureSent_eq]
    rfl
  have hzero : exec (.zeroise p ben d) s = .next (s.hwWrite p ben d fun t _ _ => t.allZeroise) := by
    simp only [State.allZeroise, ← State.erasureSent_eq]
    rfl
  simp only [hwCommands, List.forall_mem_cons, hpartZero, hzero, List.not_mem_nil, false_imp_iff, implies_true, and_true, true_and]
  exact ⟨rfl, rfl, rfl⟩

section HwWrite

variable (s u : State) (p : Bool) (ben : BitVec 4) (d : Word) (part loc : Nat) (hclk : s.pins.fabClk = true) (haon : s.pins.aonRel = true)
  (hport : s.portErr p false 0xC00 = false) (hben : ben.getLsbD 0 = true) (hu : u = s.cmdRw 0xC00 s.hw.op.isSome 0x40000000 ben d)
  (hpart : part = bitsAt (u.blk 0xC00) 8 6) (hloc : loc = bitsAt (u.blk 0xC00) 16 12)
include hclk haon hport hben hu

theorem State.hwWrite_busy (f : State → Nat → Nat → State) (hop : s.hw.op ≠ none) :
    s.hwWrite p ben d f = (u.hwRefuse 7).portDone := by
  rw [State.hwWrite, s.portWrite_portDone p 0xC00 ben false _ hclk hport (.inl rfl) haon, hu]
  simp only [hben, Option.isSome_iff_ne_none.2 hop, Bool.not_true, Bool.false_eq_true, if_false, if_true]

theorem exec_hwCommand_busy (hop : s.hw.op ≠ none) :
    ∀ i ∈ (hwCommands p ben d).map Prod.fst, exec i s = .next (u.hwRefuse 7).portDone :=
  List.forall_mem_map.2 fun c hc => (exec_hwCommand p ben d s c hc).trans
    (congrArg _ (s.hwWrite_busy u p ben d hclk haon hport hben hu c.2 hop))

include hpart hloc

theorem State.hwWrite_idle (f : State → Nat → Nat → State) (hop : s.hw.op = none) :
    s.hwWrite p ben d f = (f u part loc).portDone := by
  rw [State.hwWrite, s.portWrite_portDone p 0xC00 ben false _ hclk hport (.inl rfl) haon, hpart, hloc, hu]
  simp only [hben, hop, Option.isSome_none, Bool.not_true, Bool.false_eq_true, if_false]

theorem exec_hwCommand_idle (hop : s.hw.op = none) : ∀ c ∈ hwCommands p ben d, exec c.1 s = .next (c.2 u part loc).portDone :=
  fun c hc => (exec_hwCommand p ben d s c hc).trans
    (congrArg _ (s.hwWrite_idle u p ben d part loc hclk haon hport hben hu hpart hloc c.2 hop))

/-- The first commands of the list that find the same fault are refused with its reason. -/
theorem exec_hwCommand_refused (hop : s.hw.op = none) (k n : Nat) (href : ∀ c ∈ (hwCommands p ben d).take k, c.2 u part loc = u.hwRefuse n) :
    ∀ i ∈ ((hwCommands p ben d).take k).map Prod.fst, exec i s = .next (u.hwRefuse n).portDone :=
  List.forall_mem_map.2 fun c hc => by
    rw [exec_hwCommand_idle s u p ben d part loc hclk haon hport hben hu hpart hloc hop c (List.mem_of_mem_take hc), href c hc]

/-- A command that finds no operation under way, by its OP. -/
theorem exec_hwCommand_each (hop : s.hw.op = none) :
    exec (.loadKek p ben d) s = .next (u.kekStart part).portDone ∧
    exec (.eraseSlot p ben d) s = .next (u.slotErase part loc).portDone ∧
    exec (.zeroisePart p ben d) s = .next (u.partZeroise part).portDone ∧
    exec (.zeroise p ben d) s = .next u.allZeroise.portDone ∧
    exec (.hwCmdUndefinedOp p ben d) s = .next (u.hwRefuse 8).portDone := by
  simpa only [hwCommands, List.forall_mem_cons, List.not_mem_nil, false_imp_iff, implies_true, and_true] using
    exec_hwCommand_idle s u p ben d part loc hclk haon hport hben hu hpart hloc hop

end HwWrite

/-- Those that R410 defines work in MAINTENANCE alone. -/
theorem hwCommands_elsewhere (u : State) (p : Bool) (ben : BitVec 4) (d : Word) (part loc : Nat) (hmaint : u.maintaining = false) :
    ∀ c ∈ (hwCommands p ben d).take 4, c.2 u part loc = u.hwRefuse 1 := by
  simp only [hwCommands, List.take_succ_cons, List.take_zero, List.forall_mem_cons, u.kekStart_elsewhere part hmaint,
    u.slotErase_elsewhere part loc hmaint, u.partZeroise_elsewhere part hmaint, u.allZeroise_elsewhere hmaint, List.not_mem_nil, false_imp_iff,
    implies_true, and_self]

theorem hwCommands_absent (u : State) (p : Bool) (ben : BitVec 4) (d : Word) (part loc : Nat) (hmaint : u.maintaining = true)
    (hpart : u.part part = none) : ∀ c ∈ (hwCommands p ben d).take 3, c.2 u part loc = u.hwRefuse 2 := by
  simp only [hwCommands, List.take_succ_cons, List.take_zero, List.forall_mem_cons, u.kekStart_absent part hmaint hpart,
    u.slotErase_absent part loc hmaint hpart, u.partZeroise_absent part hmaint hpart, List.not_mem_nil, false_imp_iff,
    implies_true, and_self]

/-! ### LEDGER_PURGE.GO (R287) -/

/-- LEDGER_PURGE's fields and W1C bits take a write. -/
def State.purgeWritten (s : State) (ben : BitVec 4) (d : Word) : State :=
  let t := s.cmdRw 0x80C s.ledger.purge.isSome 2 ben d
  { t with ledger := { t.ledger with
      purgeRej := t.ledger.purgeRej && !(d.getLsbD 29), purgeDone := t.ledger.purgeDone && !(d.getLsbD 30) } }

theorem State.purgeWritten_eq (s : State) (ben : BitVec 4) (d : Word) : ∃ regs rej done, s.purgeWritten ben d = { s with
    regsBlk := regs, ledger := { s.ledger with purgeRej := rej, purgeDone := done } } := by
  rw [State.purgeWritten, State.cmdRw_eq]
  exact ⟨_, _, _, rfl⟩

theorem State.purgeAccts_spec (u : State) : ∃ t, u.purgeAccts = t ∧
    t.ledger.accts = u.ledger.accts.filter (fun a => !((u.ledger.accts.filter (fun b => !(u.acctBound b.2))).map (·.1)).contains a.1) ∧
    t.ledger.purge = some u.nextSeq ∧ t.persist.change = true ∧
    t = { u with ledger := t.ledger, persist := t.persist, pair := t.pair } := by
  refine ⟨_, rfl, ?_⟩
  rw [State.purgeAccts, State.graft_eq, State.foldl_acctDirty_eq]
  exact ⟨rfl, rfl, rfl, rfl⟩

section LedgerPurge

variable (s v : State) (p : Bool) (d : Word) (hclk : s.pins.fabClk = true) (haon : s.pins.aonRel = true)
  (hport : s.portErr p false 0x80C = false) (hv : s.purgeWritten 0xF d = v)
include hclk haon hport hv

theorem exec_ledgerPurgeGo_served : exec (.ledgerPurgeGo p 0xF d) s = .next (if (!v.maintaining) = true ∨ v.ledger.purge.isSome = true
    then { v with ledger := { v.ledger with purgeRej := true } } else v.purgeAccts).portDone := by
  change execLedgerPurgeGo p 0xF d s = _
  rw [execLedgerPurgeGo, s.portWrite_portDone p 0x80C 0xF true _ hclk hport (.inr rfl) haon, ← hv]
  rfl

theorem exec_ledgerPurgeGo_elsewhere (hmaint : v.maintaining = false) : exec (.ledgerPurgeGo p 0xF d) s =
    .next ({ v with ledger := { v.ledger with purgeRej := true } } : State).portDone := by
  rw [exec_ledgerPurgeGo_served s v p d hclk haon hport hv, if_pos (.inl (congrArg (! ·) hmaint))]

theorem exec_ledgerPurgeGo_purges (hmaint : v.maintaining = true) (hpurge : v.ledger.purge = none) :
    exec (.ledgerPurgeGo p 0xF d) s = .next v.purgeAccts.portDone := by
  rw [exec_ledgerPurgeGo_served s v p d hclk haon hport hv, if_neg (by simp [hmaint, hpurge])]

end LedgerPurge

/-- Settles O48: HW_CMD by what is under way and what the operation finds, LEDGER_PURGE by whether the unit is in MAINTENANCE. -/
theorem heartwoodCommands : Obligations.HeartwoodCommands := by
  intro s u p ben d part loc hclk haon hport hben hu hpart hloc
  have hbusy := exec_hwCommand_busy s u p ben d hclk haon hport hben hu
  have hidle := exec_hwCommand_each s u p ben d part loc hclk haon hport hben hu hpart hloc
  have hrefused := exec_hwCommand_refused s u p ben d part loc hclk haon hport hben hu hpart hloc
  obtain ⟨regs, rfl⟩ : ∃ regs, u = { s with regsBlk := regs } := ⟨_, hu.trans (s.cmdRw_eq _ _ _ _ _)⟩
  refine ⟨hbusy, fun hop => ?undefined,
    fun hop hmaint => hrefused hop 4 1 (hwCommands_elsewhere _ p ben d part loc hmaint),
    fun hop hmaint habsent => hrefused hop 3 2 (hwCommands_absent _ p ben d part loc hmaint habsent),
    fun hop hmaint hpresent hslot => ?beyond, fun hop hmaint hpresent hslot hst => ?slot, fun x hop hmaint hpresent => ?zeroisePart,
    fun hop hmaint => ?zeroise, fun hop hmaint hpresent => ?kek, fun hport hben => ⟨fun hmaint => ?refused, fun hmaint hpurge => ?purges⟩⟩
  case undefined =>
    obtain ⟨-, -, -, -, hexec⟩ := hidle hop
    exact hexec
  case beyond =>
    obtain ⟨-, hexec, -⟩ := hidle hop
    rw [hexec, State.slotErase_beyond { s with regsBlk := regs } part loc hmaint hpresent hslot]
    rfl
  case slot =>
    obtain ⟨-, hexec, -⟩ := hidle hop
    obtain ⟨t, g, ht, hempty, hothers, hing, hkeks, hframe⟩ :=
      State.slotErase_erases { s with regsBlk := regs } part loc hmaint hpresent hslot hst
    rw [ht] at hexec
    exact ⟨t.portDone, g, hexec, hempty, hothers, hing, hkeks, congrArg State.portDone hframe⟩
  case zeroisePart =>
    obtain ⟨-, -, hexec, -⟩ := hidle hop
    obtain ⟨t, g, ht, hempty, hothers, hkek, hing, hframe⟩ := State.partZeroise_erases { s with regsBlk := regs } part hmaint x hpresent
    rw [ht] at hexec
    exact ⟨t.portDone, g, hexec, hempty, hothers, hkek, hing, congrArg State.portDone hframe⟩
  case zeroise =>
    obtain ⟨-, -, -, hexec, -⟩ := hidle hop
    obtain ⟨t, g, ht, hempty, hkeks, hing, hzero, hchange, hframe⟩ := State.allZeroise_erases { s with regsBlk := regs } hmaint
    rw [ht] at hexec
    exact ⟨t.portDone, g, hexec, hempty, hkeks, hing, hzero, hchange, congrArg State.portDone hframe⟩
  case kek =>
    obtain ⟨hexec, -⟩ := hidle hop
    have hasks := State.kekStart_asks { s with regsBlk := regs } part hmaint hpresent
    rw [hasks] at hexec
    exact ⟨State.kekAsked { s with regsBlk := regs } part, hexec, rfl, ⟨_, State.req_kekAsked _ part, rfl, rfl, rfl⟩,
      State.kekAsked_grant _ part⟩
  case refused =>
    obtain ⟨regs', rej, done, hv⟩ := s.purgeWritten_eq 0xF d
    rw [hben, exec_ledgerPurgeGo_elsewhere s _ p d hclk haon hport hv hmaint]
    exact ⟨_, rfl, rfl, rfl, rfl⟩
  case purges =>
    obtain ⟨regs', rej, done, hv⟩ := s.purgeWritten_eq 0xF d
    obtain ⟨t, ht, haccts, hing, hchange, hframe⟩ := State.purgeAccts_spec { s with
      regsBlk := regs', ledger := { s.ledger with purgeRej := rej, purgeDone := done } }
    rw [hben, exec_ledgerPurgeGo_purges s _ p d hclk haon hport hv hmaint hpurge, ht]
    refine ⟨t.portDone, rfl, haccts, hing, hchange, ?_⟩
    rw [hframe]
    rfl

end Sys2Proof.Machine
end

section
/-! PROOF. The scheduler (spec/05 R200 to R203, spec/06 R226, spec/08 R275): which request PLACE_REQUEST goes on with and what keeps it,
and the one that takes its staging tiles: the statement O25. -/

namespace Sys2Proof.Machine

/-! ### The picked request (R200, R275) -/

theorem State.pickOf_nil (s : State) (k : UnitKind) : s.pickOf k [] = none := by
  simp [State.pickOf, vtPick]

section Pick

variable (s : State) (rid : Nat) (r : Req) (f : State → Req → State)

theorem State.pick_without_counter (hneeds : s.needsCounter r = false) : s.pick rid r f = f s r := by
  simp [State.pick, hneeds]

variable (hneeds : s.needsCounter r = true) (x : Req) (hx : (s.waitLease rid).req rid = some x)
include hneeds hx

theorem State.pick_counter_taken (hph : x.phase = .waitPlace) : s.pick rid r f = f (s.waitLease rid) x := by
  simp [State.pick, hneeds, hx, hph]

theorem State.pick_counter_awaited (hph : x.phase ≠ .waitPlace) : s.pick rid r f = s.waitLease rid := by
  simp [State.pick, hneeds, hx, hph]

end Pick

section Place

variable (s : State) (k : UnitKind) (rid : Nat) (r : Req) (hretry : k = .cipher → s.retryLeases = s) (hrejoin : s.rejoin k = s)
include hretry hrejoin

/-- With no lease to retry and no urgent request to take back, a placement is of the state as it stands. -/
theorem State.place_start : (if k = .cipher then s.retryLeases else s).rejoin k = s := by
  by_cases hk : k = .cipher
  · rw [if_pos hk, hretry hk, hrejoin]
  · rw [if_neg hk, hrejoin]

/-- A unit is free for the ordinary request, and no urgent one wants for a unit. -/
theorem State.place_ordinary (hurgent : s.pickOf k ((s.placeWaits k).filter (fun x => x.2.urgent && !(s.unitAtHand x.1 x.2))) = none)
    (hroom : s.grantWaits k < s.freeOf k)
    (hpick : s.pickOf k ((s.placeWaits k).filter (fun x => !(s.unitOrder x.1 x.2).isEmpty)) = some (rid, r)) :
    s.place k = s.pick rid r (fun t r => t.placeOn rid r) := by
  simp only [State.place, s.place_start k hretry hrejoin, hurgent, hroom, decide_true, if_true, hpick]

/-- Every free unit is spoken for, so the urgent request takes its own path. -/
theorem State.place_urgent (hfull : s.freeOf k ≤ s.grantWaits k)
    (hurgent : s.pickOf k ((s.placeWaits k).filter (fun x => x.2.urgent && !(s.unitAtHand x.1 x.2))) = some (rid, r)) :
    s.place k = s.pick rid r (fun t r => t.urgentPath k rid r) := by
  simp only [State.place, s.place_start k hretry hrejoin, hurgent, Nat.not_lt.2 hfull, decide_false, Bool.false_eq_true, if_false,
    s.pickOf_nil]

end Place

/-! ### The urgent quota (R202, R203) -/

theorem State.urgentPath_no_quota (s : State) (k : UnitKind) (rid : Nat) (r : Req) (h : (s.part r.part).elim 0 (·.urgLeft) = 0) :
    s.urgentPath k rid r = s.deny rid r := by
  rw [State.urgentPath, State.urgentLeft, h, Nat.zero_sub, if_pos rfl]

/-! ### Staging tiles (R226) -/

theorem exec_stagingReserved_picked (s : State) (rid : Nat) (r : Req) (hpick : s.stagingPick = some (rid, r)) :
    exec .stagingReserved s = .next ((s.updReq rid (fun x => { x with staging := r.stagingNeed })).toPlace rid) := by
  change execStagingReserved s = _
  rw [execStagingReserved, hpick]

/-- Settles O25: a placement by the request picked, its counter and the quota, and the staging pick by its way to the wait for a unit. -/
theorem placementUrgencyAndStaging : Obligations.PlacementUrgencyAndStaging := by
  refine ⟨fun s k part rid r => ⟨fun hretry hrejoin hurgent hroom hpick => ⟨fun hneeds => ?placed, fun x hneeds hx => ⟨fun hph => ?taken,
    fun hph => ?awaited⟩⟩, fun hretry hrejoin hneeds hurgent hfull hquota => ?denied, rfl⟩, fun s rid r hpick hreq => ?staged⟩
  case placed =>
    exact congrArg Host.Outcome.next
      ((s.place_ordinary k rid r hretry hrejoin hurgent hroom hpick).trans (s.pick_without_counter rid r _ hneeds))
  case taken =>
    exact congrArg Host.Outcome.next
      ((s.place_ordinary k rid r hretry hrejoin hurgent hroom hpick).trans (s.pick_counter_taken rid r _ hneeds x hx hph))
  case awaited =>
    exact congrArg Host.Outcome.next
      ((s.place_ordinary k rid r hretry hrejoin hurgent hroom hpick).trans (s.pick_counter_awaited rid r _ hneeds x hx hph))
  case denied =>
    have hdeny : s.place k = s.deny rid r :=
      calc s.place k = s.pick rid r (fun t r => t.urgentPath k rid r) := s.place_urgent k rid r hretry hrejoin hfull hurgent
        _ = s.urgentPath k rid r := s.pick_without_counter rid r _ hneeds
        _ = s.deny rid r := s.urgentPath_no_quota k rid r hquota
    exact congrArg Host.Outcome.next hdeny
  case staged =>
    have htiles := s.req_updReq rid r (fun x => { x with staging := r.stagingNeed }) hreq
    obtain ⟨hplace, hframe⟩ := State.toPlace_spec _ rid _ htiles
    refine ⟨_, _, exec_stagingReserved_picked s rid r hpick, hplace, rfl, rfl, ?_⟩
    rw [hframe]
    exact ⟨rfl, rfl, rfl, rfl, rfl, rfl, rfl⟩

end Sys2Proof.Machine
end

section
/-! PROOF. Leases (spec/08 R271, R274 to R276, R278): which become live, which wait is over and which lease is abandoned: the statement
O51. -/

namespace Sys2Proof.Machine

/-! ### The lease that has been idle longest (R274) -/

/-- The one of two leases that was used longer ago, the earlier of two alike. -/
def Lease.idler (b : Option Lease) (l : Lease) : Option Lease :=
  match b with
  | some x => if l.used < x.used then some l else b
  | none => some l

theorem State.idleLease_eq (s : State) (acct : Nat) :
    s.idleLease acct = (s.ledger.leases.filter (fun l => l.acct == acct && l.live)).foldl Lease.idler none := rfl

theorem Lease.foldl_idler_some (l : List Lease) (b : Lease) : ∃ x, l.foldl Lease.idler (some b) = some x ∧ (x = b ∨ x ∈ l) ∧
    x.used ≤ b.used ∧ ∀ y ∈ l, x.used ≤ y.used := by
  induction l generalizing b with
  | nil => exact ⟨b, rfl, .inl rfl, Nat.le_refl _, by simp⟩
  | cons a l ih =>
    by_cases hlt : a.used < b.used
    · obtain ⟨x, hx, hmem, hle, hmin⟩ := ih a
      refine ⟨x, by simpa [Lease.idler, hlt] using hx, .inr (List.mem_cons.2 hmem), by omega, List.forall_mem_cons.2 ⟨hle, hmin⟩⟩
    · obtain ⟨x, hx, hmem, hle, hmin⟩ := ih b
      refine ⟨x, by simpa [Lease.idler, hlt] using hx, hmem.imp_right (List.mem_cons_of_mem a), hle,
        List.forall_mem_cons.2 ⟨by omega, hmin⟩⟩

theorem Lease.foldl_idler_min (l : List Lease) (x : Lease) (h : l.foldl Lease.idler none = some x) :
    x ∈ l ∧ ∀ y ∈ l, x.used ≤ y.used := by
  cases l with
  | nil => cases h
  | cons a l =>
    obtain ⟨z, hz, hmem, hle, hmin⟩ := Lease.foldl_idler_some l a
    obtain rfl : z = x := Option.some.inj (hz.symm.trans h)
    exact ⟨List.mem_cons.2 hmem, List.forall_mem_cons.2 ⟨hle, hmin⟩⟩

theorem State.idleLease_spec (s : State) (acct : Nat) (l : Lease) (h : s.idleLease acct = some l) :
    l ∈ s.ledger.leases ∧ l.acct = acct ∧ l.live = true ∧ ∀ x ∈ s.ledger.leases, x.acct = acct → x.live = true → l.used ≤ x.used := by
  obtain ⟨hmem, hmin⟩ := Lease.foldl_idler_min _ l (s.idleLease_eq acct ▸ h)
  simp only [List.mem_filter, Bool.and_eq_true, beq_iff_eq] at hmem hmin
  obtain ⟨hin, hacct, hlive⟩ := hmem
  exact ⟨hin, hacct, hlive, fun x hx hxa hxl => hmin x ⟨hx, hxa, hxl⟩⟩

theorem State.idleLease_eq_none (s : State) (acct : Nat) (h : ∀ l ∈ s.ledger.leases, l.acct = acct → l.live = false) :
    s.idleLease acct = none := by
  have hnil : s.ledger.leases.filter (fun l => l.acct == acct && l.live) = [] :=
    List.filter_eq_nil_iff.2 fun l hl => by simpa using h l hl
  rw [State.idleLease_eq, hnil]
  rfl

/-! ### LEASE_IDLE_EXPIRY (R274, R278) -/

theorem exec_leaseIdleExpiry_none (s : State) (acct : Nat) (h : s.idleLease acct = none) : exec (.leaseIdleExpiry acct) s = .next s := by
  change execLeaseIdleExpiry acct s = _
  rw [execLeaseIdleExpiry, h]

theorem exec_leaseIdleExpiry_some (s : State) (acct : Nat) (l : Lease) (h : s.idleLease acct = some l) :
    exec (.leaseIdleExpiry acct) s = .next (if bitsAt (s.aon 0x800) 16 8 ≠ 0 then s.endLease l else s) := by
  change execLeaseIdleExpiry acct s = _
  rw [execLeaseIdleExpiry, h]

/-- A lease is abandoned. -/
def State.leaseDropped (s : State) (l : Lease) : State :=
  { s with ledger := { s.ledger with leases := s.ledger.leases.filter (fun x => !(x.acct == l.acct && x.idx == l.idx)) } }

theorem State.endLease_eq (s : State) (l : Lease) (a : Acct) (ha : Store.find s.ledger.accts l.acct = some a) :
    s.endLease l = if (s.leaseDropped l).spent l.acct a then (s.leaseDropped l).retire l.acct else s.leaseDropped l := by
  simp only [State.endLease, ha]
  rfl

/-! ### LEASE_LIVE (R271) -/

theorem exec_leaseLive_none (s : State) (acct : Nat) (h : ∀ l ∈ s.ledger.leases, l.acct = acct → s.leaseReady l = false) :
    exec (.leaseLive acct) s = .next s := by
  have hany : s.ledger.leases.any (fun l => l.acct == acct && s.leaseReady l) = false :=
    List.any_eq_false.2 fun l hl => by simpa using h l hl
  change execLeaseLive acct s = _
  rw [execLeaseLive, hany, if_neg Bool.false_ne_true]

/-- The account's leases whose acknowledgements are in are live, and last used now. -/
def State.leasesLive (s : State) (acct : Nat) : State :=
  { s with
    ledger := { s.ledger with leases := s.ledger.leases.map (fun (l : Lease) =>
      if l.acct = acct ∧ s.leaseReady l then { l with live := true, used := s.nextId } else l) }
    nextId := s.nextId + 1 }

theorem State.serveAcct_of_no_waiter (s : State) (acct : Nat) (h : s.leaseWaiters acct = []) : s.serveAcct acct = s := by
  rw [State.serveAcct, h]
  rfl

theorem exec_leaseLive_ready (s : State) (acct : Nat) (h : ∃ l ∈ s.ledger.leases, l.acct = acct ∧ s.leaseReady l = true)
    (hwait : s.leaseWaiters acct = []) : exec (.leaseLive acct) s = .next (s.leasesLive acct) := by
  have hany : s.ledger.leases.any (fun l => l.acct == acct && s.leaseReady l) = true := by simpa using h
  change execLeaseLive acct s = _
  rw [execLeaseLive, if_pos hany]
  exact congrArg Host.Outcome.next ((s.leasesLive acct).serveAcct_of_no_waiter acct hwait)

/-! ### LEASE_WAIT_TIMEOUT (R275, R276) -/

theorem exec_leaseWaitTimeout_waiting (s : State) (rid : Nat) (r : Req) (hreq : s.req rid = some r) (hph : r.phase = .waitLease) :
    exec (.leaseWaitTimeout rid) s =
      .next (if s.aon 0x800 % 0x400 ≠ 0 then s.setLeaseTmo.complete rid St.leaseUnavailable 0x01 0 else s) := by
  change execLeaseWaitTimeout rid s = _
  simp only [execLeaseWaitTimeout, hreq, hph, true_and]
  rfl

/-- Settles O51: an account's leases by their acknowledgements and their idle times, a wait by LEASE_TMO. -/
theorem leaseEvents : Obligations.LeaseEvents := by
  refine fun s => ⟨fun acct hready hwait => exec_leaseLive_ready s acct hready hwait, fun acct hnone => exec_leaseLive_none s acct hnone,
    fun rid r hreq hph => ⟨fun htmo => ?expires, fun htmo => ?endless⟩, fun acct l a hidle ha => ?idle, fun acct hdead => ?dead⟩
  case expires => rw [exec_leaseWaitTimeout_waiting s rid r hreq hph, if_pos htmo]
  case endless => rw [exec_leaseWaitTimeout_waiting s rid r hreq hph, if_neg (not_not.2 htmo)]
  case idle =>
    obtain ⟨hmem, hacct, hlive, hmin⟩ := s.idleLease_spec acct l hidle
    have hexec := exec_leaseIdleExpiry_some s acct l hidle
    refine ⟨hmem, hacct, hlive, hmin, fun htmo => ⟨s.leaseDropped l, rfl, fun hspent => ?kept, fun hspent => ?retired⟩, fun htmo => ?never⟩
    case kept => rw [hexec, if_pos htmo, s.endLease_eq l a ha, if_neg (by simp [hspent])]
    case retired => rw [hexec, if_pos htmo, s.endLease_eq l a ha, if_pos hspent]
    case never => rw [hexec, if_neg (not_not.2 htmo)]
  case dead => exact exec_leaseIdleExpiry_none s acct (s.idleLease_eq_none acct hdead)

end Sys2Proof.Machine
end

section
/-! DIGEST, HMAC and PAGE_SEAL as they are admitted (spec/09 R289, R293, R295, spec/18 R526, R529): the statement O38 of
spec/00_scope.md. -/

namespace Sys2Proof.Machine

/-! ### The ordered checks of a digest entry (R295) and of a page seal (R529) -/

section Checks
variable (s : State) (part : Nat) (e : Bytes)

theorem State.digestChecks_malformed (hbody : digestBodyOk e = false) : s.digestChecks part e = some (St.malformed, 0x0A) := by
  simp [State.digestChecks, firstFail, must, hbody]

theorem State.digestChecks_unsupported (hbody : digestBodyOk e = true) (hhash : hashKnown (dAlg e) = false) :
    s.digestChecks part e = some (St.unsupported, 0) := by
  simp [State.digestChecks, firstFail, must, hbody, hhash]

theorem State.pageChecks_malformed (hbody : pageBodyOk e = false) : s.pageChecks part e = some (St.malformed, 0x0A) := by
  simp [State.pageChecks, firstFail, must, hbody]

theorem State.pageChecks_stored (hbody : pageBodyOk e = true) (hverify : eFlag e 0 = true) (hslot : s.hmacSlot part (cSlot e) = none)
    (hstored : storedOk e = false) : s.pageChecks part e = some (St.authFail, 0x05) := by
  simp [State.pageChecks, firstFail, must, hbody, hverify, hslot, hstored]

end Checks

/-! ### A request that passes keeps its keys and waits for its unit -/

/-- Only AEAD and PKA_OP ask for staging tiles (R226, R354). -/
theorem Req.stagingNeed_eq_zero (r : Req) (haead : r.origOp ≠ Opc.aead) (hpka : r.origOp ≠ Opc.pkaOp) : r.stagingNeed = 0 := by
  rw [Req.stagingNeed, if_neg (fun h => haead h.1), if_neg hpka]

/-- From `s` to `t` the request has taken its keys and begun to wait for its unit; beside it only the virtual times and one identifier have
moved. -/
def State.KeyedAndPlaced (s t : State) (rid : Nat) (ks : List (Nat × Nat)) : Prop :=
  ∃ x, t.req rid = some x ∧ x.phase = .waitPlace ∧ x.keys = ks ∧ t = { s with reqs := t.reqs, parts := t.parts, nextId := s.nextId + 1 }

theorem State.useKeys_enqueue_placed (s : State) (rid : Nat) (r : Req) (gs : List Nat) (hreq : s.req rid = some r)
    (hneed : r.stagingNeed = 0) : s.KeyedAndPlaced ((s.useKeys rid gs).enqueue rid) rid (gs.map (fun g => (g, s.keyIdOf g))) := by
  obtain ⟨t, x, rfl, hx, hxr, hframe⟩ := State.enqueue_spec _ rid _ (s.req_useKeys rid r gs hreq)
  have hphase : x.phase = .waitPlace := (congrArg Req.phase hxr).trans (if_pos hneed)
  exact ⟨x, hx, hphase, congrArg Req.keys hxr, hframe⟩

theorem exec_digest (s : State) (rid : Nat) : exec (.digest rid) s = .next (s.digestStart rid Opc.digest) := rfl
theorem exec_hmac (s : State) (rid : Nat) : exec (.hmac rid) s = .next (s.digestStart rid Opc.hmac) := rfl
theorem exec_pageSeal (s : State) (rid : Nat) : exec (.pageSeal rid) s = .next (s.pageStart rid false) := rfl
theorem exec_pageSealVerify (s : State) (rid : Nat) : exec (.pageSealVerify rid) s = .next (s.pageStart rid true) := rfl

section Starts
variable (s : State) (rid : Nat) (r : Req) (hreq : s.req rid = some r) (hph : r.phase = .admitted)
include hreq hph

theorem State.digestStart_fails (op : Nat) (hop : r.opcode = op) (f : Nat × Nat) (hchk : s.digestChecks r.part r.entry = some f) :
    s.digestStart rid op = s.reject rid f.1 f.2 := by
  have hfresh := s.fresh_some rid r (fun r => r.opcode == op) hreq hph (by simp [hop])
  simp only [State.digestStart, hfresh, hchk]

theorem State.digestStart_passes (op : Nat) (hop : r.opcode = op) (hneed : r.stagingNeed = 0)
    (hchk : s.digestChecks r.part r.entry = none) :
    s.KeyedAndPlaced (s.digestStart rid op) rid
      ((if op = Opc.hmac then [s.gOf r.part (cSlot r.entry)] else []).map (fun g => (g, s.keyIdOf g))) := by
  have hfresh := s.fresh_some rid r (fun r => r.opcode == op) hreq hph (by simp [hop])
  simp only [State.digestStart, hfresh, hchk]
  exact s.useKeys_enqueue_placed rid r _ hreq hneed

variable (verify : Bool) (hop : r.opcode = Opc.pageSeal) (hverify : eFlag r.entry 0 = verify)
include hop hverify

theorem State.pageStart_fails (f : Nat × Nat) (hchk : s.pageChecks r.part r.entry = some f) :
    s.pageStart rid verify = s.reject rid f.1 f.2 := by
  have hfresh := s.fresh_some rid r (fun r => r.opcode == Opc.pageSeal && eFlag r.entry 0 == verify) hreq hph (by simp [hop, hverify])
  simp only [State.pageStart, hfresh, hchk]

theorem State.pageStart_passes (hneed : r.stagingNeed = 0) (hchk : s.pageChecks r.part r.entry = none) (g : Nat)
    (hg : g = s.gOf r.part (cSlot r.entry)) : s.KeyedAndPlaced (s.pageStart rid verify) rid [(g, s.keyIdOf g)] := by
  have hfresh := s.fresh_some rid r (fun r => r.opcode == Opc.pageSeal && eFlag r.entry 0 == verify) hreq hph (by simp [hop, hverify])
  simp only [State.pageStart, hfresh, hchk, ← hg]
  exact s.useKeys_enqueue_placed rid r [g] hreq hneed

end Starts

/-- Settles O38: each command by the outcome of its ordered checks; none of the four asks for staging tiles, so a pass waits for the unit. -/
theorem digestAndPageRequests : Obligations.DigestAndPageRequests := by
  intro s rid r hreq hph horig
  have hneed (op : Nat) (hop : r.opcode = op) (haead : op ≠ Opc.aead) (hpka : op ≠ Opc.pkaOp) : r.stagingNeed = 0 :=
    r.stagingNeed_eq_zero (by rwa [horig, hop]) (by rwa [horig, hop])
  rw [exec_digest, exec_hmac, exec_pageSeal, exec_pageSealVerify]
  refine ⟨fun hop => ⟨fun f hchk => ?digestFails, fun hchk => ?digestPasses⟩,
    fun g hg => ⟨fun hop => ⟨fun f hchk => ?hmacFails, fun hchk => ?hmacPasses⟩,
      fun hop hgen => ⟨fun f hchk => ?sealFails, fun hchk => ?sealPasses⟩,
      fun hop hver => ⟨fun f hchk => ?verifyFails, fun hchk => ?verifyPasses⟩⟩,
    s.digestChecks_malformed r.part r.entry, s.digestChecks_unsupported r.part r.entry, s.pageChecks_malformed r.part r.entry,
    s.pageChecks_stored r.part r.entry⟩
  case digestFails => rw [s.digestStart_fails rid r hreq hph _ hop f hchk]
  case hmacFails => rw [s.digestStart_fails rid r hreq hph _ hop f hchk]
  case sealFails => rw [s.pageStart_fails rid r hreq hph false hop hgen f hchk]
  case verifyFails => rw [s.pageStart_fails rid r hreq hph true hop hver f hchk]
  case digestPasses =>
    obtain ⟨x, hx⟩ := s.digestStart_passes rid r hreq hph _ hop (hneed _ hop (by decide) (by decide)) hchk
    exact ⟨_, x, rfl, hx⟩
  case hmacPasses =>
    obtain ⟨x, hx⟩ := s.digestStart_passes rid r hreq hph _ hop (hneed _ hop (by decide) (by decide)) hchk
    exact ⟨_, x, rfl, hg ▸ hx⟩
  case sealPasses =>
    obtain ⟨x, hx⟩ := s.pageStart_passes rid r hreq hph false hop hgen (hneed _ hop (by decide) (by decide)) hchk g hg
    exact ⟨_, x, rfl, hx⟩
  case verifyPasses =>
    obtain ⟨x, hx⟩ := s.pageStart_passes rid r hreq hph true hop hver (hneed _ hop (by decide) (by decide)) hchk g hg
    exact ⟨_, x, rfl, hx⟩

end Sys2Proof.Machine
end

section
/-! PROOF. The step on an empty queue (spec/10 R339): the statement O2. -/

namespace Sys2Proof.Machine

/-- Settles O2: a step on an empty queue is one tick of CLK_AON. -/
theorem idleStepCountsSealTime : Obligations.IdleStepCountsSealTime := by
  intro s hempty
  have hstep : step s = .next (tick s) := by simp only [step, hempty]
  refine ⟨fun haon hfreq => ⟨tick s, hstep, ?_⟩, fun haon => ?_⟩
  · simp [tick, haon, hfreq]
  · simp [hstep, tick, haon]

end Sys2Proof.Machine
end

section
/-! PROOF. Records of seal streams, their binding and their close (spec/10 R319 to R332, R342): the statement O47. -/

namespace Sys2Proof.Machine

/-! ### A stream that changes (R329, R332) -/

theorem State.stream_updStream_other (s : State) (k j : Nat) (f : Stream → Stream) (h : j ≠ k) : (s.updStream k f).stream j = s.stream j :=
  Store.find_upd_other _ _ _ _ h.symm

/-- The stream once a record with its chain value is in the ring. -/
def Stream.recorded (x : Stream) (idf : Nat) (c : Bytes) : Stream :=
  { x with chain := c, newest := ⟨x.rseq, idf, c⟩, tail := (x.tail + 1) % (2 * x.ringSize), rseq := x.rseq + 1
           closing := if 0xFFFFFFF0 ≤ x.rseq + 1 ∧ x.closing.isNone then some ⟨4, none, none, true⟩ else x.closing }

/-- From `s` to `t` a record of stream `k` has been written and has made the stream `y`. -/
structure State.Recorded (s t : State) (k rseq : Nat) (y : Stream) : Prop where
  stream : t.stream k = some y
  others : ∀ j, j ≠ k → t.stream j = s.stream j
  written : ∀ w ∈ t.fab, w ∉ s.fab → w.purpose = .sealRec k rseq ∧ w.isWrite = true
  frame : t = { s with seals := t.seals, fab := t.fab }

theorem State.mem_writeTxns (s : State) (part cls addr : Nat) (bs : Bytes) (pf : Purpose) (w : Txn)
    (h : w ∈ s.writeTxns part cls addr bs pf) : w.purpose = pf ∧ w.isWrite = true := by
  obtain ⟨p, -, rfl⟩ := List.mem_map.1 h
  exact ⟨rfl, rfl⟩

/-- R323, R329: a record of a stream without a write error. -/
theorem State.sealRecord_recorded (s : State) (k rtype flags aux idf timef len : Nat) (body : Bytes) (x : Stream)
    (hx : s.stream k = some x) (herr : x.wrErr = none) :
    s.Recorded (s.sealRecord k rtype flags aux idf timef len body) k x.rseq
      (x.recorded idf (chainStep x.sealMat x.chain (sealD rtype k flags aux idf timef len x.rseq body) idf timef)) := by
  have hput : ∃ g h bs addr, s.sealRecord k rtype flags aux idf timef len body =
      ((s.updStream k g).updStream k h).writes x.part 6 addr bs (.sealRec k x.rseq) ∧
      h (g x) = x.recorded idf (chainStep x.sealMat x.chain (sealD rtype k flags aux idf timef len x.rseq body) idf timef) := by
    simp only [State.sealRecord, hx, herr, Option.isSome_none, Bool.false_eq_true, if_false]
    exact ⟨_, _, _, _, rfl, rfl⟩
  obtain ⟨g, h, bs, addr, hput, hgx⟩ := hput
  rw [hput, ← hgx]
  refine ⟨State.stream_updStream _ k h _ (s.stream_updStream k g x hx), fun j hj => ?_, fun w hw hnew => ?_, rfl⟩
  · exact (State.stream_updStream_other _ k j h hj).trans (s.stream_updStream_other k j g hj)
  · exact State.mem_writeTxns _ _ _ _ _ _ _ ((List.mem_append.1 hw).resolve_left hnew)

/-! ### The grant of a BIND_TAP (R320) -/

/-- The state with a new stream in its number's place. -/
def State.putStream (s : State) (k : Nat) (x : Stream) : State :=
  { s with seals := { s.seals with streams := Store.put s.seals.streams k x } }

section BindGrant
variable (s : State) (rid : Nat) (r : Req) (hreq : s.req rid = some r)
include hreq

theorem State.bindGranted_fails (st d n : Nat) (hchk : s.bindChecks r.part r.entry = some (st, d, n)) :
    s.bindGranted rid = s.complete rid st d n := by
  simp only [State.bindGranted, hreq, hchk]

theorem State.bindGranted_opens (hchk : s.bindChecks r.part r.entry = none) (k : Nat) (hk : k < 64) (hfree : s.stream k = none)
    (hlow : ∀ j < k, s.stream j ≠ none) :
    ∃ timef body, s.bindGranted rid = (s.putStream k (s.newStream rid r.part r.entry)).sealRecord k 1 0
      (bTap r.entry + 0x10 * bChan r.entry + 0x100 * b2n (bitAt (fld r.entry 9 1) 0)) (fld r.entry 32 8) timef 0 body := by
  have hfind : (List.range 64).find? (fun n => (s.stream n).isNone) = some k :=
    List.find?_range_eq_some.2 ⟨by simp [hfree], List.mem_range.2 hk, fun j hj => by simp [Option.ne_none_iff_isSome.1 (hlow j hj)]⟩
  simp only [State.bindGranted, hreq, hchk, hfind, Option.getD_some]
  exact ⟨_, _, rfl⟩

/-- The stream that a BIND_TAP binds, with its OPEN record in the ring. -/
theorem State.bindGranted_recorded (hchk : s.bindChecks r.part r.entry = none) (k : Nat) (hk : k < 64) (hfree : s.stream k = none)
    (hlow : ∀ j < k, s.stream j ≠ none) :
    ∃ c, s.Recorded (s.bindGranted rid) k 0 ((s.newStream rid r.part r.entry).recorded (fld r.entry 32 8) c) := by
  obtain ⟨timef, body, hopens⟩ := s.bindGranted_opens rid r hreq hchk k hk hfree hlow
  have hrec := State.sealRecord_recorded (s.putStream k (s.newStream rid r.part r.entry)) k 1 0
    (bTap r.entry + 0x10 * bChan r.entry + 0x100 * b2n (bitAt (fld r.entry 9 1) 0)) (fld r.entry 32 8) timef 0 body
    (s.newStream rid r.part r.entry) (Store.find_put_self _ _ _) rfl
  rw [← hopens] at hrec
  exact ⟨_, hrec.stream, fun j hj => (hrec.others j hj).trans (Store.find_put_other _ _ _ _ hj.symm), hrec.written, hrec.frame⟩

end BindGrant

/-! ### BIND_TAP (R320) -/

theorem State.bindChecks_notOwned (s : State) (part : Nat) (e : Bytes) (hown : bitAt (s.aon (0xA40 + 4 * bTap e)) 7 = false) :
    s.bindChecks part e = some (St.malformed, 0x0A, 1) := by
  simp [State.bindChecks, hown]

theorem State.bindChecks_channelBound (s : State) (part : Nat) (e : Bytes) (hown : bitAt (s.aon (0xA40 + 4 * bTap e)) 7 = true)
    (hpart : s.aon (0xA40 + 4 * bTap e) % 64 = part) (x : Nat × Stream) (hx : x ∈ s.seals.streams) (htap : x.2.tap = bTap e)
    (hchan : x.2.chan = bChan e) : s.bindChecks part e = some (St.malformed, 0x0A, 2) := by
  have hbound : s.seals.streams.any (fun p => p.2.tap == bTap e && p.2.chan == bChan e) = true :=
    List.any_eq_true.2 ⟨x, hx, by simp [htap, hchan]⟩
  simp [State.bindChecks, hown, hpart, hbound]

section Admitted
variable (s : State) (rid : Nat) (r : Req) (hreq : s.req rid = some r) (hph : r.phase = .admitted)
include hreq hph

theorem exec_bindTap_fails (hop : r.opcode = Opc.bindTap) (st d n : Nat) (hchk : s.bindChecks r.part r.entry = some (st, d, n)) :
    exec (.bindTap rid) s = .next (s.complete rid st d n) := by
  have hfresh := s.fresh_some rid r (fun r => r.opcode == Opc.bindTap) hreq hph (by simp [hop])
  change execBindTap rid s = _
  simp only [execBindTap, hfresh, hchk]

theorem exec_bindTap_passes (hop : r.opcode = Opc.bindTap) (hchk : s.bindChecks r.part r.entry = none) :
    exec (.bindTap rid) s = .next
      (((s.setPhase rid .waitBind).addGrant (.bind rid) [] (some r.part) (resv s.mode.active .digest) r.cls).issueNew s.nextId) := by
  have hfresh := s.fresh_some rid r (fun r => r.opcode == Opc.bindTap) hreq hph (by simp [hop])
  change execBindTap rid s = _
  simp only [execBindTap, hfresh, hchk]

/-! ### UNBIND_TAP and SEAL_CLOSE (R321) -/

variable (k : Nat) (hk : k = fld r.entry 8 1 % 64)
include hk

theorem State.closeBy_unnamed (op cause : Nat) (hop : r.opcode = op) (hnone : s.streamOf r.part k = none) :
    s.closeBy rid op cause = s.reject rid St.malformed 0x0A := by
  have hfresh := s.fresh_some rid r (fun r => r.opcode == op) hreq hph (by simp [hop])
  simp [State.closeBy, hfresh, State.closable, ← hk, hnone]

theorem State.closeBy_named (op cause : Nat) (hop : r.opcode = op) (x : Stream) (hx : s.streamOf r.part k = some x)
    (hopen : x.closing = none) : s.closeBy rid op cause = (s.setPhase rid .waitClose).beginClose k cause (some rid)
      (if op = Opc.sealClose ∧ eFlag r.entry 0 then some (fld r.entry 16 8) else none) := by
  have hfresh := s.fresh_some rid r (fun r => r.opcode == op) hreq hph (by simp [hop])
  simp [State.closeBy, hfresh, State.closable, ← hk, hx, hopen]

end Admitted

/-- A close does nothing before its close point is known. -/
theorem State.advanceClose_of_not_fixed (s : State) (k : Nat) (x : Stream) (c : Closing) (hx : s.stream k = some x)
    (hclosing : x.closing = some c) (hfixed : c.fixed = false) : s.advanceClose k = s := by
  simp [State.advanceClose, hx, hclosing, hfixed]

theorem State.beginClose_atFrame (s : State) (k cause fid : Nat) (rid : Option Nat) (x : Stream) (hx : s.stream k = some x) :
    s.beginClose k cause rid (some fid) =
      s.updStream k (fun x => { x with closing := some ⟨cause, rid, some fid, false⟩ }) :=
  State.advanceClose_of_not_fixed _ k _ _ (s.stream_updStream k _ x hx) rfl rfl

/-! ### TAP_OWN and SEAL_DB (R330, R342) -/

theorem exec_tapOwnWrite_served (s : State) (p : Bool) (ben : BitVec 4) (tap : Nat) (d : Word) (hclk : s.pins.fabClk = true)
    (haon : s.pins.aonRel = true) (hport : s.portErr p false (0xA40 + 4 * tap) = false) (htap : tap < 16) :
    exec (.tapOwnWrite p ben tap d) s = .next { (if s.tapBound tap then { s with seals := { s.seals with ownRej := true } }
      else { s with regsAon := RegFile.set s.regsAon 0 (0xA40 + 4 * tap) (mergeWord (wordOf (s.aon (0xA40 + 4 * tap))) 0xBF ben d) })
        with port := ⟨0, false⟩ } := by
  have hrow := rowAt_tapOwn tap htap
  have htake := s.rwAon_of_row _ ben d _ hrow
  simp only [State.setAon, rstOf, hrow] at htake
  refine (congrArg Host.Outcome.next (s.portWrite_served p _ ben false _ hclk hport (.inl rfl) haon)).trans ?_
  simp only [htake]
  rfl

section SealDoorbell
variable (s : State) (part k : Nat) (x : Stream) (d : Word) (hclk : s.pins.fabClk = true) (haon : s.pins.aonRel = true)
  (hport : s.portErr false false (pageAt part (0x1000 + 16 * k)) = false) (hx : s.streamOf part k = some x)
include hclk haon hport hx

theorem exec_sealDb_rejected (hbad : dbIndex x.ringSize d = none) : exec (.sealDb part k 0xF d) s =
    .next { (s.updStream k (fun y => { y with dbErr := true })).errEvent part with port := ⟨0, false⟩ } := by
  change execSealDb part k 0xF d s = _
  simp only [execSealDb, hx]
  rw [s.portWrite_served false _ 0xF true _ hclk hport (.inr rfl) haon, hbad]

theorem exec_sealDb_taken (v : Nat) (hv : dbIndex x.ringSize d = some v)
    (hfwd : occ x.ringSize x.tail v ≤ occ x.ringSize x.tail x.head) : exec (.sealDb part k 0xF d) s =
      .next { (s.updStream k (fun y => { y with head := v })).startCkpt k with port := ⟨0, false⟩ } := by
  change execSealDb part k 0xF d s = _
  simp only [execSealDb, hx]
  rw [s.portWrite_served false _ 0xF true _ hclk hport (.inr rfl) haon]
  simp only [hv, if_pos hfwd]

end SealDoorbell

theorem State.startCkpt_of_not_due (s : State) (k : Nat) (x : Stream) (hx : s.stream k = some x) (hdue : x.ckptDue = false) :
    s.startCkpt k = s := by
  simp [State.startCkpt, hx, hdue]

/-- Settles O47: a binding by its checks at the entry and at the grant, a close by its stream and its close point, TAP_OWN by the tap's
bindings, SEAL_DB by the index that its word names. -/
theorem sealBinding : Obligations.SealBinding := by
  intro s rid r hreq
  refine ⟨fun k hchk hk hfree hlow => ?granted, fun st d n hchk => s.bindGranted_fails rid r hreq st d n hchk,
    fun hph hop => ⟨fun hown => ?notOwned, fun x hx hown hpart htap hchan => ?channel, fun hchk => ?asked⟩,
    fun k x hph hk hx hopen => ⟨fun hop => ?unbind, fun hop hflag => ?close, fun hop hflag _ => ?closeAt⟩,
    fun k hph hk hnone c hc => ?unnamed, fun p ben tap d hclk haon hport htap => ?tapOwn,
    fun part k x d hclk haon hport hx => ⟨fun hbad => ?rejected, fun hbits hlt hfwd hdue => ?taken⟩⟩
  case granted =>
    obtain ⟨c, hrec⟩ := s.bindGranted_recorded rid r hreq hchk k hk hfree hlow
    have htail : 1 % (2 * 2 ^ bLog2 r.entry) = 1 := Nat.mod_eq_of_lt (by have := Nat.two_pow_pos (bLog2 r.entry); omega)
    exact ⟨_, _, rfl, hrec.stream, rfl, rfl, rfl, rfl, rfl, htail, rfl, rfl, hrec.others, hrec.written, hrec.frame⟩
  case notOwned => exact exec_bindTap_fails s rid r hreq hph hop _ _ _ (s.bindChecks_notOwned r.part r.entry hown)
  case channel =>
    exact exec_bindTap_fails s rid r hreq hph hop _ _ _ (s.bindChecks_channelBound r.part r.entry hown hpart x hx htap hchan)
  case asked => exact exec_bindTap_passes s rid r hreq hph hop hchk
  case unbind => exact congrArg _ (s.closeBy_named rid r hreq hph k hk _ 2 hop x hx hopen)
  case close =>
    refine congrArg _ ((s.closeBy_named rid r hreq hph k hk _ 1 hop x hx hopen).trans ?_)
    rw [if_neg (by simp [hflag])]
  case closeAt =>
    have hstream : (s.setPhase rid .waitClose).stream k = some x := s.stream_of_streamOf r.part k x hx
    have hclose := s.closeBy_named rid r hreq hph k hk _ 1 hop x hx hopen
    rw [if_pos ⟨rfl, hflag⟩, State.beginClose_atFrame _ k 1 _ _ x hstream] at hclose
    exact ⟨_, _, congrArg Host.Outcome.next hclose, State.stream_updStream _ k _ x hstream, rfl, rfl⟩
  case unnamed =>
    rcases hc with ⟨rfl, hop⟩ | ⟨rfl, hop⟩
    · exact congrArg _ (s.closeBy_unnamed rid r hreq hph k hk _ 2 hop hnone)
    · exact congrArg _ (s.closeBy_unnamed rid r hreq hph k hk _ 1 hop hnone)
  case tapOwn =>
    rw [exec_tapOwnWrite_served s p ben tap d hclk haon hport htap]
    exact ⟨fun hbound => by rw [if_pos hbound], fun hbound => by rw [if_neg (by simp [hbound])]⟩
  case rejected => exact exec_sealDb_rejected s part k x d hclk haon hport hx (dbIndex_none _ _ hbad)
  case taken =>
    have hstream := s.stream_updStream k (fun y => { y with
      head := x.ringSize * (d.toNat / 2 ^ 16 % 2) + d.toNat % 2 ^ 16 }) x (s.stream_of_streamOf part k x hx)
    rw [exec_sealDb_taken s part k x d hclk haon hport hx _ (dbIndex_some _ _ hbits hlt) hfwd,
      State.startCkpt_of_not_due _ k _ hstream hdue]
    rfl

end Sys2Proof.Machine
end

section
/-! PROOF. Beats of a tap (spec/10 R314 to R327): the statement O49. -/

namespace Sys2Proof.Machine

/-! ### The marker words of the commands (R314) -/

/-- A beat whose tap is inactive, or whose marker word has bit 8 set, is ignored (R314, R318). -/
def State.beatIgnored (s : State) (tap : Nat) (mrk : BitVec 16) : Prop :=
  s.pins.blkRel = false ∨ s.pins.fabClk = false ∨ s.tapActive tap = false ∨ mrk.getLsbD 8 = true

theorem State.tapBeat_ignored (s : State) (tap : Nat) (data : BitVec 512) (mrk : BitVec 16) (h : s.beatIgnored tap mrk) :
    s.tapBeat tap data mrk = s := by
  rw [State.tapBeat, if_pos (by rcases h with h | h | h | h <;> simp [h])]

theorem exec_tapBeats_ignored (s : State) (tap : Nat) (data : BitVec 512) (mrk : BitVec 16) (h : s.beatIgnored tap mrk) :
    ∀ c ∈ [Instr.tapHeaderBeat tap data mrk, .tapDataBeat tap data mrk, .tapEofBeat tap data mrk, .tapAbortBeat tap data mrk],
      exec c s = .next s := by
  have hbeat (m : BitVec 16) (hm : m.getLsbD 8 = mrk.getLsbD 8) : Host.Outcome.next (s.tapBeat tap data m) = (.next s : Result) := by
    rw [s.tapBeat_ignored tap data m (by rwa [State.beatIgnored, hm])]
  simp only [List.forall_mem_cons, List.not_mem_nil, false_imp_iff, implies_true, and_true]
  exact ⟨hbeat _ (by simp), hbeat _ (by simp), hbeat _ (by simp), hbeat _ (by simp)⟩

section Active
variable (s : State) (tap : Nat) (data : BitVec 512) (mrk : BitVec 16) (hblk : s.pins.blkRel = true) (hclk : s.pins.fabClk = true)
  (hactive : s.tapActive tap = true) (hbit8 : mrk.getLsbD 8 = false)
include hblk hclk hactive hbit8

/-- A beat that is not ignored, by HDR, EOF and ABORT of the marker word. -/
theorem State.tapBeat_served (m : BitVec 16) (hm : m.getLsbD 8 = mrk.getLsbD 8) (hdr eof abort : Bool) (hhdr : m.getLsbD 0 = hdr)
    (heof : m.getLsbD 1 = eof) (habort : m.getLsbD 9 = abort) : s.tapBeat tap data m =
      if abort then (if hdr then (s.abortBeat tap).headerBeat tap (leBytes 64 data.toNat) eof else s.abortBeat tap)
      else if hdr then s.headerBeat tap (leBytes 64 data.toNat) eof
      else s.dataBeat tap (if eof then (leBytes 64 data.toNat).take (bitsAt m.toNat 2 6 + 1) else leBytes 64 data.toNat) eof := by
  rw [State.tapBeat, if_neg (by rw [hblk, hclk, hactive, hm, hbit8]; decide)]
  simp only [hhdr, heof, habort]

theorem exec_tapHeaderBeat_served (heof : mrk.getLsbD 1 = false) (habort : mrk.getLsbD 9 = false) :
    exec (.tapHeaderBeat tap data mrk) s = .next (s.headerBeat tap (leBytes 64 data.toNat) false) :=
  congrArg Host.Outcome.next (s.tapBeat_served tap data mrk hblk hclk hactive hbit8 _ (by simp) true false false (by simp)
    (by simpa using heof) (by simpa using habort))

theorem exec_tapDataBeat_served : exec (.tapDataBeat tap data mrk) s = .next (s.dataBeat tap (leBytes 64 data.toNat) false) :=
  congrArg Host.Outcome.next (s.tapBeat_served tap data mrk hblk hclk hactive hbit8 _ (by simp) false false false (by simp) (by simp) (by simp))

theorem exec_tapEofBeat_served (hhdr : mrk.getLsbD 0 = false) (habort : mrk.getLsbD 9 = false) : exec (.tapEofBeat tap data mrk) s =
    .next (s.dataBeat tap ((leBytes 64 data.toNat).take (bitsAt (mrk ||| 2#16).toNat 2 6 + 1)) true) :=
  congrArg Host.Outcome.next (s.tapBeat_served tap data mrk hblk hclk hactive hbit8 _ (by simp) false true false (by simpa using hhdr)
    (by simp) (by simpa using habort))

theorem exec_tapAbortBeat_served (hhdr : mrk.getLsbD 0 = false) : exec (.tapAbortBeat tap data mrk) s = .next (s.abortBeat tap) :=
  congrArg Host.Outcome.next (s.tapBeat_served tap data mrk hblk hclk hactive hbit8 _ (by simp) false _ true (by simpa using hhdr) rfl
    (by simp))

end Active

/-! ### Header beats (R315, R316, R327) -/

section Header
variable (s : State) (tap : Nat) (d : Bytes) (hopen : s.openOf tap = none)
include hopen

theorem State.headerBeat_noStream (hnone : s.streamAt tap (hChan d) = none) : s.headerBeat tap d false = s.setOpen tap 64 := by
  have hcut : s.cutOpen tap = s := by simp [State.cutOpen, hopen]
  simp [State.headerBeat, hcut, hnone]

theorem State.headerBeat_opens (k : Nat) (x₀ x : Stream) (hat : s.streamAt tap (hChan d) = some (k, x₀))
    (hat' : (s.consume k).streamAt tap (hChan d) = some (k, x)) (hclose : x.pastClose = false) (herr : x.wrErr = none)
    (hrefuse : x.refuse = none) : s.headerBeat tap d false = ((s.consume k).openFrame k x d none).setOpen tap k := by
  have hcut : s.cutOpen tap = s := by simp [State.cutOpen, hopen]
  simp [State.headerBeat, hcut, hat, hat', hclose, herr, hrefuse]

end Header

/-- What `State.consume` changes beside the seal streams is the count of free values used (log entry 61). -/
theorem State.consume_eq (s : State) (k : Nat) : ∃ seals picks, s.consume k = { s with seals := seals, picks := picks } := by
  unfold State.consume
  split <;> exact ⟨_, _, rfl⟩

/-- The frame that a header beat opens. -/
def State.headerFrame (s : State) (x : Stream) (d : Bytes) : Frame :=
  { seq := s.nextId, interval := false, slots := x.slotsWanted, lostAt := s.time.ns, fid := hFid d
    time := if x.timeSrc then s.time.ns else hTime d, declLen := hLen d, data := [], held := 0, ended := false
    reason := none, lane := none, observed := 0 }

/-- The stream that the frame joins. -/
def Stream.joined (x : Stream) (f : Frame) (fid : Nat) : Stream := { x with frames := x.frames ++ [f] }.meetFrame fid

theorem State.openFrame_opens (s : State) (k : Nat) (x : Stream) (d : Bytes) (hx : s.stream k = some x)
    (hsealed : ∀ f ∈ x.frames, f.reason = none) :
    s.openFrame k x d none = (s.updStream k (fun y => y.joined (s.headerFrame x d) (hFid d))).bump := by
  have hstream : (s.updStream k (fun y => y.joined (s.headerFrame x d) (hFid d))).bump.stream k =
      some (x.joined (s.headerFrame x d) (hFid d)) := s.stream_updStream k _ x hx
  have hnone : ∀ f ∈ (x.joined (s.headerFrame x d) (hFid d)).frames, f.reason = none := by
    simpa [Stream.joined, Stream.meetFrame, or_imp, forall_and] using ⟨hsealed, rfl⟩
  exact State.foldGap_of_no_reason _ k _ _ hstream hnone

/-! ### Data and EOF beats (R316, R317, R326) -/

/-- A frame with a beat's bytes in one more buffer tile. -/
def Frame.fed (f : Frame) (bs : Bytes) (eof : Bool) : Frame := { f with data := f.data ++ bs, held := f.held + 1, ended := eof }

/-- A tap's open frame goes on or, with EOF, ends. -/
def State.endIf (s : State) (tap : Nat) (eof : Bool) : State := if eof then s.noOpen tap else s

section Feed
variable (s : State) (tap k : Nat) (bs : Bytes) (eof : Bool) (x : Stream) (f : Frame) (hx : (s.consume k).stream k = some x)
  (hlast : x.frames.getLast? = some f)
include hx hlast

theorem State.feed_buffers (hroom : x.tilesUsed < x.quota) (hlen : f.data.length + bs.length < 2 ^ 32 - 1) :
    s.feed tap k bs eof = ((s.consume k).updStream k (fun y => { y with frames := y.frames.dropLast ++ [f.fed bs eof] })).endIf tap eof := by
  have hframe : (s.consume k).lastFrame k = some f := by simp [State.lastFrame, hx, hlast]
  simp only [State.feed, hx, hframe]
  rw [if_neg (by omega), if_neg (by omega)]
  rfl

theorem State.feed_overloads (hfull : x.quota ≤ x.tilesUsed) :
    s.feed tap k bs false = ((s.consume k).unseal k f.seq rOverload).setOpen tap (192 + k) := by
  have hframe : (s.consume k).lastFrame k = some f := by simp [State.lastFrame, hx, hlast]
  simp [State.feed, hx, hframe, if_pos hfull, State.unsealOpen]

end Feed

section Open
variable (s : State) (tap : Nat)

theorem State.dataBeat_open (bs : Bytes) (eof : Bool) (k : Nat) (hopen : s.openOf tap = some k) (hk : k < 64) :
    s.dataBeat tap bs eof = (s.feed tap k bs eof).afterSeal k := by
  simp only [State.dataBeat, hopen, if_pos hk]

theorem State.dataBeat_closed (bs : Bytes) (eof : Bool) (hopen : s.openOf tap = none) :
    s.dataBeat tap bs eof = if eof then s.marker tap else s := by
  simp only [State.dataBeat, hopen]

theorem State.abortBeat_open (k : Nat) (f : Frame) (hopen : s.openOf tap = some k) (hk : k < 64) (hlast : s.lastFrame k = some f) :
    s.abortBeat tap = ((s.unseal k f.seq rAbandoned).noOpen tap).afterSeal k := by
  simp only [State.abortBeat, hopen, if_pos hk, State.unsealOpen, hlast]

theorem State.abortBeat_closed (hopen : s.openOf tap = none) : s.abortBeat tap = s := by
  simp only [State.abortBeat, hopen]

end Open

/-- Settles O49: each beat by its marker word, then by what the tap has open, then by the room in the stream's buffer. -/
theorem tapBeats : Obligations.TapBeats := by
  intro s tap data mrk
  refine ⟨exec_tapBeats_ignored s tap data mrk, fun hblk hclk hactive hbit8 => ?_⟩
  have hdata := exec_tapDataBeat_served s tap data mrk hblk hclk hactive hbit8
  have heof := exec_tapEofBeat_served s tap data mrk hblk hclk hactive hbit8
  have habort := exec_tapAbortBeat_served s tap data mrk hblk hclk hactive hbit8
  have hbytes : (leBytes 64 data.toNat).length = 64 := length_leBytes 64 _
  refine ⟨fun h1 h9 hopen => ?header, fun u k x f hopen hk hu hx hlast => ⟨fun hroom hlen => ⟨fun _ => ?feeds, fun h0 h9 => ?ends⟩,
    fun hfull _ => ?overload⟩, fun k f hopen hk hlast h0 => ?aborts,
    fun hopen => ⟨fun _ => ?dataAlone, fun h0 h9 => ?eofAlone, fun h0 => ?abortAlone⟩⟩
  case header =>
    rw [exec_tapHeaderBeat_served s tap data mrk hblk hclk hactive hbit8 h1 h9]
    refine ⟨fun hnone => by rw [s.headerBeat_noStream tap _ hopen hnone], fun u k x₀ x hat hu hat' hx hclose herr hrefuse hsealed => ?_⟩
    subst hu
    have hopened := (s.headerBeat_opens tap _ hopen k x₀ x hat hat' hclose herr hrefuse).trans
      (congrArg (State.setOpen · tap k) (State.openFrame_opens _ k x _ hx hsealed))
    obtain ⟨seals, picks, hconsume⟩ := s.consume_eq k
    rw [hconsume] at hopened hx
    exact ⟨_, _, _, congrArg Host.Outcome.next hopened, Store.find_put_self _ _ _, State.stream_updStream _ k _ x hx, rfl, rfl, rfl, rfl, rfl,
      rfl, rfl, rfl, rfl, rfl⟩
  case feeds =>
    subst hu
    rw [hdata, s.dataBeat_open tap _ _ k hopen hk, s.feed_buffers tap k _ _ x f hx hlast hroom (by omega)]
    rfl
  case ends =>
    subst hu
    rw [heof h0 h9, s.dataBeat_open tap _ _ k hopen hk, s.feed_buffers tap k _ _ x f hx hlast hroom (by rw [List.length_take]; omega)]
    rfl
  case overload =>
    subst hu
    rw [hdata, s.dataBeat_open tap _ _ k hopen hk, s.feed_overloads tap k _ x f hx hlast hfull]
  case aborts => rw [habort h0, s.abortBeat_open tap k f hopen hk hlast]
  case dataAlone => rw [hdata, s.dataBeat_closed tap _ _ hopen, if_neg Bool.false_ne_true]
  case eofAlone =>
    rw [heof h0 h9, s.dataBeat_closed tap _ _ hopen, if_pos rfl]
    rfl
  case abortAlone => rw [habort h0, s.abortBeat_closed tap hopen]

end Sys2Proof.Machine
end

section
/-! PROOF. The seal chain of frames, lane waits and checkpoints (spec/10 R323 to R337): the statement O50. -/

namespace Sys2Proof.Machine

/-! ### FRAME_CHAIN_STEP (R323, R326) -/

theorem State.sealGap_of_no_gap (s : State) (k : Nat) (x : Stream) (hx : s.stream k = some x) (hgap : x.gap = none) : s.sealGap k = s := by
  simp [State.sealGap, hx, hgap]

/-- The stream whose head frame is sealed, before the frame's record. -/
def Stream.headSealed (x : Stream) (f : Frame) : Stream :=
  { x with frames := x.frames.drop 1, sealed := x.sealed + 1, sinceCkpt := x.sinceCkpt + 1, lastFid := f.fid }

section ChainStep
variable (s : State) (k : Nat) (x : Stream) (f : Frame) (fs : List Frame) (u : Nat) (hx : s.stream k = some x) (hframes : x.frames = f :: fs)
  (hreason : f.reason = none) (hlane : f.lane = some u)
include hx hframes hreason hlane

theorem exec_frameChainStep_tileFails (n : Nat) : exec (.frameChainStep k (some n)) s = .next (s.tileLost k x f n) := by
  change execFrameChainStep k (some n) s = _
  simp [execFrameChainStep, hx, hframes, hreason, hlane]

theorem exec_frameChainStep_open (hended : f.ended = false) : exec (.frameChainStep k none) s = .next s := by
  change execFrameChainStep k none s = _
  simp [execFrameChainStep, hx, hframes, hreason, hlane, hended]

theorem exec_frameChainStep_seals (hended : f.ended = true) (herr : x.wrErr = none) :
    exec (.frameChainStep k none) s = .next (s.sealFrame k x f u) := by
  change execFrameChainStep k none s = _
  simp [execFrameChainStep, hx, hframes, hreason, hlane, hended, herr]

end ChainStep

/-- The FRAME record of a head frame without a gap before it: its chain value covers the frame's digest, FID and time. -/
theorem State.sealFrame_recorded (s : State) (k : Nat) (x : Stream) (f : Frame) (u : Nat) (hx : s.stream k = some x)
    (herr : x.wrErr = none) (hgap : x.gap = none) : ∃ t : State, s.sealFrame k x f u = ((t.countG 36 1).freeUnit u).afterSeal k ∧
      t.stream k = some ((x.headSealed f).recorded f.fid (chainStep x.sealMat x.chain (hash 2 f.data) f.fid f.time)) := by
  have hsealed : ((s.sealLane u x).updStream k (fun y => y.headSealed f)).stream k = some (x.headSealed f) :=
    State.stream_updStream _ k _ x hx
  have hnoGap : (s.sealLane u x).sealGap k = s.sealLane u x := State.sealGap_of_no_gap _ k x hx hgap
  refine ⟨_, ?_, (State.sealRecord_recorded _ k 2 (b2n (f.declLen != 0 && f.declLen != f.data.length)) f.declLen f.fid f.time
    f.data.length (hash 2 f.data) (x.headSealed f) hsealed herr).stream⟩
  simp only [State.sealFrame, hnoGap]
  rfl

/-! ### FRAME_SEAL_TIMEOUT (R327) -/

theorem exec_frameSealTimeout_head (s : State) (k : Nat) (x : Stream) (f : Frame) (fs : List Frame) (hx : s.stream k = some x)
    (hframes : x.frames = f :: fs) (hreason : f.reason = none) :
    exec (.frameSealTimeout k) s = .next (if f.ended = true then (s.unseal k f.seq rOverload).afterSeal k else s) := by
  change execFrameSealTimeout k s = _
  simp [execFrameSealTimeout, hx, hframes, hreason]

/-! ### Checkpoints (R336, R337) -/

section Checkpoint
variable (s : State) (k : Nat) (x : Stream) (hx : s.stream k = some x)
include hx

theorem exec_checkpointDue_signing (hbound : x.bound = true) (hsigns : x.signs = true) (hsent : x.closeSent = false)
    (herr : x.wrErr = none) (hset : x.ckptFrames ≠ 0) (hdue : x.ckptFrames ≤ x.sinceCkpt) : exec (.checkpointDue k) s =
      .next (((s.updStream k (fun y => { y with ckptDue := true })).startCkpt k).issueNew s.nextId) := by
  change execCheckpointDue k s = _
  simp [execCheckpointDue, hx, hbound, hsigns, hsent, herr, hset, hdue]

theorem exec_checkpointDue_notSigning (h : x.bound = false ∨ x.signs = false ∨ x.closeSent = true) :
    exec (.checkpointDue k) s = .next s := by
  change execCheckpointDue k s = _
  simp only [execCheckpointDue, hx]
  rw [if_neg (by rcases h with h | h | h <;> simp [h])]

theorem exec_checkpointDone_signed (c : Covered) (time : Nat) (final : Bool) (u n : Nat) (sig : Bytes)
    (hjob : x.ckptJob = some (c, time, final)) (hunit : x.ckptUnit = some u) (hawake : (s.unit u).power = .awake)
    (hready : s.rng.ready = true) (hn : n = if x.signEd then 0 else 56)
    (hsig : ckptSign x.signEd x.signMat ((s.drbg (n + 32)).1.take n) (ckptMessage x.takeId c) = some sig) :
    exec (.checkpointDone k) s = .next (((s.drbg (n + 32)).2.putCkpt k x c time final u sig).issueNew s.nextId) := by
  subst hn
  change execCheckpointDone k s = _
  simp only [execCheckpointDone, hx, hjob, hunit]
  rw [if_neg (by simp [hawake, hready])]
  simp only [hsig]

end Checkpoint

/-- Settles O50: the head frame by its end and the step's tile, a checkpoint by its stream, its signature by the job. -/
theorem frameChainAndCheckpoints : Obligations.FrameChainAndCheckpoints := by
  intro s k x hx
  refine ⟨fun f fs u hframes hreason hlane => ⟨fun hended herr hgap => ?sealed,
      fun hended => exec_frameChainStep_open s k x f fs u hx hframes hreason hlane hended,
      fun n => exec_frameChainStep_tileFails s k x f fs u hx hframes hreason hlane n⟩,
    fun f fs hframes hreason => ⟨fun hended => ?late, fun hended => ?running⟩, fun hbound hsigns hsent herr hset hdue => ?due,
    fun h => exec_checkpointDue_notSigning s k x hx h,
    fun c time final u n sig hjob hunit hawake hready hn hsig => ?signed⟩
  case sealed =>
    obtain ⟨t, hseal, hstream⟩ := s.sealFrame_recorded k x f u hx herr hgap
    have hexec := exec_frameChainStep_seals s k x f fs u hx hframes hreason hlane hended herr
    exact ⟨t, _, hexec.trans (congrArg _ hseal), hstream, congrArg (List.drop 1) hframes, rfl, rfl, rfl, rfl, rfl, rfl⟩
  case late => rw [exec_frameSealTimeout_head s k x f fs hx hframes hreason, if_pos hended]
  case running => rw [exec_frameSealTimeout_head s k x f fs hx hframes hreason, if_neg (by simp [hended])]
  case due => exact exec_checkpointDue_signing s k x hx hbound hsigns hsent herr hset hdue
  case signed => exact exec_checkpointDone_signed s k x hx c time final u n sig hjob hunit hawake hready hn hsig

end Sys2Proof.Machine
end

section
/-! PROOF. The block as a whole: a step runs the command at the front of the queue, and no command stops the block or touches the queue
(log entries 1, 5 and 57): the statements O1 and O3. Then what a list of ordered checks answers. -/

namespace Sys2Proof.Machine

theorem step_of_pending (c : Instr) (cs : List Instr) (s : State) (h : s.pending = c :: cs) : step s = exec c { s with pending := cs } := by
  simp only [step, h]

/-- Settles O1: on a queue that is not empty, a step is its front command. -/
theorem stepRunsFrontCommand : Obligations.StepRunsFrontCommand := step_of_pending

/-- Settles O3: a command of any family completes and keeps the queue. -/
theorem everyCommandCompletesAndKeepsQueue : Obligations.EveryCommandCompletesAndKeepsQueue := fun c s =>
  let ⟨t, ht, hmoves⟩ := exec_moves c s
  ⟨t, ht, hmoves.queue⟩

/-! ### Ordered checks -/

@[simp] theorem firstFail_nil : firstFail [] = none := rfl
@[simp] theorem firstFail_passed (l : List Failure) : firstFail (none :: l) = firstFail l := rfl
@[simp] theorem firstFail_failed (f : Nat × Nat) (l : List Failure) : firstFail (some f :: l) = some f := rfl
@[simp] theorem must_true (st d : Nat) : must true st d = none := rfl
@[simp] theorem must_false (st d : Nat) : must false st d = some (st, d) := rfl

end Sys2Proof.Machine
end

section
/-! PROOF. Raw mode (spec/12 R380 to R393): what the admission of WMAC_LIST fixes, and the registers of the result FIFO: the statements O41
and O42. -/

namespace Sys2Proof.Machine

/-! ### The checks of WMAC_LIST, made at its admission (R380, R381, R387) -/

section RawChecks
variable (s : State) (part : Nat) (e : Bytes)

theorem State.rawChecks_malformed (hbody : wmacBodyOk e = false) : s.rawChecks part e = some (St.malformed, 0x0A) := by
  simp [State.rawChecks, hbody]

variable (hbody : wmacBodyOk e = true)
include hbody

theorem State.rawChecks_notPermitted (hperm : s.permits 0xB24 part = false) : s.rawChecks part e = some (St.unsupported, 0x01) := by
  simp [State.rawChecks, hbody, hperm]

variable (hperm : s.permits 0xB24 part = true)
include hperm

theorem State.rawChecks_noCluster (hmask : s.aon 0xB20 % 256 = 0) : s.rawChecks part e = some (St.unsupported, 0x02) := by
  simp [State.rawChecks, hbody, hperm, hmask]

theorem State.rawChecks_passes (hmask : s.aon 0xB20 % 256 ≠ 0) : s.rawChecks part e = none := by
  have hsome : (s.aon 0xB20 % 256 != 0) = true := bne_iff_ne.2 hmask
  simp [State.rawChecks, hbody, hperm, hsome]

end RawChecks

section RawAdmission
variable (s : State) (rid : Nat) (r : Req) (hreq : s.req rid = some r) (hop : r.opcode = Opc.wmacList)
include hop

theorem State.rawAdmit_fails (f : Nat × Nat) (hchk : s.rawChecks r.part r.entry = some f) :
    s.rawAdmit rid r = s.updReq rid (fun x => { x with ending := some f }) := by
  simp [State.rawAdmit, hop, hchk]

theorem State.rawAdmit_reserves (p : Partition) (hpart : s.part r.part = some p) (hchk : s.rawChecks r.part r.entry = none)
    (hfifo : wFifo r.entry ≠ 0) : s.rawAdmit rid r =
      ((s.updReq rid (fun x => { x with mask := s.aon 0xB20 % 256 })).updReq rid
        (fun x => { x with fifo := some (p.rf.tail, wFifo r.entry) })).updPart r.part
          (fun y => { y with rf := y.rf.reserve rid (wFifo r.entry) }) := by
  simp [State.rawAdmit, hop, hchk, hpart, hfifo]

variable (hph : r.phase = .admitted)
include hreq hph

theorem exec_wmacList_fails (st d : Nat) (hend : r.ending = some (st, d)) : exec (.wmacList rid) s = .next (s.reject rid st d) := by
  change execWmacList rid s = _
  have hfresh := s.fresh_some rid r (fun r => r.opcode == Opc.wmacList) hreq hph (by simp [hop])
  simp only [execWmacList, hfresh, hend]

theorem exec_wmacList_passes (hend : r.ending = none) : exec (.wmacList rid) s = .next (s.enqueue rid) := by
  change execWmacList rid s = _
  have hfresh := s.fresh_some rid r (fun r => r.opcode == Opc.wmacList) hreq hph (by simp [hop])
  simp only [execWmacList, hfresh, hend]

end RawAdmission

/-- Settles O41: the checks in their order, then the admission and the command by their outcome. -/
theorem rawRequests : Obligations.RawRequests := by
  intro s rid r hreq hop horig
  refine ⟨s.rawChecks_malformed r.part r.entry, fun hbody => s.rawChecks_notPermitted r.part r.entry hbody,
    fun hbody hperm => s.rawChecks_noCluster r.part r.entry hbody hperm, fun f hchk => ?refused,
    fun p hbody hperm hmask hpart hfifo => ?reserves, fun st d hph hend => exec_wmacList_fails s rid r hreq hop hph st d hend,
    fun hph hend => ?waits⟩
  case refused =>
    rw [s.rawAdmit_fails rid r hop f hchk]
    exact ⟨_, s.req_updReq rid r _ hreq, rfl, rfl⟩
  case reserves =>
    rw [s.rawAdmit_reserves rid r hop p hpart (s.rawChecks_passes r.part r.entry hbody hperm hmask) hfifo]
    exact ⟨_, _, State.req_updReq _ rid _ _ (s.req_updReq rid r _ hreq), State.part_updPart _ r.part _ p hpart, rfl, rfl, rfl, rfl⟩
  case waits =>
    have hneed := r.stagingNeed_eq_zero (by rw [horig]; decide) (by rw [horig]; decide)
    obtain ⟨t, x, ht, hx, hxr, hframe⟩ := s.enqueue_spec rid r hreq
    exact ⟨t, x, (exec_wmacList_passes s rid r hreq hop hph hend).trans (congrArg _ ht), hx,
      (congrArg Req.phase hxr).trans (if_pos hneed), hframe⟩

/-! ### RF_DATA (R389) -/

section ResultFifo
variable (s : State) (part : Nat) (p : Partition) (hclk : s.pins.fabClk = true) (hpart : s.part part = some p)

section Read
variable (hport : s.portErr false true (pageAt part 0xC00) = false)
include hclk hpart hport

theorem exec_rfDataRead_empty (bad : Option Nat) (havail : p.rf.avail = 0) : exec (.rfDataRead part bad) s =
    .next ((s.updPart part (fun x => { x with rf := { x.rf with underrun := true } })).readOut 0 false) := by
  change execRfDataRead part bad s = _
  simp [execRfDataRead, hclk, hport, hpart, havail]

variable (havail : 0 < p.rf.avail)
include havail

theorem exec_rfDataRead_word : exec (.rfDataRead part none) s =
    .next ((s.updPart part (fun x => { x with rf := { x.rf with rd := x.rf.rd + 1 } })).readOut
      (RegFile.get p.rf.words 0 (p.rf.rd % 2048)).toNat false) := by
  change execRfDataRead part none s = _
  simp [execRfDataRead, hclk, hport, hpart, Nat.ne_of_gt havail]

theorem exec_rfDataRead_badTile (k : Nat) : exec (.rfDataRead part (some k)) s =
    .next (((s.updPart part (fun x => { x with rf := { x.rf with tileErr := true, rd := x.rf.rd + 1 } })).send 0x49 0 k).readOut 0
      false) := by
  change execRfDataRead part (some k) s = _
  simp [execRfDataRead, hclk, hport, hpart, Nat.ne_of_gt havail]

end Read

/-! ### RF_CTL (R390) -/

section Write
variable (ben : BitVec 4) (d : Word)

theorem exec_rfRewind : exec (.rfRewind part ben d) s = .next (s.rfCtl part ben (d ||| 1)) := rfl
theorem exec_rfRelease : exec (.rfRelease part ben d) s = .next (s.rfCtl part ben (d ||| 2)) := rfl
theorem exec_rfMark : exec (.rfMark part ben d) s = .next (s.rfCtl part ben (d ||| 4)) := rfl

end Write

section Served
variable (d : Word) (hport : s.portErr false false (pageAt part 0xC04) = false)
include hclk hport

theorem State.rfCtl_partial (ben : BitVec 4) (hben : ben ≠ 0xF) : s.rfCtl part ben d = { s with port := ⟨0, true⟩ } :=
  s.portWrite_partial false _ ben _ hclk hport (fullBen_eq_false ben hben)

theorem State.rfCtl_served (haon : s.pins.aonRel = true) :
    s.rfCtl part 0xF d = (s.updPart part (fun x => { x with rf := x.rf.ctl d })).portDone :=
  s.portWrite_portDone false _ 0xF true _ hclk hport (.inr rfl) haon

end Served

end ResultFifo

/-- Settles O42: a read by what is committed and by its tile, a write by its byte enables and the operations that its data names. -/
theorem resultFifoRegisters : Obligations.ResultFifoRegisters := by
  intro s part p d hclk haon hpart hread hwrite
  have hserved := fun d => s.rfCtl_served part hclk d hwrite haon
  refine ⟨fun havail => ?word, fun k havail => exec_rfDataRead_badTile s part p hclk hpart hread havail k,
    fun b havail => exec_rfDataRead_empty s part p hclk hpart hread b havail, fun ben hben => ?partialWrite,
    congrArg _ (hserved 1), congrArg _ (hserved 2), congrArg _ (hserved 4), ?all⟩
  case word =>
    rw [exec_rfDataRead_word s part p hclk hpart hread havail, State.readOut, wordOf, BitVec.ofNat_toNat, BitVec.setWidth_eq]
    rfl
  case partialWrite =>
    simp only [List.forall_mem_cons, List.not_mem_nil, false_imp_iff, implies_true, and_true]
    rw [exec_rfRewind, exec_rfRelease, exec_rfMark]
    simp only [s.rfCtl_partial part hclk _ hwrite ben hben, and_self]
  case all =>
    refine (congrArg _ (hserved 7)).trans ?_
    simp [State.portDone, State.updPart, ResultFifo.ctl]

end Sys2Proof.Machine
end

section
/-! PROOF. Random bits (spec/11 R345 to R374): the six functions of PKA_OP and the draw of a job, RANDOM, and the events of the entropy source
(log entries 10, 36, 60 and 62): the statements O40 and O54. -/

namespace Sys2Proof.Machine

/-! ### PKA_OP as it is admitted (R350, R354, R361) -/

section PkaChecks
variable (s : State) (part : Nat) (e : Bytes)

theorem State.pkaChecks_malformed (hbody : pkaBodyOk e = false) : s.pkaChecks part e = some (St.malformed, 0x0A) := by
  simp [State.pkaChecks, hbody]

theorem State.pkaChecks_unsupported (hbody : pkaBodyOk e = true) (hknown : pkaKnown (pAlgo e) (pFunc e) = false) :
    s.pkaChecks part e = some (St.unsupported, 0) := by
  simp [State.pkaChecks, hbody, hknown]

end PkaChecks

/-- The six commands of PKA_OP differ in their function alone. -/
theorem exec_pka (s : State) (rid : Nat) :
    exec (.pkaSign rid) s = .next (s.pkaStart rid 1) ∧ exec (.pkaVerify rid) s = .next (s.pkaStart rid 2) ∧
    exec (.pkaAgree rid) s = .next (s.pkaStart rid 3) ∧ exec (.pkaPubkey rid) s = .next (s.pkaStart rid 4) ∧
    exec (.pkaEncrypt rid) s = .next (s.pkaStart rid 5) ∧ exec (.pkaDecrypt rid) s = .next (s.pkaStart rid 6) :=
  ⟨rfl, rfl, rfl, rfl, rfl, rfl⟩

/-- What a PKA_OP that passes its checks notes of its entry: its destination slot, its secret tiles and its key. -/
def State.pkaNoted (s : State) (r : Req) : Req := { r with
  dslot := if pkaDslot (pAlgo r.entry) (pFunc r.entry) then some (s.gOf r.part (pDslot r.entry)) else none
  tiles := pkaTiles r.entry
  keys := (if pkaSlot (pFunc r.entry) then [s.gOf r.part (cSlot r.entry)] else []).map (fun g => (g, s.keyIdOf g)) }

section PkaStart
variable (s : State) (rid : Nat) (r : Req) (hreq : s.req rid = some r) (hop : r.opcode = Opc.pkaOp) (hph : r.phase = .admitted)
include hreq hop hph

theorem State.pkaStart_fails (f : Nat × Nat) (hchk : s.pkaChecks r.part r.entry = some f) :
    s.pkaStart rid (pFunc r.entry) = s.reject rid f.1 f.2 := by
  have hfresh := s.fresh_some rid r (fun x => x.opcode == Opc.pkaOp && (pFunc x.entry == pFunc r.entry ||
    (pFunc r.entry == fSign && !(decide (1 ≤ pFunc x.entry ∧ pFunc x.entry ≤ 6))))) hreq hph (by simp [hop])
  simp only [State.pkaStart, hfresh, hchk]

/-- A job with a secret waits for RAND_RDY, one without for a cluster. -/
theorem State.pkaStart_waitsIn (hchk : s.pkaChecks r.part r.entry = none) :
    s.WaitsIn (s.pkaStart rid (pFunc r.entry)) rid (s.pkaNoted r)
      (if pkaSecret (pFunc r.entry) = true ∧ s.rng.ready = false then .waitRand else r.queueWait) := by
  have hfresh := s.fresh_some rid r (fun x => x.opcode == Opc.pkaOp && (pFunc x.entry == pFunc r.entry ||
    (pFunc r.entry == fSign && !(decide (1 ≤ pFunc x.entry ∧ pFunc x.entry ≤ 6))))) hreq hph (by simp [hop])
  simp only [State.pkaStart, hfresh, hchk]
  generalize hnote : (s.updReq rid _).useKeys rid _ = t
  have hreqs : t.req rid = some (s.pkaNoted r) := hnote ▸ State.req_useKeys _ rid _ _ (s.req_updReq rid r _ hreq)
  have hframe : t = { s with reqs := t.reqs } := by subst hnote; rfl
  have hrng : t.rng = s.rng := by rw [hframe]
  have hwait : (s.pkaNoted r).queueWait = r.queueWait := rfl
  cases hsecret : pkaSecret (pFunc r.entry) with
  | true => simpa only [if_true, true_and, hrng, hwait] using (t.needRandom_waitsIn rid _ hreqs).of_reqs hframe
  | false => simpa only [Bool.false_eq_true, if_false, false_and, hwait] using (t.enqueue_waitsIn rid _ hreqs).of_reqs hframe

end PkaStart

/-! ### The draw of a job (R361, R370) -/

/-- A draw changes the DRBG alone. -/
theorem State.drbg_eq (s : State) (n : Nat) : ∃ bs rng, s.drbg n = (bs, { s with rng := rng }) := ⟨_, _, rfl⟩

section Draw
variable (s : State) (rid : Nat) (r : Req)

/-- The draw's bytes go to the request, its tail to the decoy tiles of the cluster. -/
def State.drawn (n : Nat) : State :=
  ((s.drbg (n + 32)).2.updUnit r.cluster (fun u => { u with
    seqr := (s.drbg (n + 32)).1, tiles := decoyTiles u.tiles ((s.drbg (n + 32)).1.drop n) })).updReq rid (fun x =>
      { x with rand := (s.drbg (n + 32)).1, phase := .ready, ran := true })

theorem State.drawn_frame (n : Nat) : s.drawn rid r n = { s with
    reqs := (s.drawn rid r n).reqs, rng := (s.drbg (n + 32)).2.rng, units := (s.drawn rid r n).units } := by
  obtain ⟨bs, rng, hdraw⟩ := s.drbg_eq (n + 32)
  simp only [State.drawn, hdraw]
  rfl

theorem exec_drbgDrawDone_draws (hreq : s.req rid = some r) (hph : r.phase = .waitRand) (hunits : r.units ≠ []) (hready : s.rng.ready = true) :
    exec (.drbgDrawDone rid) s = .next (s.drawn rid r (pkaDraw r.entry + pkaBlind r.entry (rsaOf (s.keyOf r)).k r.randrep)) := by
  change execDrbgDrawDone rid s = _
  simp [execDrbgDrawDone, hreq, hph, hunits, hready, State.drawn]

theorem State.unit_updUnit_other (u v : Nat) (f : UnitSt → UnitSt) (h : v ≠ u) : (s.updUnit u f).unit v = s.unit v := by
  simp [State.unit, State.updUnit, Store.find_upd_other _ _ _ _ (Ne.symm h)]

end Draw

/-! ### RANDOM (R370 to R372) -/

section Random
variable (s : State) (rid : Nat) (r : Req) (hreq : s.req rid = some r)
include hreq

theorem State.randomNext_waits (hready : s.rng.ready = false) : s.randomNext rid = s.setPhase rid .waitRand := by
  simp [State.randomNext, hreq, hready]

/-- The first chunk: at most 4096 bytes of one generate request, written with CLASS 2. -/
theorem State.randomNext_writes (hready : s.rng.ready = true) (hwrote : r.wrote = 0) (n : Nat) (hn : n = min 4096 (rndLen r.entry)) :
    s.randomNext rid = { s with
      rng := (s.drbg n).2.rng
      reqs := Store.upd s.reqs rid (fun x => { x with phase := .writing, wrote := n, status := St.success, detail := 0, result := 0 })
      fab := s.fab ++ s.writeTxns r.part 2 (rndDst r.entry) (s.drbg n).1 (.out rid) } := by
  obtain ⟨bs, rng, hdraw⟩ := s.drbg_eq n
  have hqueue := State.queueOf_updReq { s with rng := rng } rid
    (fun x => { x with phase := .writing, wrote := n, status := St.success, detail := 0, result := 0 }) (fun _ => rfl) (fun _ => rfl)
  have htxns := State.writeTxns_congr hqueue r.part 2 (rndDst r.entry) bs (.out rid)
  simp only [State.randomNext, hreq, hready, hwrote, Bool.not_true, Bool.false_eq_true, if_false, Nat.sub_zero, Nat.zero_add, Nat.add_zero,
    State.writes, ← hn, hdraw, htxns]
  rfl

theorem exec_entropyWaitTimeout_some : exec (.entropyWaitTimeout rid) s = .next
    (if r.phase = .waitRand ∧ r.units.isEmpty = true ∧ (!s.rng.ready) = true then s.reject rid St.entropyNotReady 0x01 else s) := by
  change execEntropyWaitTimeout rid s = _
  simp only [execEntropyWaitTimeout, hreq]

variable (hph : r.phase = .admitted) (hop : r.opcode = Opc.random) (hdst : rndDst r.entry ≠ 0)
include hph hop hdst

theorem exec_random_checks : exec (.random rid) s = .next (if rndLen r.entry = 0 then s.reject rid St.lengthMismatch 0x03
    else if 65536 < rndLen r.entry then s.reject rid St.lengthMismatch 0x04 else s.randomNext rid) := by
  change execRandom rid s = _
  have hfresh := s.fresh_some rid r (fun x => x.opcode == Opc.random) hreq hph (by simp [hop])
  have hplace : (rndDst r.entry != 0) = true := bne_iff_ne.2 hdst
  by_cases hzero : rndLen r.entry = 0
  · simp [execRandom, hfresh, hplace, hzero]
  · have hsome : (rndLen r.entry != 0) = true := bne_iff_ne.2 hzero
    by_cases hlong : 65536 < rndLen r.entry
    · simp [execRandom, hfresh, hplace, hsome, hzero, Nat.not_le.2 hlong, hlong]
    · simp [execRandom, hfresh, hplace, hsome, hzero, Nat.not_lt.1 hlong, hlong]

end Random

/-- Settles O40: PKA_OP by its checks and its secret, the draw by its one generate request, RANDOM by its length and RAND_RDY. -/
theorem pkaAndRandomRequests : Obligations.PkaAndRandomRequests := by
  refine ⟨fun s rid r hreq hop horig => ⟨s.pkaChecks_malformed r.part r.entry, s.pkaChecks_unsupported r.part r.entry,
      fun f hph hchk => ?fails, fun hph hchk => ?waits, fun n hph hunits hready hn => ?draw⟩,
    fun s rid r hreq => ⟨fun hph hop hdst => ?random, fun hph hunits hready => ?late, fun hph hready => ?inTime⟩⟩
  case fails =>
    obtain ⟨hsign, hverify, hagree, hpubkey, hencrypt, hdecrypt⟩ := exec_pka s rid
    have hstart := s.pkaStart_fails rid r hreq hop hph f hchk
    rw [hsign, hverify, hagree, hpubkey, hencrypt, hdecrypt, ← hstart]
    refine ⟨?_, ?_, ?_, ?_, ?_, ?_⟩ <;> exact fun hfunc => by rw [hfunc]
  case waits =>
    obtain ⟨hsign, hverify, hagree, hpubkey, hencrypt, hdecrypt⟩ := exec_pka s rid
    obtain ⟨⟨n, hx⟩, hframe⟩ := s.pkaStart_waitsIn rid r hreq hop hph hchk
    rw [hsign, hverify, hagree, hpubkey, hencrypt, hdecrypt]
    refine ⟨s.pkaStart rid (pFunc r.entry), _, ?_, ?_, ?_, ?_, ?_, ?_, hx, rfl, rfl, rfl, ?_, hframe⟩
    case refine_7 => simp only [State.pkaNoted]; split <;> rfl
    all_goals exact fun hfunc => by rw [hfunc]
  case draw =>
    have hexec := exec_drbgDrawDone_draws s rid r hreq hph hunits hready
    generalize pkaDraw r.entry + pkaBlind r.entry (rsaOf (s.keyOf r)).k r.randrep = m at hn hexec
    subst hn
    exact ⟨s.drawn rid r m, _, hexec, State.req_updReq _ rid r _ hreq, rfl, rfl,
      fun v hv => State.unit_updUnit_other _ r.cluster v _ hv, s.drawn_frame rid r m⟩
  case random =>
    rw [exec_random_checks s rid r hreq hph hop hdst]
    refine ⟨fun hzero => by rw [if_pos hzero], fun hlong => by rw [if_neg (by omega), if_pos hlong], fun hsome hlen hready => ?_,
      fun hsome hlen hready hwrote => ?_⟩ <;> rw [if_neg hsome, if_neg (by omega)]
    · rw [s.randomNext_waits rid r hreq hready]; rfl
    · rw [s.randomNext_writes rid r hreq hready hwrote _ rfl]
  case late => rw [exec_entropyWaitTimeout_some s rid r hreq, if_pos (by simp [hph, hunits, hready])]
  case inTime => rw [exec_entropyWaitTimeout_some s rid r hreq, if_neg (by simp [hready])]

/-! ### The entropy source (R369 to R374) -/

section Entropy
variable (s : State)

theorem exec_reseed_served (p : Bool) (ben : BitVec 4) (d : Word) (hclk : s.pins.fabClk = true) (haon : s.pins.aonRel = true)
    (hport : s.portErr p false 0xB04 = false) : exec (.reseed p ben d) s = .next
      (if ((ben.getLsbD 0 && d.getLsbD 0) && s.rng.ready && !s.rng.reseeding) = true
        then { s with rng := { s.rng with reseeding := true } } else s).portDone := by
  rw [← benMask_bit0, ← BitVec.getLsbD_and]
  exact congrArg _ (s.portWrite_portDone p 0xB04 ben false _ hclk hport (.inl rfl) haon)

theorem exec_entropyHealthFail_of_not_running (apt : Bool) (hready : s.rng.ready = false) (hstart : s.rng.startup = false) :
    exec (.entropyHealthFail apt) s = .next s := by
  change execEntropyHealthFail apt s = _
  simp [execEntropyHealthFail, State.entropyRuns, hready, hstart]

theorem exec_entropyHealthFail_running (apt : Bool) (hrun : s.rng.ready = true ∨ s.rng.startup = true) :
    exec (.entropyHealthFail apt) s = .next { s with
      rng := { s.rng with key := [], v := [], count := 0, ready := false, startup := true, reseeding := false, rctFail := s.rng.rctFail || !apt
                          aptFail := s.rng.aptFail || apt, fails := satAdd 0xFF s.rng.fails 1 }
      flt := { s.flt with inFlight := s.flt.inFlight ++ [⟨0x81, 5, if apt then 2 else 1⟩] } } :=
  congrArg Host.Outcome.next (if_neg (by rcases hrun with h | h <;> simp [State.entropyRuns, h]))

theorem exec_entropyStartupDone_of_not_startup (hstart : s.rng.startup = false) : exec .entropyStartupDone s = .next s := by
  change execEntropyStartupDone s = _
  simp [execEntropyStartupDone, hstart]

theorem exec_entropyStartupDone_startup (hstart : s.rng.startup = true) : exec .entropyStartupDone s = .next ({ s.instantiate with
    rng := { s.instantiate.rng with startup := false, ready := true } } : State).serveRandom := by
  change execEntropyStartupDone s = _
  simp only [execEntropyStartupDone, hstart, Bool.not_true, Bool.false_eq_true, if_false]

theorem State.serveRandom_of_no_wait (h : ∀ q ∈ s.reqs, q.2.phase ≠ .waitRand) : s.serveRandom = s := by
  have hnone : s.reqs.filter (fun r => r.2.phase == .waitRand && r.2.units.isEmpty) = [] :=
    List.filter_eq_nil_iff.2 fun q hq => by simp [h q hq]
  rw [State.serveRandom, hnone]
  rfl

theorem exec_reseedDue_ready (h : s.rng.ready = true) : exec .reseedDue s = .next { s with rng := { s.rng with reseeding := true } } := by
  cases hre : s.rng.reseeding with
  | false => exact congrArg Host.Outcome.next (if_pos (by simp [h, hre]))
  | true => exact (congrArg Host.Outcome.next (if_neg (by simp [hre]))).trans (by rw [← hre])

theorem exec_reseedDue_of_not_ready (h : s.rng.ready = false) : exec .reseedDue s = .next s :=
  congrArg Host.Outcome.next (if_neg (by simp [h]))

theorem exec_reseedSamplesDone_reseeding (h : s.rng.reseeding = true) : exec .reseedSamplesDone s = .next { s.reseed with
    rng := { s.reseed.rng with reseeding := false } } := congrArg Host.Outcome.next (if_pos h)

theorem exec_reseedSamplesDone_of_not_reseeding (h : s.rng.reseeding = false) : exec .reseedSamplesDone s = .next s :=
  congrArg Host.Outcome.next (if_neg (by simp [h]))

/-- R370: the 2^20th generate request since the last seed starts a reseed of a ready DRBG. -/
theorem State.drbg_reseeds (n : Nat) (hcount : 2 ^ 20 ≤ s.rng.count + 1) (hready : s.rng.ready = true) :
    (s.drbg n).2.rng.reseeding = true := by
  simp only [State.drbg, hready, decide_eq_true hcount, Bool.and_self, Bool.or_true]

end Entropy

/-- Settles O54: each event by the flags of the source that it finds. -/
theorem entropyEvents : Obligations.EntropyEvents := by
  intro s
  refine ⟨fun p ben d hclk haon hport => ⟨fun hben hd hready => ?reseeds, fun hoff => ?ignored⟩,
    exec_entropyHealthFail_running s, exec_entropyHealthFail_of_not_running s, exec_entropyStartupDone_of_not_startup s,
    fun kv t hstart hkv ht => ?started, exec_reseedDue_ready s, exec_reseedDue_of_not_ready s, fun kv hre hkv => ?reseeded,
    exec_reseedSamplesDone_of_not_reseeding s, fun n => ⟨rfl, rfl, s.drbg_reseeds n⟩⟩
  case reseeds =>
    rw [exec_reseed_served s p ben d hclk haon hport, hben, hd, hready]
    cases hre : s.rng.reseeding with
    | false => rfl
    | true => exact congrArg (fun b => Host.Outcome.next { s with rng := { s.rng with reseeding := b }, port := ⟨0, false⟩ }) hre
  case ignored =>
    rw [exec_reseed_served s p ben d hclk haon hport, if_neg (by rcases hoff with h | h | h | h <;> rw [h] <;> simp)]
    rfl
  case started =>
    subst ht hkv
    have hexec := exec_entropyStartupDone_startup s hstart
    exact ⟨hexec, fun hnone => hexec.trans (congrArg _ (State.serveRandom_of_no_wait _ hnone))⟩
  case reseeded =>
    subst hkv
    exact exec_reseedSamplesDone_reseeding s hre

end Sys2Proof.Machine
end

section
/-! PROOF. Keys by entries (spec/13 R402 to R407): KEY_UNWRAP, KEY_DERIVE and KEY_EXPORT as they are admitted, the last cycle of KEY_DERIVE
(log entry 35), and KEY_UNWRAP with ERASE: the statement O39. -/

namespace Sys2Proof.Machine

/-! ### A request that passes keeps its keys and waits for a unit -/

/-- From `s` to `t` the request `r` has kept the keys of these slots and waits for a unit; beside it only the virtual times and one identifier
have moved. -/
def State.KeptAndPlaced (s t : State) (rid : Nat) (r : Req) (gs : List Nat) : Prop :=
  (∃ n, t.req rid = some { r with keys := gs.map (fun g => (g, s.keyIdOf g)), phase := .waitPlace, waitSeq := n }) ∧
  t = { s with reqs := t.reqs, parts := t.parts, nextId := s.nextId + 1 }

section Kept
variable (s : State) (rid : Nat) (r : Req) (gs : List Nat) (hreq : s.req rid = some r) (hneed : r.stagingNeed = 0)
include hreq hneed

theorem State.useKeys_enqueue_kept : s.KeptAndPlaced ((s.useKeys rid gs).enqueue rid) rid r gs := by
  obtain ⟨t, x, rfl, hx, hxr, hframe⟩ := State.enqueue_spec _ rid _ (s.req_useKeys rid r gs hreq)
  rw [if_pos (show ({ r with keys := gs.map (fun g => (g, s.keyIdOf g)) } : Req).stagingNeed = 0 from hneed)] at hxr
  exact ⟨⟨x.waitSeq, hx.trans (congrArg some hxr)⟩, hframe⟩

/-- The target slot is reserved before the keys are kept (R399). -/
theorem State.reserve_enqueue_kept (g : Nat) :
    s.KeptAndPlaced (((s.updReq rid (fun x => { x with dslot := some g })).useKeys rid gs).enqueue rid) rid { r with dslot := some g } gs := by
  obtain ⟨hx, hframe⟩ := State.useKeys_enqueue_kept _ rid _ gs (s.req_updReq rid r (fun x => { x with dslot := some g }) hreq) hneed
  exact ⟨hx, hframe.trans rfl⟩

end Kept

/-! ### KEY_UNWRAP (R402) -/

/-- The checks of KEY_UNWRAP before its grant, in order. -/
def State.unwrapChecks (s : State) (part : Nat) (e : Bytes) : Failure :=
  firstFail [must (unwrapBodyOk e) St.malformed 0x0A, s.targetOk part (kDslot e) (kReplace e), s.wrapKeyOk part (kKslot e),
    must (kInLen e % 8 == 0 && decide (32 ≤ kInLen e ∧ kInLen e ≤ 3616)) St.lengthMismatch 0x03]

section UnwrapChecks
variable (s : State) (part : Nat) (e : Bytes)

theorem State.unwrapChecks_malformed (hbody : unwrapBodyOk e = false) : s.unwrapChecks part e = some (St.malformed, 0x0A) := by
  simp [State.unwrapChecks, hbody]

variable (hbody : unwrapBodyOk e = true)
include hbody

theorem State.unwrapChecks_target (f : Nat × Nat) (htarget : s.targetOk part (kDslot e) (kReplace e) = some f) :
    s.unwrapChecks part e = some f := by
  simp [State.unwrapChecks, hbody, htarget]

variable (htarget : s.targetOk part (kDslot e) (kReplace e) = none)
include htarget

theorem State.unwrapChecks_wrapKey (f : Nat × Nat) (hwrap : s.wrapKeyOk part (kKslot e) = some f) : s.unwrapChecks part e = some f := by
  simp [State.unwrapChecks, hbody, htarget, hwrap]

theorem State.unwrapChecks_length (hwrap : s.wrapKeyOk part (kKslot e) = none) :
    s.unwrapChecks part e = must (decide (kInLen e % 8 = 0 ∧ 32 ≤ kInLen e ∧ kInLen e ≤ 3616)) St.lengthMismatch 0x03 := by
  rw [Bool.decide_and, State.unwrapChecks, hbody, htarget, hwrap, beq_eq_decide]
  cases decide (kInLen e % 8 = 0) && decide (32 ≤ kInLen e ∧ kInLen e ≤ 3616) <;> rfl

end UnwrapChecks

section Unwrap
variable (s : State) (rid : Nat) (r : Req) (hreq : s.req rid = some r) (hph : r.phase = .admitted) (hop : r.opcode = Opc.keyUnwrap)
  (herase : kErase r.entry = false)
include hreq hph hop herase

theorem exec_keyUnwrap_fails (f : Nat × Nat) (hchk : s.unwrapChecks r.part r.entry = some f) :
    exec (.keyUnwrap rid) s = .next (s.reject rid f.1 f.2) := by
  change execKeyUnwrap rid s = _
  have hfresh := s.fresh_some rid r (fun x => x.opcode == Opc.keyUnwrap && !(kErase x.entry)) hreq hph (by simp [hop, herase])
  unfold State.unwrapChecks at hchk
  simp only [execKeyUnwrap, State.unwrapStart, hfresh, hchk]

theorem exec_keyUnwrap_passes (hchk : s.unwrapChecks r.part r.entry = none) : exec (.keyUnwrap rid) s =
    .next (((s.updReq rid (fun x => { x with dslot := some (s.gOf r.part (kDslot r.entry)) })).useKeys rid
      [s.wrapKey r.part (kKslot r.entry)]).enqueue rid) := by
  change execKeyUnwrap rid s = _
  have hfresh := s.fresh_some rid r (fun x => x.opcode == Opc.keyUnwrap && !(kErase x.entry)) hreq hph (by simp [hop, herase])
  unfold State.unwrapChecks at hchk
  simp only [execKeyUnwrap, State.unwrapStart, hfresh, hchk]

end Unwrap

/-! ### KEY_DERIVE (R405, R406) -/

section Derive
variable (s : State) (rid : Nat) (r : Req) (hreq : s.req rid = some r) (hph : r.phase = .admitted) (hop : r.opcode = Opc.keyDerive)
  (hbody : deriveBodyOk r.entry = true)
include hreq hph hop hbody

theorem exec_keyDerive_unsupported (hprf : ¬ (kPrf r.entry = 1 ∨ kPrf r.entry = 2)) :
    exec (.keyDerive rid) s = .next (s.reject rid St.unsupported 0) := by
  change execKeyDerive rid s = _
  have hfresh := s.fresh_some rid r (fun x => x.opcode == Opc.keyDerive) hreq hph (by simp [hop])
  have hno : (kPrf r.entry == 1 || kPrf r.entry == 2) = false := by simpa [not_or] using hprf
  simp [execKeyDerive, State.deriveStart, hfresh, hbody, hno]

theorem exec_keyDerive_passes (hprf : kPrf r.entry = 2) (htarget : s.targetOk r.part (kDslot r.entry) (kReplace r.entry) = none)
    (hvalid : s.slotValid r.part (kKslot r.entry) = none) (a : KeyAttr) (ha : a = (s.slot (s.gOf r.part (kKslot r.entry))).attr)
    (halg : a.alg = 8 ∨ a.alg = 0x0A) (huse : KeyAttr.can a useDerive = true) : exec (.keyDerive rid) s =
      .next (((s.updReq rid (fun x => { x with dslot := some (s.gOf r.part (kDslot r.entry)) })).useKeys rid
        [s.gOf r.part (kKslot r.entry)]).enqueue rid) := by
  change execKeyDerive rid s = _
  have hfresh := s.fresh_some rid r (fun x => x.opcode == Opc.keyDerive) hreq hph (by simp [hop])
  have hkey : (a.alg == 8 || a.alg == 0x0A) = true := by simpa using halg
  simp [execKeyDerive, State.deriveStart, hfresh, hbody, hprf, htarget, hvalid, ← ha, hkey, huse]

end Derive

section DeriveDone
variable (u : State) (rid : Nat) (r : Req)

theorem State.deriveDone_badAttr (h : attrValid (kAttr r.entry) = false ∨ (attrOf (kAttr r.entry)).alg = 0 ∨ 9 < (attrOf (kAttr r.entry)).alg) :
    u.deriveDone rid r = (u.leaveUnits rid r).reject rid St.keyPolicy 0x09 :=
  if_pos (by simpa using h)

theorem State.deriveDone_export (hattr : attrValid (kAttr r.entry) = true) (hzero : (attrOf (kAttr r.entry)).alg ≠ 0)
    (hmax : (attrOf (kAttr r.entry)).alg ≤ 9) (hexp : (u.keyAttr r).exportP < (attrOf (kAttr r.entry)).exportP) :
    u.deriveDone rid r = (u.leaveUnits rid r).reject rid St.keyPolicy 0x08 :=
  (if_neg (by simp [hattr, hzero, hmax])).trans (if_pos hexp)

end DeriveDone

/-! ### KEY_EXPORT (R407) -/

section Export
variable (s : State) (rid : Nat) (r : Req) (hreq : s.req rid = some r) (hph : r.phase = .admitted) (hop : r.opcode = Opc.keyExport)
  (hvalid : s.slotValid r.part (kDslot r.entry) = none) (a : KeyAttr) (ha : a = (s.slot (s.gOf r.part (kDslot r.entry))).attr)
include hreq hph hop hvalid ha

theorem exec_keyExport_ledger (hledger : a.ledger = true) : exec (.keyExport rid) s = .next (s.reject rid St.keyPolicy 0x05) := by
  change execKeyExport rid s = _
  have hfresh := s.fresh_some rid r (fun x => x.opcode == Opc.keyExport) hreq hph (by simp [hop])
  simp [execKeyExport, State.exportStart, hfresh, hvalid, ← ha, hledger]

theorem exec_keyExport_barred (hledger : a.ledger = false) (hexp : a.exportP = 0) :
    exec (.keyExport rid) s = .next (s.reject rid St.keyPolicy 0x08) := by
  change execKeyExport rid s = _
  have hfresh := s.fresh_some rid r (fun x => x.opcode == Opc.keyExport) hreq hph (by simp [hop])
  simp [execKeyExport, State.exportStart, hfresh, hvalid, ← ha, hledger, hexp]

theorem exec_keyExport_passes (hledger : a.ledger = false) (hexp : a.exportP ≠ 0)
    (hkey : kKslot r.entry = 0xFFFF ∨ (a.exportP = 2 ∧ kKslot r.entry ≠ kDslot r.entry)) (hwrap : s.wrapKeyOk r.part (kKslot r.entry) = none)
    (hlen : blobLen a.len ≤ kDstLen r.entry) : exec (.keyExport rid) s =
      .next ((s.useKeys rid [s.wrapKey r.part (kKslot r.entry), s.gOf r.part (kDslot r.entry)]).enqueue rid) := by
  change execKeyExport rid s = _
  have hfresh := s.fresh_some rid r (fun x => x.opcode == Opc.keyExport) hreq hph (by simp [hop])
  have hsome : (a.exportP != 0) = true := bne_iff_ne.2 hexp
  have hother : (kKslot r.entry == 0xFFFF || (a.exportP == 2 && kKslot r.entry != kDslot r.entry)) = true := by simpa using hkey
  simp [execKeyExport, State.exportStart, hfresh, hvalid, ← ha, hledger, hsome, hother, hwrap, hlen]

end Export

/-! ### KEY_UNWRAP with ERASE (R404) -/

section Erase
variable (s : State) (rid : Nat) (r : Req) (g : Nat) (hreq : s.req rid = some r) (hph : r.phase = .admitted)
  (hop : r.opcode = Opc.keyUnwrap) (herase : kErase r.entry = true) (hbody : unwrapBodyOk r.entry = true)
  (hslot : s.slotIn r.part (kDslot r.entry) = true) (hg : g = s.gOf r.part (kDslot r.entry))
include hreq hph hop herase hbody hslot hg

theorem exec_keyUnwrapErase_reserved (hres : s.isReserved g = true) :
    exec (.keyUnwrapErase rid) s = .next (s.reject rid St.keySlotInvalid 0x03) := by
  change execKeyUnwrapErase rid s = _
  have hfresh := s.fresh_some rid r (fun x => x.opcode == Opc.keyUnwrap && kErase x.entry) hreq hph (by simp [hop, herase])
  simp [execKeyUnwrapErase, State.eraseStart, hfresh, hbody, hslot, ← hg, hres]

variable (hres : s.isReserved g = false)
include hres

theorem exec_keyUnwrapErase_empty (hst : (s.slot g).st = .empty) : exec (.keyUnwrapErase rid) s = .next (s.complete rid St.success 0 0) := by
  change execKeyUnwrapErase rid s = _
  have hfresh := s.fresh_some rid r (fun x => x.opcode == Opc.keyUnwrap && kErase x.entry) hreq hph (by simp [hop, herase])
  simp [execKeyUnwrapErase, State.eraseStart, hfresh, hbody, hslot, ← hg, hres, hst]

theorem exec_keyUnwrapErase_erases (hst : (s.slot g).st ≠ .empty) : exec (.keyUnwrapErase rid) s =
    .next (((s.eraseG g).cfgGraft (.erase (.slots [g]))).updReq rid (fun x => { x with
      phase := .waitAck, waitSeqAck := some s.nextSeq, waitGraft := ((s.eraseG g).cfgGraft (.erase (.slots [g]))).lastGraft })) := by
  change execKeyUnwrapErase rid s = _
  have hfresh := s.fresh_some rid r (fun x => x.opcode == Opc.keyUnwrap && kErase x.entry) hreq hph (by simp [hop, herase])
  simp [execKeyUnwrapErase, State.eraseStart, hfresh, hbody, hslot, ← hg, hres, hst]

end Erase

/-- What the erasure of a slot and its graft leave as they are. -/
theorem State.eraseG_cfgGraft_spec (s : State) (g : Nat) (b : GraftBody) : ∃ t, (s.eraseG g).cfgGraft b = t ∧
    (t.slot g).st = .empty ∧ (t.slot g).mat = [] ∧ (∀ h, h ≠ g → t.slot h = s.slot h) ∧ t.persist.change = true ∧
    t = { s with hw := t.hw, units := t.units, persist := t.persist, pair := t.pair } := by
  have hslot : ∀ h, ((s.eraseG g).cfgGraft b).slot h = if h = g then HwSlot.blank else s.slot h := fun h => by
    rw [State.cfgGraft_eq, ← s.slot_eraseG g h]; rfl
  refine ⟨_, rfl, by rw [hslot, if_pos rfl]; rfl, by rw [hslot, if_pos rfl]; rfl, fun h hh => by rw [hslot, if_neg hh], ?_, ?_⟩
  · rw [State.cfgGraft_eq]
    exact (s.slotDirty_eq g (s.tilesAt g)).2
  · rw [State.cfgGraft_eq, State.eraseG_eq]

/-- Settles O39: each command by the outcome of its ordered checks, KEY_DERIVE's last cycle by its ATTR, ERASE by the state of the slot. -/
theorem keyRequests : Obligations.KeyRequests := by
  refine ⟨fun s rid r e hreq hph horig he => ?_, fun s rid r g hreq hph hop herase hbody hslot hg =>
    ⟨exec_keyUnwrapErase_reserved s rid r g hreq hph hop herase hbody hslot hg,
      exec_keyUnwrapErase_empty s rid r g hreq hph hop herase hbody hslot hg, fun hres hst => ?erases⟩⟩
  case erases =>
    obtain ⟨t, ht, hempty, hmat, hothers, hchange, hframe⟩ := s.eraseG_cfgGraft_spec g (.erase (.slots [g]))
    have hexec := exec_keyUnwrapErase_erases s rid r g hreq hph hop herase hbody hslot hg hres hst
    rw [ht] at hexec
    have hreq' : t.req rid = some r := by rw [hframe]; exact hreq
    exact ⟨_, _, hexec, hempty, hmat, hothers, t.req_updReq rid r _ hreq', rfl, rfl, hchange, by rw [hframe]; rfl⟩
  subst he
  have hneed (op : Nat) (hop : r.opcode = op) (haead : op ≠ Opc.aead) (hpka : op ≠ Opc.pkaOp) : r.stagingNeed = 0 :=
    r.stagingNeed_eq_zero (by rwa [horig, hop]) (by rwa [horig, hop])
  refine ⟨fun hop herase => ?unwrap, fun hop hbody => ⟨exec_keyDerive_unsupported s rid r hreq hph hop hbody,
      fun a ha hprf htarget hvalid halg huse => ?derives, fun u b hb => ?lastCycle⟩,
    fun hop hvalid a ha => ⟨exec_keyExport_ledger s rid r hreq hph hop hvalid a ha, exec_keyExport_barred s rid r hreq hph hop hvalid a ha,
      fun hledger hexp hkey hwrap hlen => ?exports⟩⟩
  case unwrap =>
    have hfails := exec_keyUnwrap_fails s rid r hreq hph hop herase
    refine ⟨fun hbody => hfails (St.malformed, 0x0A) (s.unwrapChecks_malformed r.part r.entry hbody),
      fun f hbody htarget => hfails f (s.unwrapChecks_target r.part r.entry hbody f htarget),
      fun f hbody htarget hwrap => hfails f (s.unwrapChecks_wrapKey r.part r.entry hbody htarget f hwrap),
      fun hbody htarget hwrap hlen => hfails (St.lengthMismatch, 0x03) ?_, fun hbody htarget hwrap hmod hmin hmax => ?_⟩
    · rw [s.unwrapChecks_length r.part r.entry hbody htarget hwrap, decide_eq_false hlen, must_false]
    · have hchk : s.unwrapChecks r.part r.entry = none := by
        rw [s.unwrapChecks_length r.part r.entry hbody htarget hwrap, decide_eq_true ⟨hmod, hmin, hmax⟩, must_true]
      obtain ⟨⟨n, hx⟩, hframe⟩ := s.reserve_enqueue_kept rid r [s.wrapKey r.part (kKslot r.entry)] hreq
        (hneed _ hop (by decide) (by decide)) (s.gOf r.part (kDslot r.entry))
      exact ⟨_, _, exec_keyUnwrap_passes s rid r hreq hph hop herase hchk, hx, rfl, rfl, rfl, hframe⟩
  case lastCycle =>
    subst hb
    exact ⟨u.deriveDone_badAttr rid r, u.deriveDone_export rid r⟩
  case derives =>
    obtain ⟨⟨n, hx⟩, hframe⟩ := s.reserve_enqueue_kept rid r [s.gOf r.part (kKslot r.entry)] hreq
      (hneed _ hop (by decide) (by decide)) (s.gOf r.part (kDslot r.entry))
    exact ⟨_, _, exec_keyDerive_passes s rid r hreq hph hop hbody hprf htarget hvalid a ha halg huse, hx, rfl, rfl, rfl, rfl, hframe⟩
  case exports =>
    obtain ⟨⟨n, hx⟩, hframe⟩ := s.useKeys_enqueue_kept rid r [s.wrapKey r.part (kKslot r.entry), s.gOf r.part (kDslot r.entry)] hreq
      (hneed _ hop (by decide) (by decide))
    exact ⟨_, _, exec_keyExport_passes s rid r hreq hph hop hvalid a ha hledger hexp hkey hwrap hlen, hx, rfl, rfl, hframe⟩

end Sys2Proof.Machine
end

section
/-! PROOF. The banks of the persistence region (spec/13 R416 to R431, spec/08 R272, R277; log entry 18): which bank phase A2 takes, when an
image starts, and what its acknowledgement or its loss does: the statements O21 and O52. -/

namespace Sys2Proof.Machine

/-! ### The choice between the banks (R400, R426 to R429) -/

/-- A bank written under another device key is none (R400). -/
theorem State.headed_seen_of_other_key (s : State) (x : BankRead) (h : kdf256 x.dk (ascii "BNK") [] ≠ s.devKey "BNK" []) :
    headed (s.seen x) = false := by
  simp [headed, State.seen, h]

theorem selectBank_of_not_headed (a b : BankRead) (ha : headed a = false) (hb : headed b = false) : selectBank a b = none := by
  simp [selectBank, ha, hb]

/-- The image of the bank that is taken; an empty one where none is. -/
def bankImage (a b : BankRead) : Image := (selectBank a b).elim noImage (fun k => if k then b.image else a.image)

theorem bankImage_of_some (a b : BankRead) (k : Bool) (h : selectBank a b = some k) : bankImage a b = (if k then b else a).image := by
  rw [bankImage, h]
  cases k <;> rfl

theorem bankImage_of_none (a b : BankRead) (h : selectBank a b = none) : bankImage a b = noImage := by
  rw [bankImage, h]
  rfl

/-- What the taken bank fixes before its keys are restored (R427 to R429). -/
def State.bankTaken (s : State) (a b : BankRead) : State := { s with
  mode := { s.mode with phase := .a2Done, fresh := (selectBank a b).isNone }
  parts := (bankImage a b).parts.foldl (fun (ps : Store Partition) (r : PartRec) => Store.put ps r.part (takePart none r)) []
  pair := { s.pair with ident := (bankImage a b).ident, acctWait := (bankImage a b).acctWait }
  ledger := { s.ledger with accts := (bankImage a b).accts.zipIdx.map (fun (x : Acct × Nat) => (x.2, x.1)), histRdy := true }
  persist := { s.persist with
    lastSeq := seqBase a b, ackSeq := (selectBank a b).elim 0 (fun k => if k then b.seq else a.seq), ackBank := (selectBank a b).getD true
    selB := (selectBank a b).getD false, boot := 2, dirtyA := allSections, dirtyB := allSections, writeA := allSections, writeB := allSections
    change := true } }

theorem State.takeBank_eq (s : State) (a b : BankRead) : s.takeBank a b =
    ({ ((s.bankTaken a b).restoreKeys (bankImage a b)).markHistory with
      mode := { ((s.bankTaken a b).restoreKeys (bankImage a b)).markHistory.mode with afterAon := false } } : State).linkCheck.stageStart 9 :=
  rfl

/-- With the link OFF, restoring the keys and checking the link change the slots, KEKs, messages and the link's own fields alone. -/
theorem State.takeBank_spec (s : State) (a b : BankRead) (hlink : s.pair.link = .off) : ∃ u : State, s.takeBank a b = u.stageStart 9 ∧
    u.mode = { (s.bankTaken a b).mode with afterAon := false } ∧ u.parts = (s.bankTaken a b).parts ∧ u.persist = (s.bankTaken a b).persist ∧
    u.ledger = (s.bankTaken a b).ledger ∧ u.pair.ident = (bankImage a b).ident ∧ u.pair.acctWait = (bankImage a b).acctWait ∧
    (s.hw.alarm = true ∨ selectBank a b = none → u.hw.slots = [] ∧ u.hw.keks = []) := by
  obtain ⟨hw, n, flt, hkeys, hempty⟩ := (s.bankTaken a b).restoreKeys_eq (bankImage a b)
  have htake := s.takeBank_eq a b
  rw [hkeys] at htake
  generalize hv : ({ State.markHistory _ with mode := _ } : State) = v at htake
  obtain ⟨p, i, q, hcheck, hident, hwait⟩ := v.linkCheck_off (by rw [← hv]; exact hlink)
  rw [hcheck] at htake
  subst hv
  refine ⟨_, htake, rfl, rfl, rfl, rfl, hident, hwait, fun hnone => ?_⟩
  obtain ⟨hslots, hkeks⟩ := hempty (hnone.imp id Option.isNone_iff_eq_none.2)
  exact ⟨by simp [State.markHistory, Store.mapAll, hslots], hkeks⟩

theorem exec_bankSelect_read (s : State) (x y : BankRead) (hph : s.mode.phase = .a2Read)
    (hfab : s.fab.any (fun t => t.purpose == .bankRead && t.phase != .held) = false) :
    exec (.bankSelect x y) s = .next (s.takeBank (s.seen x) (s.seen y)) :=
  congrArg Host.Outcome.next (if_neg (by simp [hph, hfab]))

theorem map_snd_zipIdx_swap {α : Type} (l : List α) : (l.zipIdx.map (fun x => (x.2, x.1))).map Prod.snd = l := by
  rw [List.map_map]
  exact List.zipIdx_map_fst 0 l

/-- Settles O21: both reads are in, so the bank is taken; the image by whether there is one, the keys by the key alarm. -/
theorem bankSelection : Obligations.BankSelection := by
  intro s x y a b ha hb hph hfab hlink
  subst ha hb
  refine ⟨fun hx hy => selectBank_of_not_headed _ _ (s.headed_seen_of_other_key x hx) (s.headed_seen_of_other_key y hy), ?_⟩
  obtain ⟨u, htake, hmode, hparts, hpersist, hledger, hident, hwait, hempty⟩ := s.takeBank_spec (s.seen x) (s.seen y) hlink
  refine ⟨u, (exec_bankSelect_read s x y hph hfab).trans (congrArg _ htake), by rw [hmode]; rfl, by rw [hmode]; rfl, by rw [hpersist]; rfl,
    by rw [hpersist]; rfl, by rw [hpersist]; rfl, by rw [hpersist]; rfl, by rw [hledger]; rfl, fun k hk => ?taken, fun hnone => ?none,
    fun halarm => hempty (.inl halarm)⟩
  case taken =>
    rw [hident, hwait, hledger, hparts, State.bankTaken, bankImage_of_some _ _ k hk]
    exact ⟨rfl, rfl, map_snd_zipIdx_swap _, rfl⟩
  case none =>
    obtain ⟨hslots, hkeks⟩ := hempty (.inr hnone)
    rw [hident, hledger, hparts, State.bankTaken, bankImage_of_none _ _ hnone]
    exact ⟨rfl, rfl, hslots, hkeks, rfl⟩

/-! ### When an image starts (R272, R277, R420, R421) -/

section ImageStart
variable (s : State)

theorem exec_imageStart_starts (himg : s.imaging = true) (hup : s.ledger.persistDown = false) (hdue : s.persist.lease = true ∨
    0 < s.persist.boot ∨ s.zeroising = true ∨ (s.persist.change = true ∧ s.persist.batch = true)) :
    exec .imageStart s = .next s.startImage := congrArg Host.Outcome.next (if_pos ⟨himg, by simp [hup], hdue⟩)

theorem exec_imageStart_waits (h : s.imaging = false ∨ s.ledger.persistDown = true) : exec .imageStart s = .next s :=
  congrArg Host.Outcome.next (if_neg (by rcases h with h | h <;> simp [h]))

theorem exec_batchExpiry_starts (himg : s.imaging = true) (hup : s.ledger.persistDown = false) (hchange : s.persist.change = true) :
    exec .batchExpiry s = .next s.startImage :=
  congrArg Host.Outcome.next ((if_neg (by simp [hchange])).trans (if_pos ⟨himg, by simp [hup]⟩))

theorem exec_batchExpiry_waits (h : s.imaging = false ∨ s.ledger.persistDown = true) (hchange : s.persist.change = true) :
    exec .batchExpiry s = .next { s with persist := { s.persist with batch := true } } :=
  congrArg Host.Outcome.next ((if_neg (by simp [hchange])).trans (if_neg (by rcases h with h | h <;> simp [h])))

theorem exec_batchExpiry_idle (hchange : s.persist.change = false) : exec .batchExpiry s = .next s :=
  congrArg Host.Outcome.next (if_pos (by simp [hchange]))

theorem exec_persistRetryExpiry_starts (himg : s.imaging = true) (hdown : s.ledger.persistDown = true) :
    exec .persistRetryExpiry s = .next s.startImage := congrArg Host.Outcome.next (if_pos ⟨himg, hdown⟩)

theorem exec_persistRetryExpiry_waits (h : s.imaging = false ∨ s.ledger.persistDown = false) : exec .persistRetryExpiry s = .next s :=
  congrArg Host.Outcome.next (if_neg (by rcases h with h | h <;> simp [h]))

end ImageStart

/-! ### The outcome of an image (R277, R424) -/

section Outcome
variable (s : State) (p : Bool) (d : Word)

theorem exec_persistAck_served (hclk : s.pins.fabClk = true) (haon : s.pins.aonRel = true) (hport : s.portErr p false 0xD1C = false) :
    exec (.persistAck p 0xF d) s = .next ((s.named d).elim s.late s.imageAcked).portDone :=
  congrArg Host.Outcome.next (s.portWrite_portDone p 0xD1C 0xF true _ hclk hport (.inr rfl) haon)

theorem exec_persistNak_served (hclk : s.pins.fabClk = true) (haon : s.pins.aonRel = true) (hport : s.portErr p false 0xD20 = false) :
    exec (.persistNak p 0xF d) s = .next ((s.named d).elim s.late (fun _ => s.imageUnacked)).portDone :=
  congrArg Host.Outcome.next (s.portWrite_portDone p 0xD20 0xF true _ hclk hport (.inr rfl) haon)

theorem exec_persistAckTimeout_out (o : ImgOut) (hout : s.persist.out = some o) : exec .persistAckTimeout s =
    .next (if o.valid = true ∧ s.aon 0xD0C % 2 ^ 16 ≠ 0 then s.imageUnacked else s) := by
  change execPersistAckTimeout s = _
  simp only [execPersistAckTimeout, hout]

theorem exec_persistAckTimeout_none (hout : s.persist.out = none) : exec .persistAckTimeout s = .next s := by
  change execPersistAckTimeout s = _
  simp only [execPersistAckTimeout, hout]

end Outcome

theorem State.ledgerRise_eq (s : State) : s.ledgerRise = { s with irq := s.ledgerRise.irq } := by
  unfold State.ledgerRise; split <;> rfl

theorem State.persistRise_eq (s : State) : s.persistRise = { s with irq := s.persistRise.irq } := by
  unfold State.persistRise; split <;> rfl

/-- Without a request that waits for a lease none is barred. -/
theorem State.barWaiters_of_no_wait (s : State) (d : Nat) (h : ∀ q ∈ s.reqs, q.2.phase ≠ .waitLease) : s.barWaiters d = s := by
  have hnone : s.reqs.filter (fun r => r.2.phase == .waitLease) = [] := List.filter_eq_nil_iff.2 fun q hq => by simp [h q hq]
  rw [State.barWaiters, hnone]
  rfl

theorem State.persistDown_of_no_wait (s : State) (h : ∀ q ∈ s.reqs, q.2.phase ≠ .waitLease) : ∃ irq flt,
    s.persistDown = { s with ledger := { s.ledger with persistDown := true }, irq := irq, flt := flt } := by
  unfold State.persistDown
  cases hdown : s.ledger.persistDown with
  | true => exact ⟨s.irq, s.flt, (s.barWaiters_of_no_wait 2 h).trans (by rw [← hdown])⟩
  | false =>
    rw [if_neg (by decide), State.ledgerRise_eq]
    exact ⟨_, _, State.barWaiters_of_no_wait _ 2 h⟩

/-- A lost image's changes are carried again (R102, R424). -/
theorem State.imageLost_spec (s : State) (o : ImgOut) (hout : s.persist.out = some o) : ∃ info dirtyA dirtyB irq, s.imageLost = { s with
    persist := { s.persist with out := none, lost := true, lostCnt := satAdd 0xFFFF s.persist.lostCnt 1, change := true
                                pendInfo := info, dirtyA := dirtyA, dirtyB := dirtyB }
    irq := irq } := by
  unfold State.imageLost
  simp only [hout]
  split
  · rw [State.persistRise_eq]
    exact ⟨_, _, _, _, rfl⟩
  · exact ⟨_, _, _, _, rfl⟩

/-- Settles O52: the commands that start an image by what is due and what holds it back, the outcome by the image that is named. -/
theorem persistImages : Obligations.PersistImages := by
  intro s
  refine ⟨fun c hc himg => ?starts, fun himg => ⟨exec_imageStart_waits s (.inl himg), exec_persistRetryExpiry_waits s (.inl himg),
      exec_batchExpiry_waits s (.inl himg)⟩, exec_batchExpiry_idle s,
    fun hdown => ⟨exec_imageStart_waits s (.inr hdown), exec_batchExpiry_waits s (.inr hdown)⟩,
    fun hup => exec_persistRetryExpiry_waits s (.inr hup), fun p d hclk haon => ⟨fun hport => ?ack, fun hport => ?nak⟩,
    fun o hout hvalid htmo => ?timeout, fun h => ?noTimeout, fun o hout hnone => ?lost⟩
  case starts =>
    have hexec : exec c s = .next s.startImage := by
      rcases hc with ⟨rfl, hup, hdue⟩ | ⟨rfl, hchange, hup⟩ | ⟨rfl, hdown⟩
      · exact exec_imageStart_starts s himg hup hdue
      · exact exec_batchExpiry_starts s himg hup hchange
      · exact exec_persistRetryExpiry_starts s himg hdown
    obtain ⟨t, o, ht, hspec⟩ := s.startImage_spec
    exact ⟨t, o, hexec.trans (congrArg _ ht), hspec⟩
  case ack =>
    have hexec := exec_persistAck_served s p d hclk haon hport
    exact ⟨fun hnone => by rw [hexec, hnone]; rfl, fun o ho => by rw [hexec, ho, Option.elim_some, State.portDone]⟩
  case nak =>
    have hexec := exec_persistNak_served s p d hclk haon hport
    refine ⟨fun hnone => by rw [hexec, hnone]; rfl, fun hsome => ?_⟩
    obtain ⟨o, ho⟩ := Option.ne_none_iff_exists'.1 hsome
    rw [hexec, ho, Option.elim_some, State.portDone]
  case timeout => rw [exec_persistAckTimeout_out s o hout, if_pos ⟨hvalid, htmo⟩]
  case noTimeout =>
    cases hout : s.persist.out with
    | none => exact exec_persistAckTimeout_none s hout
    | some o => rw [exec_persistAckTimeout_out s o hout, if_neg fun hdue => hdue.2 (h.resolve_left (by simp [hout]))]
  case lost =>
    obtain ⟨info, dirtyA, dirtyB, irq, hlost⟩ := s.imageLost_spec o hout
    obtain ⟨irq', flt, hdown⟩ := s.imageLost.persistDown_of_no_wait (by rw [hlost]; exact hnone)
    have hunacked : s.imageUnacked = _ := hdown
    rw [hunacked, hlost]
    exact ⟨rfl, rfl, rfl, rfl, rfl, rfl, rfl⟩

end Sys2Proof.Machine
end

section
/-! PROOF. UNIT_CMD (spec/17 R516 to R519): what refuses an operation and what FENCE, TEST and UNFENCE do to the unit (log entry 48): the
statement O53. -/

namespace Sys2Proof.Machine

/-! ### The operations, once UNIT_CMD names a unit (R517, R519) -/

/-- An operation on a unit after refusals 1 to 3 of R518. -/
def State.unitOp (f : State → Nat → State) (s : State) (u : Nat) : State := (s.unitBar u).elim (f s u) (fun n => s.unitReject n u)

/-- FENCE. -/
def State.unitFenceOp (s : State) (u : Nat) : State :=
  if s.fenceEmpties u then s.unitReject 4 u
  else if (s.unit u).testFence then s.unitReject 5 u
  else if isTapSrc u then s.fenceNow u
  else { s.updUnit u (fun x => { x with fencePend := true }) with bg := { s.bg with unitBusy := some (1, u) } }

/-- TEST. -/
def State.unitTestOp (s : State) (u : Nat) : State :=
  if !(s.unit u).testFence then s.unitReject 5 u
  else (({ s with bg := { s.bg with unitBusy := some (2, u), unitResult := 0 } } : State).addGrant .unitTest [u] none 0 3).issueNew s.nextId

/-- UNFENCE. -/
def State.unitUnfenceOp (s : State) (u : Nat) : State :=
  if !(s.unit u).testFence then s.unitReject 5 u else (s.updUnit u UnitSt.unfence).unitOpDone u

/-- The commands of UNIT_CMD with their operations. -/
def unitCmdOps (p : Bool) (ben : BitVec 4) (d : Word) : List (Instr × (State → Nat → State)) :=
  [(.unitFence p ben d, State.unitFenceOp), (.unitTest p ben d, State.unitTestOp), (.unitUnfence p ben d, State.unitUnfenceOp)]

theorem exec_unitCommand (s : State) (p : Bool) (ben : BitVec 4) (d : Word) :
    ∀ c ∈ unitCmdOps p ben d, exec c.1 s = .next (s.unitWrite p ben d (State.unitOp c.2)) := by
  have hop (f g : State → Nat → State) (h : ∀ t u, (match t.unitBar u with | some n => t.unitReject n u | none => f t u) = g t u) :
      (fun (t : State) u => match t.unitBar u with | some n => t.unitReject n u | none => f t u) = g := funext₂ h
  have hmatch (f : State → Nat → State) (t : State) (u : Nat) :
      (match t.unitBar u with | some n => t.unitReject n u | none => f t u) = State.unitOp f t u := by
    unfold State.unitOp
    cases t.unitBar u <;> rfl
  simp only [unitCmdOps, List.forall_mem_cons, List.not_mem_nil, false_imp_iff, implies_true, and_true]
  refine ⟨?_, ?_, ?_⟩ <;> exact congrArg (fun f => Host.Outcome.next (s.unitWrite p ben d f)) (hop _ _ (hmatch _))

/-! ### A served write of UNIT_CMD (R516, R518, R551) -/

section UnitWrite
variable (s v : State) (p : Bool) (ben : BitVec 4) (d : Word) (u : Nat) (hclk : s.pins.fabClk = true) (haon : s.pins.aonRel = true)
  (hport : s.portErr p false 0x2000 = false) (hben : ben.getLsbD 1 = true) (hv : v = s.cmdRw 0x2000 s.bg.unitBusy.isSome 0x40000000 ben d)
  (hu : u = v.blk 0x2000 % 256)
include hclk haon hport hben hv hu

theorem exec_unitCommand_busy (hbusy : s.bg.unitBusy ≠ none) :
    ∀ c ∈ unitCmdOps p ben d, exec c.1 s = .next (v.unitReject 6 u).portDone := fun c hc => by
  rw [exec_unitCommand s p ben d c hc, State.unitWrite, s.portWrite_portDone p 0x2000 ben false _ hclk hport (.inl rfl) haon, hu, hv]
  simp only [hben, Option.isSome_iff_ne_none.2 hbusy, Bool.not_true, Bool.false_eq_true, if_false, if_true]

theorem exec_unitCommand_idle (hidle : s.bg.unitBusy = none) :
    ∀ c ∈ unitCmdOps p ben d, exec c.1 s = .next (State.unitOp c.2 v u).portDone := fun c hc => by
  rw [exec_unitCommand s p ben d c hc, State.unitWrite, s.portWrite_portDone p 0x2000 ben false _ hclk hport (.inl rfl) haon, hu, hv]
  simp only [hben, hidle, Option.isSome_none, Bool.not_true, Bool.false_eq_true, if_false]

end UnitWrite

/-! ### Refusals 1 to 3 (R518) -/

section UnitBar
variable (s : State) (u : Nat)

theorem State.unitBar_elsewhere (hmaint : s.maintaining = false) : s.unitBar u = some 1 := by simp [State.unitBar, hmaint]

variable (hmaint : s.maintaining = true)
include hmaint

theorem State.unitBar_unknown (hunit : u ∉ unitNumbers) : s.unitBar u = some 2 := by simp [State.unitBar, hmaint, hunit]

variable (hunit : u ∈ unitNumbers)
include hunit

theorem State.unitBar_fault (hfault : (s.unit u).fltFence = true) : s.unitBar u = some 3 := by
  simp [State.unitBar, hmaint, hunit, hfault]

theorem State.unitBar_none (hfault : (s.unit u).fltFence = false) : s.unitBar u = none := by
  simp [State.unitBar, hmaint, hunit, hfault]

end UnitBar

theorem State.unitOp_barred (f : State → Nat → State) (s : State) (u n : Nat) (h : s.unitBar u = some n) :
    State.unitOp f s u = s.unitReject n u := by rw [State.unitOp, h]; rfl

theorem State.unitOp_free (f : State → Nat → State) (s : State) (u : Nat) (h : s.unitBar u = none) : State.unitOp f s u = f s u := by
  rw [State.unitOp, h]; rfl

/-! ### Each operation by the unit's fence (R517, R518, R519) -/

section Operation
variable (s : State) (u : Nat)

theorem State.unitFenceOp_last (h : s.fenceEmpties u = true) : s.unitFenceOp u = s.unitReject 4 u := if_pos h

theorem State.unitFenceOp_fenced (hrest : s.fenceEmpties u = false) (h : (s.unit u).testFence = true) :
    s.unitFenceOp u = s.unitReject 5 u := by simp only [State.unitFenceOp, hrest, h, Bool.false_eq_true, if_false, if_true]

theorem State.unitFenceOp_tap (hrest : s.fenceEmpties u = false) (h : (s.unit u).testFence = false) (htap : isTapSrc u = true) :
    s.unitFenceOp u = s.fenceNow u := by simp only [State.unitFenceOp, hrest, h, htap, Bool.false_eq_true, if_false, if_true]

theorem State.unitFenceOp_waits (hrest : s.fenceEmpties u = false) (h : (s.unit u).testFence = false) (htap : isTapSrc u = false) :
    s.unitFenceOp u = { s.updUnit u (fun x => { x with fencePend := true }) with bg := { s.bg with unitBusy := some (1, u) } } := by
  simp only [State.unitFenceOp, hrest, h, htap, Bool.false_eq_true, if_false]

theorem State.unitTestOp_unfenced (h : (s.unit u).testFence = false) : s.unitTestOp u = s.unitReject 5 u := by
  simp only [State.unitTestOp, h, Bool.not_false, if_true]

theorem State.unitTestOp_fenced (h : (s.unit u).testFence = true) : s.unitTestOp u =
    (({ s with bg := { s.bg with unitBusy := some (2, u), unitResult := 0 } } : State).addGrant .unitTest [u] none 0 3).issueNew s.nextId := by
  simp only [State.unitTestOp, h, Bool.not_true, Bool.false_eq_true, if_false]

theorem State.unitUnfenceOp_unfenced (h : (s.unit u).testFence = false) : s.unitUnfenceOp u = s.unitReject 5 u := by
  simp only [State.unitUnfenceOp, h, Bool.not_false, if_true]

theorem State.unitUnfenceOp_fenced (h : (s.unit u).testFence = true) (hidle : s.bg.unitBusy = none) : s.unitUnfenceOp u =
    { s.updUnit u UnitSt.unfence with bg := { s.bg with unitDone := true, lastUnit := u } } := by
  simp only [State.unitUnfenceOp, h, Bool.not_true, Bool.false_eq_true, if_false, State.unitOpDone, State.updUnit, hidle]

end Operation

/-! ### What ends an operation (R517, R519) -/

theorem State.fenceNow_unit (s : State) (u : Nat) (h : isTapSrc u = false) : s.fenceNow u =
    (s.updUnit u (fun x => { x with fencePend := false, testFence := true, testFail := false, power := .gated, charge := none })).unitOpDone u := by
  simp only [State.fenceNow, h, Bool.false_eq_true, if_false]

section FenceEffect
variable (s : State) (n : Nat) (hbusy : s.bg.unitBusy = some (1, n))
include hbusy

theorem exec_unitFenceEffect_fences (hwork : (s.unit n).work = .idle) (hsave : (s.unit n).save = none) :
    exec .unitFenceEffect s = .next (s.fenceNow n) := by
  change execUnitFenceEffect s = _
  simp only [execUnitFenceEffect, hbusy, hwork, hsave, and_self, if_true]

theorem exec_unitFenceEffect_waits (hwork : (s.unit n).work ≠ .idle) : exec .unitFenceEffect s = .next s := by
  change execUnitFenceEffect s = _
  simp only [execUnitFenceEffect, hbusy, hwork, false_and, if_false]

end FenceEffect

theorem State.tryLeave_of_not_leaving (s : State) (h : s.leaving = false) : s.tryLeave = s := by simp [State.tryLeave, h]

theorem exec_unitTestDone_tested (s : State) (n : Nat) (pass : Bool) (hbusy : s.bg.unitBusy = some (2, n))
    (hwork : (s.unit n).work = .unitTest) (hpower : (s.unit n).power = .awake) (hleave : s.leaving = false) :
    exec (.unitTestDone pass) s = .next { s with
      units := Store.upd s.units n (fun x => { x.eraseKey with work := .idle, power := .gated, testFail := !pass })
      bg := { s.bg with unitBusy := none, unitDone := true, lastUnit := n, unitResult := if pass then 1 else 2 } } := by
  change execUnitTestDone pass s = _
  simp only [execUnitTestDone, hbusy, hwork, hpower, and_self, if_true]
  exact congrArg _ (State.tryLeave_of_not_leaving _ hleave)

/-- Settles O53: a write by what is under way and by what bars the unit, then each operation by the unit's fence. -/
theorem unitCommands : Obligations.UnitCommands := by
  intro s v p ben d u hclk haon hport hben hv hu
  have hbusy := exec_unitCommand_busy s v p ben d u hclk haon hport hben hv hu
  have hidle := exec_unitCommand_idle s v p ben d u hclk haon hport hben hv hu
  obtain ⟨regs, rfl⟩ : ∃ regs, v = { s with regsBlk := regs } := ⟨_, hv.trans (s.cmdRw_eq _ _ _ _ _)⟩
  refine ⟨fun c hc n hn => ?refused, fun hfree hmaint hunit hfault => ?operates, fun n hfence => ⟨fun hwork hsave htap => ?fences,
    exec_unitFenceEffect_waits s n hfence⟩, fun n pass hbusy hwork hpower hleave => exec_unitTestDone_tested s n pass hbusy hwork hpower hleave⟩
  case refused =>
    obtain ⟨o, ho, rfl⟩ : ∃ o ∈ unitCmdOps p ben d, o.1 = c := by simpa [unitCmdOps, eq_comm] using hc
    rcases hn with ⟨hb, rfl⟩ | ⟨hf, hmaint, rfl⟩ | ⟨hf, hmaint, hunit, rfl⟩ | ⟨hf, hmaint, hunit, hfault, rfl⟩
    · exact hbusy hb o ho
    · rw [hidle hf o ho, State.unitOp_barred _ _ u 1 (State.unitBar_elsewhere { s with regsBlk := regs } u hmaint)]; rfl
    · rw [hidle hf o ho, State.unitOp_barred _ _ u 2 (State.unitBar_unknown { s with regsBlk := regs } u hmaint hunit)]; rfl
    · rw [hidle hf o ho, State.unitOp_barred _ _ u 3 (State.unitBar_fault { s with regsBlk := regs } u hmaint hunit hfault)]; rfl
  case operates =>
    have hnone := State.unitBar_none { s with regsBlk := regs } u hmaint hunit hfault
    obtain ⟨hfence, htest, hunfence⟩ : exec (.unitFence p ben d) s = .next (State.unitFenceOp { s with regsBlk := regs } u).portDone ∧
        exec (.unitTest p ben d) s = .next (State.unitTestOp { s with regsBlk := regs } u).portDone ∧
        exec (.unitUnfence p ben d) s = .next (State.unitUnfenceOp { s with regsBlk := regs } u).portDone := by
      simpa only [unitCmdOps, List.forall_mem_cons, List.not_mem_nil, false_imp_iff, implies_true, and_true, State.unitOp_free _ _ u hnone]
        using hidle hfree
    rw [hfence, htest, hunfence]
    refine ⟨fun hlast => ?_, fun hrest hon => ?_, fun hrest hoff htap => ?_, fun hrest hoff htap => ?_, fun hoff => ?_, fun hon => ⟨?_, ?_⟩⟩
    · rw [State.unitFenceOp_last { s with regsBlk := regs } u hlast]
      rfl
    · rw [State.unitFenceOp_fenced { s with regsBlk := regs } u hrest hon]
      rfl
    · rw [State.unitFenceOp_waits { s with regsBlk := regs } u hrest hoff htap]
      rfl
    · rw [State.unitFenceOp_tap { s with regsBlk := regs } u hrest hoff htap]
      rfl
    · rw [List.forall_mem_cons, List.forall_mem_singleton, htest, hunfence, State.unitTestOp_unfenced { s with regsBlk := regs } u hoff,
        State.unitUnfenceOp_unfenced { s with regsBlk := regs } u hoff]
      exact ⟨rfl, rfl⟩
    · rw [State.unitTestOp_fenced { s with regsBlk := regs } u hon]
      rfl
    · rw [State.unitUnfenceOp_fenced { s with regsBlk := regs } u hon hfree]
      rfl
  case fences =>
    rw [exec_unitFenceEffect_fences s n hfence hwork hsave, s.fenceNow_unit n htap]
    rfl

end Sys2Proof.Machine
end

section
/-! PROOF. The fault collector (spec/16 R477 to R494): the statement O56. -/

namespace Sys2Proof.Machine

/-! ### A message that arrives (R477, R481, R491) -/

/-- The output bits of a message's reaction: its word's, and ERR where the floor adds it (R481, R483). -/
def State.reactionBits (s : State) (m : FaultMsg) : Nat := s.rct m.src % 16 ||| (if (s.floor m).2 then 2 else 0)

/-- The state as a message's reaction finds it: logged, with its outputs raised. -/
def State.logged (s : State) (m : FaultMsg) : State :=
  ((s.logFault m (decide (s.action m = 2))).outputs (s.reactionBits m)).countG 44 1

theorem State.collect_eq (s : State) (m : FaultMsg) :
    s.collect m = if s.applies m.src then (s.logged m).act m.src (s.action m) else s.logged m := rfl

theorem State.logged_spec (s : State) (m : FaultMsg) :
    (s.logged m).flt.lastSrc = m.src ∧ (s.logged m).flt.lastKind = m.kind ∧
    (s.logged m).flt.new = (s.flt.new || bitAt (s.reactionBits m) 0) ∧
    (s.logged m).flt.errLatch = (s.flt.errLatch || bitAt (s.reactionBits m) 1) ∧
    (s.logged m).pins.nmiPulses = s.pins.nmiPulses + b2n (bitAt (s.reactionBits m) 2) ∧
    (s.logged m).pins.chipRstReq = (s.pins.chipRstReq || bitAt (s.reactionBits m) 3) ∧
    (∀ k e, s.openEntry m = some (k, e) → Store.find (s.logged m).flt.log k = some { e with
      count := e.count + 1, last := s.time.ns, fatal := e.fatal || decide (s.action m = 2), sat := decide (0xFFFF ≤ e.count + 1) }) ∧
    (∀ k, s.openEntry m = none → s.freeEntry (decide (s.action m = 2)) = some k → Store.find (s.logged m).flt.log k = some
      { eid := s.flt.nextEid, msg := m, fatal := decide (s.action m = 2), sat := false, count := 1, first := s.time.ns, last := s.time.ns
        closed := false }) ∧
    s.logged m = { s with
      flt := (s.logged m).flt, bg := (s.logged m).bg
      pins := { s.pins with nmiPulses := (s.logged m).pins.nmiPulses, chipRstReq := (s.logged m).pins.chipRstReq } } := by
  obtain ⟨v, hv, hstate, hsrc, hkind, hnew, herr, hopen, hfree⟩ := s.logFault_spec m (decide (s.action m = 2))
  obtain ⟨flt, rfl⟩ : ∃ flt, v = { s with flt := flt } := ⟨_, hstate⟩
  have hlogged : s.logged m = (({ s with flt := flt } : State).outputs (s.reactionBits m)).countG 44 1 := by rw [State.logged, hv]
  rw [hlogged]
  exact ⟨hsrc, hkind, congrArg (· || bitAt (s.reactionBits m) 0) hnew, congrArg (· || bitAt (s.reactionBits m) 1) herr, rfl, rfl, hopen, hfree, rfl⟩

section Message
variable (s : State) (src kind addr : Nat)

theorem exec_faultMessage_sent (haon : s.pins.aonRel = true) (hsrc : src ∈ sources) (hsent : (⟨src, kind, addr⟩ : FaultMsg) ∈ s.flt.inFlight) :
    exec (.faultMessage src kind addr) s =
      .next (({ s with flt := { s.flt with inFlight := s.flt.inFlight.erase ⟨src, kind, addr⟩ } } : State).collect ⟨src, kind, addr⟩) := by
  change execFaultMessage src kind addr s = _
  simp [execFaultMessage, haon, hsrc, hsent]

theorem exec_faultMessage_new (haon : s.pins.aonRel = true) (hsrc : src ∈ sources) (hnew : (⟨src, kind, addr⟩ : FaultMsg) ∉ s.flt.inFlight)
    (hsend : s.maySend src = true) (hblk : s.pins.blkRel = true) :
    exec (.faultMessage src kind addr) s = .next (s.collect ⟨src, kind, addr⟩) := by
  change execFaultMessage src kind addr s = _
  simp [execFaultMessage, haon, hsrc, hnew, hsend, hblk]

theorem exec_faultMessage_unheard (h : s.pins.aonRel = false ∨ src ∉ sources) : exec (.faultMessage src kind addr) s = .next s := by
  change execFaultMessage src kind addr s = _
  rcases h with h | h <;> simp [execFaultMessage, h]

/-! ### The watchdogs (R479) -/

variable (hblk : s.pins.blkRel = true) (hmode : s.mode.mode ≠ .dormant)
include hblk hmode

theorem exec_watchdogExpiry_sends (h : isUnitSrc src = true ∧ (s.unit src).work ≠ .idle ∨ src = 0x50 ∨ src = 0x51) :
    exec (.watchdogExpiry src addr) s = .next (s.send src 3 addr) := by
  have hsends : ((isUnitSrc src && (s.unit src).work != .idle) || src == 0x50 || src == 0x51) = true := by
    simpa only [Bool.or_eq_true, Bool.and_eq_true, bne_iff_ne, beq_iff_eq, or_assoc] using h
  change execWatchdogExpiry src addr s = _
  simp only [execWatchdogExpiry, hblk, hmode, hsends, Bool.not_true, Bool.false_eq_true, or_self, if_false, if_true]

theorem exec_watchdogExpiry_idle (hwork : (s.unit src).work = .idle) (h0 : src ≠ 0x50) (h1 : src ≠ 0x51) :
    exec (.watchdogExpiry src addr) s = .next s := by
  change execWatchdogExpiry src addr s = _
  simp [execWatchdogExpiry, hblk, hmode, hwork, h0, h1]

end Message

/-! ### The registers (R484, R488, R489, R494) -/

theorem State.rctWrite_force (s : State) (src : Nat) (ben : BitVec 4) (d : Word) (hsrc : src ∈ sources) (hben : ben.getLsbD 3 = true) :
    s.rctWrite src ben (d ||| 0x80000000) = State.send (if s.flt.lock then s else
      s.setAon (0x1800 + 4 * src) (rctWord src (mergeWord (wordOf (s.rct src)) 0x3F ben (d ||| 0x80000000)))) src 0xF 0 := by
  have hforce : (d ||| 0x80000000).getLsbD 31 = true := by
    rw [BitVec.getLsbD_or, show BitVec.getLsbD (0x80000000 : Word) 31 = true by decide, Bool.or_true]
  simp only [State.rctWrite, List.contains_iff_mem.2 hsrc, hben, hforce, Bool.not_true, Bool.false_eq_true, if_false, and_self, if_true,
    State.rct]

section Registers
variable (s : State) (p : Bool) (ben : BitVec 4) (src : Nat) (d : Word) (hclk : s.pins.fabClk = true) (haon : s.pins.aonRel = true)
include hclk haon

theorem exec_faultForce_served (hport : s.portErr p false (0x1800 + 4 * src) = false) :
    exec (.faultForce p ben src d) s = .next (s.rctWrite src ben (d ||| 0x80000000)).portDone :=
  congrArg Host.Outcome.next (s.portWrite_portDone p _ ben false _ hclk hport (.inl rfl) haon)

theorem exec_fltLockWrite_served (hport : s.portErr p false 0x1C04 = false) :
    exec (.fltLockWrite p ben d) s = .next (if ben.getLsbD 0 ∧ !s.flt.lockFixed then
      { s with flt := { s.flt with lock := d.getLsbD 0, lockFixed := true } } else s : State).portDone :=
  congrArg Host.Outcome.next (s.portWrite_portDone p _ ben false _ hclk hport (.inl rfl) haon)

theorem exec_faultLogRelease_served (hport : s.portErr p false 0x1C14 = false) (hben : ben.getLsbD 0 = true) :
    exec (.faultLogRelease p ben d) s =
      .next ({ s with flt := { s.flt with log := Store.del s.flt.log (s.aon 0x1C10 % 64) } } : State).portDone :=
  congrArg Host.Outcome.next ((s.portWrite_portDone p _ ben false _ hclk hport (.inl rfl) haon).trans (congrArg State.portDone (if_pos hben)))

end Registers

/-- Settles O56: a message by whether a block sent it, then the watchdogs and the collector's registers. -/
theorem faultCollection : Obligations.FaultCollection := by
  intro s
  refine ⟨fun src kind addr m u hm haon hsrc hu => ?message, fun src kind addr h => exec_faultMessage_unheard s src kind addr h,
    fun src addr hblk hmode => ⟨exec_watchdogExpiry_sends s src addr hblk hmode, exec_watchdogExpiry_idle s src addr hblk hmode⟩,
    fun p ben src d hclk haon => ⟨fun hport hsrc hben => ?force, fun hport => ?lock, exec_faultLogRelease_served s p ben d hclk haon⟩⟩
  case message =>
    subst hm
    obtain ⟨hexec, hns, heid, hframe⟩ : exec (.faultMessage src kind addr) s = .next (u.collect ⟨src, kind, addr⟩) ∧ u.time.ns = s.time.ns ∧
        u.flt.nextEid = s.flt.nextEid ∧ { u with flt := s.flt } = s := by
      rcases hu with ⟨rfl, hnew, hsend, hblk⟩ | ⟨hsent, rfl⟩
      · exact ⟨exec_faultMessage_new _ src kind addr haon hsrc hnew hsend hblk, rfl, rfl, rfl⟩
      · exact ⟨exec_faultMessage_sent s src kind addr haon hsrc hsent, rfl, rfl, rfl⟩
    obtain ⟨hlast, hkind, hnew, herr, hnmi, hrst, hopen, hfree, hv⟩ := u.logged_spec ⟨src, kind, addr⟩
    rw [hns] at hopen hfree
    rw [heid] at hfree
    refine ⟨u.logged ⟨src, kind, addr⟩, hexec.trans (congrArg _ (u.collect_eq _)), hlast, hkind, hnew, herr, hnmi, hrst, hopen, hfree, ?_⟩
    rw [hv, ← hframe]
  case force =>
    rw [exec_faultForce_served s p ben src d hclk haon hport, s.rctWrite_force src ben d hsrc hben]
    exact ⟨fun hlock => by rw [hlock]; rfl, fun hlock => by rw [hlock]; rfl⟩
  case lock =>
    rw [exec_fltLockWrite_served s p ben d hclk haon hport]
    refine ⟨fun hben hfix => ?_, fun h => ?_⟩
    · simp only [hben, hfix, Bool.not_false, and_self, if_true, State.portDone]
    · rcases h with h | h <;> simp only [h, Bool.not_true, Bool.false_eq_true, false_and, and_false, if_false, State.portDone]

end Sys2Proof.Machine
end

section
/-! PROOF. The record rings, telemetry, scrubbing and calibration (spec/16 R495 to R513): the statement O57. -/

namespace Sys2Proof.Machine

/-! ### The fault ring's records (R495, R496) -/

section FaultRecord
variable (s : State)

theorem exec_faultRecordDue_writes (k : Nat) (e : LogEntry) (hen : bitAt (s.blk 0x1C48) 8 = true) (hrun : s.running = true)
    (hsafe : s.mode.safe = false) (hroom : occ s.fltN s.flt.ringTail s.flt.ringHead < s.fltN) (hold : oldestEntry s.flt.log = some (k, e)) :
    exec .faultRecordDue s = .next (({ s with flt := { s.flt with
        log := Store.put s.flt.log k { e with closed := true }, ringTail := (s.flt.ringTail + 1) % (2 * s.fltN), recDrops := 0, recLost := 0 } } :
      State).writes 0x40 7 (s.fltBase + 32 * (s.flt.ringTail % s.fltN))
        (e.record (decide (s.flt.ringTail / s.fltN % 2 = 0)) s.flt.recDrops s.flt.recLost) (.fltRec e.eid)) := by
  change execFaultRecordDue s = _
  simp only [execFaultRecordDue, hen, hrun, hsafe, hold, Nat.not_le.2 hroom, Bool.not_true, Bool.false_eq_true, or_self, if_false]

theorem exec_faultRecordDue_holds
    (h : bitAt (s.blk 0x1C48) 8 = false ∨ s.fltN ≤ occ s.fltN s.flt.ringTail s.flt.ringHead ∨ oldestEntry s.flt.log = none) :
    exec .faultRecordDue s = .next s := by
  change execFaultRecordDue s = _
  rcases h with h | h | h <;> simp only [execFaultRecordDue, h, Bool.not_false, true_or, or_true, if_true, ite_self]

end FaultRecord

/-! ### The doorbells (R495, R510) -/

section Doorbells
variable (s : State) (p : Bool) (d : Word) (hclk : s.pins.fabClk = true) (haon : s.pins.aonRel = true)
include hclk haon

section Fault
variable (hport : s.portErr p false 0x1C4C = false)
include hport

theorem exec_fltRingDb_taken (v : Nat) (hv : dbIndex s.fltN d = some v)
    (hwritten : occ s.fltN s.flt.ringTail v ≤ occ s.fltN s.flt.ringTail s.flt.ringHead) :
    exec (.fltRingDb p 0xF d) s = .next ({ s with flt := { s.flt with ringHead := v } } : State).portDone := by
  change execFltRingDb p 0xF d s = _
  rw [execFltRingDb, s.portWrite_portDone p _ _ true _ hclk hport (.inr rfl) haon]
  simp only [hv, hwritten, if_true]

theorem exec_fltRingDb_none (hv : dbIndex s.fltN d = none) :
    exec (.fltRingDb p 0xF d) s = .next ({ s with flt := { s.flt with dbErr := true } } : State).portDone := by
  change execFltRingDb p 0xF d s = _
  rw [execFltRingDb, s.portWrite_portDone p _ _ true _ hclk hport (.inr rfl) haon]
  simp only [hv]

end Fault

variable (hport : s.portErr p false 0x2114 = false)
include hport

theorem exec_telemDb_taken (v : Nat) (hv : dbIndex s.telN d = some v)
    (hwritten : occ s.telN s.bg.telTail v ≤ occ s.telN s.bg.telTail s.bg.telHead) :
    exec (.telemDb p 0xF d) s = .next ({ s with bg := { s.bg with telHead := v } } : State).portDone := by
  change execTelemDb p 0xF d s = _
  rw [execTelemDb, s.portWrite_portDone p _ _ true _ hclk hport (.inr rfl) haon]
  simp only [hv, hwritten, if_true]

theorem exec_telemDb_none (hv : dbIndex s.telN d = none) :
    exec (.telemDb p 0xF d) s = .next ({ s with bg := { s.bg with telDbErr := true } } : State).portDone := by
  change execTelemDb p 0xF d s = _
  rw [execTelemDb, s.portWrite_portDone p _ _ true _ hclk hport (.inr rfl) haon]
  simp only [hv]

end Doorbells

/-! ### EN of a ring's configuration register (R502, R513) -/

/-- A write that sets EN while it is 0 reaches the register whole. -/
theorem State.ringCfg_enables (s : State) (off : Nat) (r : RwReg) (ben : BitVec 4) (d : Word) (hrow : rowAt blkTable off = some r)
    (hmask : r.mask.testBit 8 = true) (hben : ben.getLsbD 1 = true) (hoff : bitAt (s.blk off) 8 = false) :
    ∃ regs, s.ringCfg off ben (d ||| 0x100#32) = { s with regsBlk := regs } ∧ bitAt (({ s with regsBlk := regs } : State).blk off) 8 = true := by
  have hset : s.ringCfg off ben (d ||| 0x100#32) = s.setBlk off (mergeWord (wordOf (s.blk off)) r.mask ben (d ||| 0x100#32)) := by
    simp only [State.ringCfg, hoff, Bool.false_eq_true, if_false, State.rwBlk, hrow]
  refine ⟨_, hset, ?_⟩
  exact (congrArg (bitAt · 8) (s.blk_setBlk off _)).trans (mergeWord_bit8 _ _ ben d hben hmask)

theorem State.fltCfg_enables (s : State) (ben : BitVec 4) (d : Word) (hben : ben.getLsbD 1 = true) (hoff : bitAt (s.blk 0x1C48) 8 = false) :
    ∃ regs, s.fltCfg ben (d ||| 0x100#32) = { s with regsBlk := regs, flt := { s.flt with ringTail := 0, ringHead := 0 } } ∧
      bitAt (({ s with regsBlk := regs } : State).blk 0x1C48) 8 = true := by
  obtain ⟨regs, hcfg, hon⟩ := s.ringCfg_enables 0x1C48 _ ben d rfl (by decide) hben hoff
  refine ⟨regs, ?_, hon⟩
  simp only [State.fltCfg, hcfg, hon, hoff, Bool.not_false, and_self, if_true]

theorem State.telCfg_enables (s : State) (ben : BitVec 4) (d : Word) (hben : ben.getLsbD 1 = true) (hoff : bitAt (s.blk 0x2108) 8 = false) :
    ∃ regs, s.telCfg ben (d ||| 0x100#32) = { s with regsBlk := regs, bg := { s.bg with telTail := 0, telHead := 0 } } ∧
      bitAt (({ s with regsBlk := regs } : State).blk 0x2108) 8 = true := by
  obtain ⟨regs, hcfg, hon⟩ := s.ringCfg_enables 0x2108 _ ben d rfl (by decide) hben hoff
  refine ⟨regs, ?_, hon⟩
  simp only [State.telCfg, hcfg, hon, hoff, Bool.not_false, and_self, if_true]

theorem exec_fltRingEnable_served (s : State) (p : Bool) (ben : BitVec 4) (d : Word) (hclk : s.pins.fabClk = true) (haon : s.pins.aonRel = true)
    (hport : s.portErr p false 0x1C48 = false) : exec (.fltRingEnable p ben d) s = .next (s.fltCfg ben (d ||| 0x100#32)).portDone :=
  congrArg Host.Outcome.next (s.portWrite_portDone p _ ben false _ hclk hport (.inl rfl) haon)

theorem exec_telemEnable_served (s : State) (p : Bool) (ben : BitVec 4) (d : Word) (hclk : s.pins.fabClk = true) (haon : s.pins.aonRel = true)
    (hport : s.portErr p false 0x2108 = false) : exec (.telemEnable p ben d) s = .next (s.telCfg ben (d ||| 0x100#32)).portDone :=
  congrArg Host.Outcome.next (s.portWrite_portDone p _ ben false _ hclk hport (.inl rfl) haon)

/-! ### The telemetry window (R510, R512) -/

theorem exec_telemetryWindow_ends (s : State) (hen : bitAt (s.blk 0x2108) 8 = true) (hlen : bitsAt (s.blk 0x2108) 16 8 ≠ 0)
    (hrun : s.running = true) (hsafe : s.mode.safe = false) :
    ∃ t, exec .telemetryWindow s = .next t ∧ t.bg.wseq = (s.bg.wseq + 1) % 2 ^ 32 ∧ t.bg.gCount = [] ∧ t.bg.pCount = [] ∧
      t.bg.telHead = s.bg.telHead ∧ t = { s with fab := t.fab, bg := t.bg } := by
  change ∃ t, execTelemetryWindow s = .next t ∧ _
  simp only [execTelemetryWindow, hen, hlen, hrun, hsafe, Bool.not_true, Bool.false_eq_true, or_self, if_false]
  obtain ⟨t, hfold, hstate, hbg⟩ := State.foldl_telPut_eq
    ((none :: s.telParts.map some).take (min (none :: s.telParts.map some).length (s.telN - occ s.telN s.bg.telTail s.bg.telHead))) s
  rw [hfold]
  refine ⟨_, rfl, ?_, rfl, rfl, ?_, ?_⟩
  · rw [hbg]
  · rw [hbg]
  · rw [hstate]

theorem exec_telemetryWindow_off (s : State) (h : bitAt (s.blk 0x2108) 8 = false ∨ bitsAt (s.blk 0x2108) 16 8 = 0) :
    exec .telemetryWindow s = .next s := by
  change execTelemetryWindow s = _
  rcases h with h | h <;> simp only [execTelemetryWindow, h, Bool.not_false, true_or, or_true, if_true]

/-! ### The scrubbers (R504) -/

section Scrub
variable (s : State) (store : StoreId) (sub tile : Nat)

theorem State.scrubTurn_scrubStep (n : Nat) (h : tile < scrubSize store) : ((s.scrubStep store sub tile).countG 48 1).scrubTurn store sub n =
    decide (n = if tile + 1 = scrubSize store then 0 else tile + 1) := by
  have hown : store ≠ .entryCache := by
    rintro rfl
    exact absurd h (Nat.not_lt_zero tile)
  have hnext : (tile + 1) % scrubSize store = if tile + 1 = scrubSize store then 0 else tile + 1 := by
    split
    next hlast => rw [hlast, Nat.mod_self]
    next hmore => exact Nat.mod_eq_of_lt (by omega)
  simp only [State.scrubTurn, State.scrubStep, State.countG, hown, if_false, Store.find_put_self, Option.getD_some, hnext,
    beq_eq_false_iff_ne.2 hown, Bool.false_or, beq_eq_decide]

variable (again ok : Bool)

theorem exec_scrubTile_other (hturn : s.scrubTurn store sub tile = false) :
    exec (.scrubTile store sub tile ok again) s = .next s := by
  change execScrubTile store sub tile ok again s = _
  simp only [execScrubTile, hturn, or_true, if_true]

variable (hfll : s.mode.fllLock = true) (hmode : s.mode.mode ≠ .dormant)
include hfll hmode

theorem exec_scrubTile_turn (hturn : s.scrubTurn store sub tile = true) : exec (.scrubTile store sub tile ok again) s =
    .next (if ok then (s.scrubStep store sub tile).countG 48 1
      else ((s.scrubStep store sub tile).countG 48 1).scrubFailed store sub tile again) := by
  change execScrubTile store sub tile ok again s = _
  simp only [execScrubTile, hfll, hmode, hturn, Bool.not_true, Bool.true_eq_false, Bool.false_eq_true, or_self, if_false]

end Scrub

/-! ### Calibration (R508) -/

/-- The trim's step for a measured frequency, both in units of 10 kHz per 1024 cycles of CLK_AON. -/
def trimStep (f goal : Nat) : Int := if f * 4000 + goal < 4000 * goal then 1 else if 4000 * goal + goal < f * 4000 then -1 else 0

/-- A lane that is more than 1 % off. -/
def laneOff (f goal : Nat) : Bool := decide (f * 100 < 99 * goal ∨ 101 * goal < f * 100)

theorem exec_calibration_locked (s : State) (count : Nat) (hfll : s.mode.fllLock = true) (hmode : s.mode.mode ≠ .dormant) :
    exec (.calibration count) s = .next (let off := laneOff (count * s.pins.aonFreq) (1024 * pointFreq s.mode.active)
      let t : State := { s with bg := { s.bg with
        trim := max (-128) (min 127 (s.bg.trim + trimStep (count * s.pins.aonFreq) (1024 * pointFreq s.mode.active)))
        lane100k := count * s.pins.aonFreq / 10240 % 0x10000, calErr := s.bg.calErr || off } }
      if off then t.send 0x80 2 0 else t) := by
  change execCalibration count s = _
  simp only [execCalibration, hfll, hmode, Bool.not_true, Bool.false_eq_true, or_self, if_false]
  rfl

theorem exec_scrubTile_unlocked (s : State) (store : StoreId) (sub tile : Nat) (ok again : Bool) (hfll : s.mode.fllLock = false) :
    exec (.scrubTile store sub tile ok again) s = .next s := by
  change execScrubTile store sub tile ok again s = _
  simp only [execScrubTile, hfll, Bool.not_false, true_or, if_true]

theorem exec_calibration_unlocked (s : State) (count : Nat) (hfll : s.mode.fllLock = false) : exec (.calibration count) s = .next s := by
  change execCalibration count s = _
  simp only [execCalibration, hfll, Bool.not_false, true_or, if_true]

/-- Settles O57: the fault ring, the doorbells, the enables, the telemetry window, then the scrubbers and calibration. -/
theorem ringsAndBackground : Obligations.RingsAndBackground := by
  intro s
  refine ⟨fun k e hen hrun hsafe hroom hold => ?record, exec_faultRecordDue_holds s, fun p d hclk haon => ⟨fun hport => ?faultDb, fun hport => ?telemDb⟩,
    fun p ben d hclk haon hben => ⟨fun hport hoff => ?faultEn, fun hport hoff => ?telemEn⟩, exec_telemetryWindow_ends s,
    exec_telemetryWindow_off s, fun hfll hmode => ⟨fun store sub tile again => ⟨fun hturn => ⟨
      exec_scrubTile_turn s store sub tile again true hfll hmode hturn,
      exec_scrubTile_turn s store sub tile again false hfll hmode hturn, fun hin n => s.scrubTurn_scrubStep store sub tile n hin⟩,
      fun hturn ok => exec_scrubTile_other s store sub tile again ok hturn⟩, fun count => ?calibration⟩,
    fun hfll store sub tile ok again count => ⟨exec_scrubTile_unlocked s store sub tile ok again hfll, exec_calibration_unlocked s count hfll⟩⟩
  case record => exact exec_faultRecordDue_writes s k e hen hrun hsafe hroom hold
  case faultDb => exact ⟨exec_fltRingDb_taken s p d hclk haon hport, exec_fltRingDb_none s p d hclk haon hport⟩
  case telemDb => exact ⟨exec_telemDb_taken s p d hclk haon hport, exec_telemDb_none s p d hclk haon hport⟩
  case faultEn =>
    obtain ⟨regs, hcfg, hon⟩ := s.fltCfg_enables ben d hben hoff
    have hexec := exec_fltRingEnable_served s p ben d hclk haon hport
    rw [hcfg] at hexec
    exact ⟨_, hexec, hon, rfl, rfl⟩
  case telemEn =>
    obtain ⟨regs, hcfg, hon⟩ := s.telCfg_enables ben d hben hoff
    have hexec := exec_telemEnable_served s p ben d hclk haon hport
    rw [hcfg] at hexec
    exact ⟨_, hexec, hon, rfl, rfl⟩
  case calibration =>
    have hexec := exec_calibration_locked s count hfll hmode
    cases hoff : laneOff (count * s.pins.aonFreq) (1024 * pointFreq s.mode.active) with
    | true =>
      rw [hoff] at hexec
      have hout := of_decide_eq_true hoff
      refine ⟨_, hexec, rfl, rfl, rfl, fun _ => ⟨Bool.or_true _, rfl⟩, fun hlow hhigh => ?_⟩
      omega
    | false =>
      rw [hoff] at hexec
      have hin := of_decide_eq_false hoff
      exact ⟨_, hexec, rfl, rfl, rfl, fun h => absurd h hin, fun _ _ => ⟨Bool.or_false _, rfl⟩⟩

end Sys2Proof.Machine
end

section
/-! PROOF. The mailboxes and their services (spec/15 R462 to R476): the statement O55. -/

namespace Sys2Proof.Machine

/-! ### GO and DONE (R464, R465) -/

section BoxControl
variable (s : State) (k : Nat) (d : Word)

theorem State.mbCtl_go (hgo : d.getLsbD 0 = true) (hdone : d.getLsbD 1 = false) : s.mbCtl k d =
    if k < 4 ∧ !(s.box k).full then s.updBox k (fun m => { m with full := true }) else s.updBox k (fun m => { m with goRej := true }) := by
  simp only [State.mbCtl, hgo, hdone, Bool.not_true, Bool.not_false, Bool.false_eq_true, if_false, if_true]

theorem State.mbCtl_done (hgo : d.getLsbD 0 = false) (hdone : d.getLsbD 1 = true) : s.mbCtl k d =
    if 4 ≤ k ∧ (s.box k).full then s.updBox k Mbox.emptied else s.updBox k (fun m => { m with goRej := true }) := by
  simp only [State.mbCtl, hgo, hdone, Bool.not_true, Bool.not_false, Bool.false_eq_true, if_false, if_true]

variable (p : Bool) (hclk : s.pins.fabClk = true) (haon : s.pins.aonRel = true) (hk : k < 8) (hport : s.portErr p false (0x1040 + 0x80 * k) = false)
include hclk haon hk hport

/-- A served write of MBk_CTL, by either of its commands. -/
theorem exec_mbCtl_served : exec (.mbGo p 0xF k d) s = .next (s.mbCtl k d).portDone ∧ exec (.mbDone p 0xF k d) s = .next (s.mbCtl k d).portDone := by
  have hwrite : s.portWrite p (0x1040 + 0x80 * (k % 8)) 0xF true (fun t => t.mbCtl (k % 8) d) = (s.mbCtl k d).portDone := by
    rw [Nat.mod_eq_of_lt hk]
    exact s.portWrite_portDone p _ 0xF true _ hclk hport (.inr rfl) haon
  exact ⟨congrArg Host.Outcome.next hwrite, congrArg Host.Outcome.next hwrite⟩

end BoxControl

/-! ### Taking a message (R464, R468) -/

section Take
variable (s : State) (k : Nat)

theorem exec_mbTake_idle (h : s.mbxServed = false ∨ (s.box k).full = false) : exec (.mbTake k) s = .next s := by
  change execMbTake k s = _
  rcases h with h | h <;> simp only [execMbTake, h, Bool.not_false, true_or, or_true, if_true]

variable (hk : k < 4) (hserved : s.mbxServed = true) (hfull : (s.box k).full = true) (horigin : (s.box k).origin = false)
include hk hserved hfull horigin

theorem exec_mbTake_full : exec (.mbTake k) s = .next (
    let t := (s.updBox k Mbox.emptied).setDb (bit32 k ||| 0)
    if s.canReply k then
      t.setTaken k (s.takenOf k ++ [⟨(s.box k).data, if services.contains (mSvc (s.box k).data) then none
        else some (reply (s.box k).data false 1 []), false, false⟩])
    else (t.updBox k (fun x => { x with overrun := true, ovrCnt := satAdd 0xFF x.ovrCnt 1 })).setDb (bit32 (12 + k))) := by
  change execMbTake k s = _
  simp only [execMbTake, hserved, hfull, horigin, Nat.not_le.2 hk, Bool.not_true, Bool.false_eq_true, or_self, if_false]

theorem exec_mbTake_takes (hroom : s.canReply k = true) (hsvc : services.contains (mSvc (s.box k).data) = true) : exec (.mbTake k) s =
    .next (((s.updBox k Mbox.emptied).setDb (bit32 k ||| 0)).setTaken k (s.takenOf k ++ [⟨(s.box k).data, none, false, false⟩])) := by
  rw [exec_mbTake_full s k hk hserved hfull horigin]
  simp only [hroom, hsvc, if_true]

theorem exec_mbTake_overruns (hroom : s.canReply k = false) : ∃ boxes, exec (.mbTake k) s =
    .next { s with mbx := { s.mbx with boxes := boxes, dbStat := s.mbx.dbStat ||| (bit32 k ||| 0) ||| bit32 (12 + k) } } := by
  rw [exec_mbTake_full s k hk hserved hfull horigin]
  simp only [hroom, Bool.false_eq_true, if_false, State.updBox, State.setDb]
  exact ⟨_, rfl⟩

end Take

/-! ### Posting a reply (R465, R467) -/

section Post
variable (s : State) (k : Nat) (hk : k < 4) (hserved : s.mbxServed = true)
include hk hserved

theorem exec_mbReplyPost_queued (b : Bytes) (o : Bool) (rest : List (Bytes × Bool)) (hempty : (s.box (k + 4)).full = false)
    (hreplies : s.repliesOf k = (b, o) :: rest) : exec (.mbReplyPost k) s = .next ((s.setReplies k rest).deliver k b o) := by
  change execMbReplyPost k s = _
  simp only [execMbReplyPost, hserved, hempty, hreplies, Nat.not_le.2 hk, Bool.not_true, Bool.false_eq_true, or_self, if_false]

variable (m b : Bytes) (x o : Bool) (l : List Taken) (htaken : s.takenOf k = ⟨m, some b, x, o⟩ :: l)
include htaken

theorem exec_mbReplyPost_delivers (hempty : (s.box (k + 4)).full = false) (hreplies : s.repliesOf k = []) :
    exec (.mbReplyPost k) s = .next ((s.setTaken k l).deliver k b false) := by
  change execMbReplyPost k s = _
  simp only [execMbReplyPost, hserved, hempty, hreplies, htaken, Nat.not_le.2 hk, Bool.not_true, Bool.false_eq_true, or_self, if_false]

theorem exec_mbReplyPost_queues (hfull : (s.box (k + 4)).full = true) (hroom : (s.repliesOf k).length < 4) :
    exec (.mbReplyPost k) s = .next ((s.setTaken k l).setReplies k (s.repliesOf k ++ [(b, false)])) := by
  change execMbReplyPost k s = _
  simp only [execMbReplyPost, hserved, hfull, htaken, hroom, Nat.not_le.2 hk, Bool.not_true, Bool.false_eq_true, or_self, if_false, if_true]

end Post

/-! ### DB_SET and MBX_HOST.RESTART (R471, R476) -/

section Host
variable (s : State) (p : Bool) (ben : BitVec 4) (d : Word) (hclk : s.pins.fabClk = true) (haon : s.pins.aonRel = true)
include hclk haon

theorem exec_dbSet_served (hport : s.portErr p false 0x1408 = false) :
    exec (.dbSet p ben d) s = .next (s.setDb (benMask ben &&& d &&& 0xFF000000)).portDone :=
  congrArg Host.Outcome.next (s.portWrite_portDone p _ ben false _ hclk hport (.inl rfl) haon)

/-- RESTART on every pair. -/
def State.restarted (s : State) : State :=
  let t := [0, 1, 2, 3].foldl State.restartPair s
  { t with mbx := { t.mbx with epoch := (t.mbx.epoch + 1) % 256 } }

theorem exec_mbxHostRestart_served (hport : s.portErr p false 0x140C = false) :
    exec (.mbxHostRestart p ben d) s = .next (if (ben.getLsbD 0 && d.getLsbD 0) = true then s.restarted else s).portDone := by
  rw [← benMask_bit0, ← BitVec.getLsbD_and]
  exact congrArg Host.Outcome.next (s.portWrite_portDone p _ ben false _ hclk hport (.inl rfl) haon)

end Host

/-! ### The services (R472 to R474) -/

section Services
variable (s : State) (k : Nat) (l : List Taken) (i : Nat) (m : Taken) (hl : s.takenOf k = l)
  (hi : l.findIdx? (fun t => t.reply.isNone) = some i) (hm : l[i]? = some m) (hdrop : m.dropped = false) (hserved : s.mbxServed = true)

/-- The message's reply is held. -/
def State.replied (s : State) (k : Nat) (l : List Taken) (i : Nat) (m : Taken) (st : Nat) (args : Bytes) : State :=
  s.setTaken k (l.set i { m with reply := some (reply m.bytes m.origin st args) })

include hl hi hm hdrop hserved

theorem exec_echo_returns (hsvc : mSvc m.bytes = 0x01) (hunused : unusedOk m.bytes 64 = true) :
    exec (.echo k) s = .next (s.replied k l i m 0 (slice m.bytes 8 56)) :=
  congrArg Host.Outcome.next (s.serve_spec k 0x01 _ l i m hl hi hm hdrop hserved hsvc 0 _ s (if_pos hunused))

theorem exec_echo_badArg (hsvc : mSvc m.bytes = 0x01) (hused : unusedOk m.bytes 64 = false) :
    exec (.echo k) s = .next (s.replied k l i m 2 []) :=
  congrArg Host.Outcome.next (s.serve_spec k 0x01 _ l i m hl hi hm hdrop hserved hsvc 2 _ s (if_neg (Bool.eq_false_iff.1 hused)))

theorem exec_fwInfo_returns (hsvc : mSvc m.bytes = 0x02) (hunused : unusedOk m.bytes 8 = true) :
    exec (.fwInfo k) s = .next (s.replied k l i m 0
      (leBytes 4 Config.romVer.toNat ++ leBytes 4 s.patchVer ++ leBytes 4 (s.mbx.staged.elim 0xFFFFFFFF (fun p => fld p 4 4)))) :=
  congrArg Host.Outcome.next (s.serve_spec k 0x02 _ l i m hl hi hm hdrop hserved hsvc 0 _ s (if_pos hunused))

section AcctQuery
variable (hsvc : mSvc m.bytes = 0x10) (hrun : s.running = true) (hunused : unusedOk m.bytes 12 = true) (hzero : zeroAt m.bytes 9 1 = true)
include hsvc hrun hunused hzero

theorem exec_acctQuery_returns (a : Acct) (ha : s.queried (fld m.bytes 8 1) (fld m.bytes 10 2) = some a) :
    exec (.acctQuery k) s =
      .next (s.replied k l i m 0 (leBytes 8 a.hwm0 ++ leBytes 8 a.hwm1 ++ [byteOf (b2n a.ret0 + 2 * b2n a.ret1)])) :=
  congrArg Host.Outcome.next (s.serve_spec k 0x10 _ l i m hl hi hm hdrop hserved hsvc 0 _ s (by
    simp only [hrun, hunused, hzero, ha, Bool.not_true, Bool.false_eq_true, or_self, if_false]))

theorem exec_acctQuery_badArg (ha : s.queried (fld m.bytes 8 1) (fld m.bytes 10 2) = none) :
    exec (.acctQuery k) s = .next (s.replied k l i m 2 []) :=
  congrArg Host.Outcome.next (s.serve_spec k 0x10 _ l i m hl hi hm hdrop hserved hsvc 2 _ s (by
    simp only [hrun, hunused, hzero, ha, Bool.not_true, Bool.false_eq_true, or_self, if_false]))

end AcctQuery

theorem exec_partUsage_elsewhere (hsvc : mSvc m.bytes = 0x11) (hrun : s.running = false) :
    exec (.partUsage k) s = .next (s.replied k l i m 3 []) :=
  congrArg Host.Outcome.next (s.serve_spec k 0x11 _ l i m hl hi hm hdrop hserved hsvc 3 _ s (by simp only [hrun, Bool.not_false, if_true]))

theorem exec_partUsage_returns (hsvc : mSvc m.bytes = 0x11) (x : Partition) (hrun : s.running = true) (hunused : unusedOk m.bytes 9 = true)
    (hx : s.part (fld m.bytes 8 1) = some x) : exec (.partUsage k) s = .next (s.replied k l i m 0 (s.usage (fld m.bytes 8 1) x)) :=
  congrArg Host.Outcome.next (s.serve_spec k 0x11 _ l i m hl hi hm hdrop hserved hsvc 0 _ s (by
    simp only [hrun, hunused, hx, Bool.not_true, Bool.false_eq_true, if_false]))

/-! #### PATCH_STAGE -/

variable (hsvc : mSvc m.bytes = 0x20)
include hsvc

theorem exec_patchStage_elsewhere (hmode : s.mode.mode ≠ .maintenance) : exec (.patchStage k) s = .next (s.replied k l i m 3 []) :=
  congrArg Host.Outcome.next (s.serve_spec k 0x20 _ l i m hl hi hm hdrop hserved hsvc 3 _ s (if_pos (.inl hmode)))

variable (total : Nat) (hmode : s.mode.mode = .maintenance) (hstays : s.leaving = false) (hunused : unusedOk m.bytes 64 = true)
  (htotal : fld m.bytes 12 4 = total) (hmin : 108 ≤ total) (hmax : total ≤ 131072)
include hmode hstays hunused htotal hmin hmax

/-- The first chunk stages its bytes. -/
theorem exec_patchStage_first (hoff : fld m.bytes 8 4 = 0) : exec (.patchStage k) s = .next
    (({ s with mbx := { s.mbx with staging := some ((slice m.bytes 16 48).take total, total) } } : State).replied k l i m 0 []) := by
  have hchunk : s.patchChunk [] total (slice m.bytes 16 48) =
      (0, [], { s with mbx := { s.mbx with staging := some ((slice m.bytes 16 48).take total, total) } }) := by
    have hwhole : min 48 total = 48 := by omega
    have hmore : ((slice m.bytes 16 48).take total).length < total := by
      rw [List.length_take, length_slice]
      omega
    simp only [State.patchChunk, List.length_nil, Nat.sub_zero, hwhole, Nat.sub_self, zeroAt_zero, Bool.true_eq_false, if_false, List.nil_append, hmore,
      if_true]
  refine congrArg Host.Outcome.next (s.serve_spec k 0x20 _ l i m hl hi hm hdrop hserved hsvc 0 _ _ ?_)
  simp only [hmode, hstays, hunused, htotal, hmin, hmax, hoff, hchunk, ne_eq, not_true_eq_false, Bool.not_true, Bool.false_eq_true, or_true,
    and_self, or_self, if_false, if_true]

variable (sofar : Bytes) (n : Nat) (hoff : fld m.bytes 8 4 ≠ 0) (hstaging : s.mbx.staging = some (sofar, n))
include hoff hstaging

theorem exec_patchStage_misordered (horder : fld m.bytes 8 4 ≠ sofar.length) : exec (.patchStage k) s = .next
    (({ s with mbx := { s.mbx with staging := none } } : State).replied k l i m 5 []) := by
  refine congrArg Host.Outcome.next (s.serve_spec k 0x20 _ l i m hl hi hm hdrop hserved hsvc 5 _ _ ?_)
  simp only [hmode, hstays, hunused, htotal, hmin, hmax, hoff, hstaging, horder, ne_eq, not_true_eq_false, not_false_eq_true, Bool.not_true,
    Bool.false_eq_true, or_true, and_self, or_self, if_false, if_true]

/-- The last chunk has the complete image checked. -/
theorem exec_patchStage_last (img : Bytes) (st : Nat) (horder : fld m.bytes 8 4 = sofar.length) (hn : total = n) (hmore : sofar.length < n)
    (hlast : n ≤ sofar.length + 48)
    (hrest : zeroAt (slice m.bytes 16 48) (n - sofar.length) (48 - (n - sofar.length)) = true)
    (himg : img = sofar ++ (slice m.bytes 16 48).take (n - sofar.length)) (hst : st = s.patchCheck img) : exec (.patchStage k) s = .next
    (({ s with mbx := { s.mbx with staging := none, staged := if st = 0 then some img else s.mbx.staged } } : State).replied k l i m st []) := by
  subst hn
  have hchunk : s.patchChunk sofar total (slice m.bytes 16 48) =
      (st, [], { s with mbx := { s.mbx with staging := none, staged := if st = 0 then some img else s.mbx.staged } }) := by
    have hleft : min 48 (total - sofar.length) = total - sofar.length := by omega
    have hcomplete : ¬ img.length < total := by
      rw [himg, List.length_append, List.length_take, length_slice]
      omega
    simp only [State.patchChunk, hleft, hrest, ← himg, hcomplete, show total ≠ 0 by omega, ← hst, Bool.true_eq_false, if_false]
  refine congrArg Host.Outcome.next (s.serve_spec k 0x20 _ l i m hl hi hm hdrop hserved hsvc st _ _ ?_)
  simp only [hmode, hstays, hunused, htotal, hmin, hmax, hstaging, horder, hchunk, ne_eq, not_true_eq_false, Bool.not_true,
    Bool.false_eq_true, or_true, and_self, or_self, if_false]
  rw [if_neg (horder ▸ hoff)]

end Services

/-- Settles O55: the mailboxes' control bits, taking and posting, the host's doorbells, then the services one by one. -/
theorem mailboxCommands : Obligations.MailboxCommands := by
  intro s
  refine ⟨fun p k d hclk haon hk hport => ⟨fun hgo hdone => ?go, fun hgo hdone => ?done⟩,
    fun k hk hserved hfull horigin => ⟨?takes, fun hroom => ?overruns⟩,
    exec_mbTake_idle s, fun k b o rest hk hserved hempty => ⟨exec_mbReplyPost_queued s k hk hserved b o rest hempty, fun m l hreplies htaken =>
      exec_mbReplyPost_delivers s k hk hserved m b false o l htaken hempty hreplies⟩, fun k b m o l hk hserved hfull htaken hroom =>
      exec_mbReplyPost_queues s k hk hserved m b false o l htaken hfull hroom, fun p ben d hclk haon => ⟨exec_dbSet_served s p ben d hclk haon, ?restart⟩,
    fun k l i m hl hi hm hdrop hserved => ⟨?echo, ?fwInfo, ?acctQuery, ?partUsage, ?patchStage⟩⟩
  case go =>
    rw [(exec_mbCtl_served s k d p hclk haon hk hport).1, s.mbCtl_go k d hgo hdone]
    refine ⟨fun hin hempty => ?_, fun hbar => ?_⟩
    · rw [if_pos ⟨hin, by rw [hempty]; rfl⟩]
      rfl
    · rw [if_neg (by rcases hbar with h | h <;> simp [h])]
      rfl
  case done =>
    rw [(exec_mbCtl_served s k d p hclk haon hk hport).2, s.mbCtl_done k d hgo hdone]
    refine ⟨fun hout hfull => ?_, fun hbar => ?_⟩
    · rw [if_pos ⟨hout, hfull⟩]
      rfl
    · rw [if_neg (by rcases hbar with h | h <;> simp [h])]
      rfl
  case takes => exact exec_mbTake_takes s k hk hserved hfull horigin
  case overruns =>
    obtain ⟨boxes, hexec⟩ := exec_mbTake_overruns s k hk hserved hfull horigin hroom
    exact ⟨_, hexec, rfl, rfl, rfl⟩
  case restart =>
    refine ⟨fun hport hben hd => ⟨_, s.restarted, rfl, rfl, ?_⟩, fun hport hno => ?_⟩ <;>
      rw [exec_mbxHostRestart_served s p ben d hclk haon hport]
    · rw [hben, hd]
      rfl
    · rw [Bool.and_eq_false_iff.2 hno]
      rfl
  case echo =>
    exact fun hsvc => ⟨exec_echo_returns s k l i m hl hi hm hdrop hserved hsvc, exec_echo_badArg s k l i m hl hi hm hdrop hserved hsvc⟩
  case fwInfo => exact exec_fwInfo_returns s k l i m hl hi hm hdrop hserved
  case acctQuery =>
    exact fun hsvc hrun hunused hzero => ⟨exec_acctQuery_returns s k l i m hl hi hm hdrop hserved hsvc hrun hunused hzero,
      exec_acctQuery_badArg s k l i m hl hi hm hdrop hserved hsvc hrun hunused hzero⟩
  case partUsage =>
    exact fun hsvc => ⟨exec_partUsage_elsewhere s k l i m hl hi hm hdrop hserved hsvc, exec_partUsage_returns s k l i m hl hi hm hdrop hserved hsvc⟩
  case patchStage =>
    refine fun hsvc => ⟨exec_patchStage_elsewhere s k l i m hl hi hm hdrop hserved hsvc, fun total hmode hstays hunused htotal hmin hmax => ⟨?_, ?_⟩⟩
    · exact exec_patchStage_first s k l i m hl hi hm hdrop hserved hsvc total hmode hstays hunused htotal.symm hmin hmax
    · exact fun sofar n img st hoff hstaging => ⟨
        exec_patchStage_misordered s k l i m hl hi hm hdrop hserved hsvc total hmode hstays hunused htotal.symm hmin hmax sofar n hoff hstaging,
        exec_patchStage_last s k l i m hl hi hm hdrop hserved hsvc total hmode hstays hunused htotal.symm hmin hmax sofar n hoff hstaging img st⟩

end Sys2Proof.Machine
end

section
/-! PROOF. PAIR_CMD, link training and authentication (spec/14 R435 to R441): the statement O59. -/

namespace Sys2Proof.Machine

/-! ### A change of the link outside a session (R439) -/

theorem State.session_of_link (s : State) (l : Link) (h : s.pair.link = l) (hr : l ≠ .resync) (hs : l ≠ .synced) : s.session = false := by
  simp only [State.session, h, beq_eq_false_iff_ne.2 hr, beq_eq_false_iff_ne.2 hs, Bool.or_self]

/-- A pair bit is raised: PAIR_STAT's interrupt where it was not set yet. -/
theorem State.pairRise_unless (s : State) (b : Bool) : ∃ irq, (if b then s else s.pairRise) = { s with irq := irq } := by
  cases b with
  | true => exact ⟨s.irq, rfl⟩
  | false => exact ⟨_, s.pairRise_eq⟩

section Outside
variable (s : State) (h : s.session = false)
include h

theorem State.linkReset_ledger : s.linkReset.ledger = s.ledger := by
  obtain ⟨c, irq, hreset⟩ := s.linkReset_eq h
  rw [hreset]

theorem State.linkCheck_ledger : s.linkCheck.ledger = s.ledger := by
  obtain ⟨l, c, irq, lanes, n, p, hcheck⟩ := s.linkCheck_eq h
  rw [hcheck]

theorem State.linkCheck_barred (hbar : s.linkMayRun = false) :
    s.linkCheck.pair.link = .off ∧ s.linkCheck.pins.phyRst = true ∧ s.linkCheck.ledger = s.ledger := by
  obtain ⟨c, irq, hoff⟩ := s.linkTo_eq .off h
  have hcheck : s.linkCheck = { (s.linkTo .off).clearLanes with pins := { (s.linkTo .off).clearLanes.pins with phyRst := true } } := by
    simp only [State.linkCheck, hbar, Bool.false_eq_true, if_false]
  refine ⟨?_, ?_, s.linkCheck_ledger h⟩ <;> rw [hcheck, hoff]
  rfl

/-- The link after a change of identity (R439). -/
def State.relinked (s : State) : State :=
  if s.pair.link = .blocked then (if s.linkMayRun then s.linkReset else s.linkCheck) else s.linkCheck

theorem State.relinked_ledger : s.relinked.ledger = s.ledger := by
  unfold State.relinked
  split
  · split
    · exact s.linkReset_ledger h
    · exact s.linkCheck_ledger h
  · exact s.linkCheck_ledger h

theorem State.setIdent_solo (i : PairId) (wait : Bool) : (s.setIdent i wait).ledger.solo = (s.ledger.solo && i.paired) := by
  have hlinked : ∃ v : State, s.setIdent i wait = v.relinked ∧ v.session = s.session ∧ v.ledger.solo = (s.ledger.solo && i.paired) :=
    ⟨_, rfl, rfl, rfl⟩
  obtain ⟨v, hset, hsession, hsolo⟩ := hlinked
  rw [hset, v.relinked_ledger (hsession.trans h), hsolo]

end Outside

theorem State.linkCheck_of_off (s : State) (hrun : s.linkMayRun = true) (hoff : s.pair.link = .off) : s.linkCheck = s.linkReset := by
  rw [State.linkCheck, if_pos hrun, if_pos hoff]

theorem State.linkCheck_of_running (s : State) (hrun : s.linkMayRun = true) (hon : s.pair.link ≠ .off) : s.linkCheck = s := by
  rw [State.linkCheck, if_pos hrun, if_neg hon]

/-! ### PAIR_CMD (R435) -/

/-- RETRAIN of a link: it resets where it may run, and the operation is done. -/
def State.retrained (s : State) : State :=
  let t := if s.linkMayRun then s.linkReset else s
  let v := { t with pair := { t.pair with cmdDone := true } }
  if t.pair.cmdDone then v else v.pairRise

theorem State.retrained_eq (s : State) (h : s.session = false) (hrun : s.linkMayRun = true) :
    ∃ (c : Bool) (irq : Irq), s.retrained = { s with
        pair := { s.pair with link := .reset, linkChg := c, rxLanes := List.replicate 4 LinkLane.reset, lanes := 0, cmdDone := true }
        irq := irq, pins := { s.pins with phyRst := true } } := by
  obtain ⟨c, irq, hreset⟩ := s.linkReset_eq h
  simp only [State.retrained, hrun, if_true, hreset]
  split
  · exact ⟨c, irq, rfl⟩
  · rw [State.pairRise_eq]
    exact ⟨c, _, rfl⟩

section PairCommand
variable (s : State) (regs : RegFile) (p : Bool) (ben : BitVec 4) (d : Word) (hclk : s.pins.fabClk = true) (haon : s.pins.aonRel = true)
  (hport : s.portErr p false 0xE08 = false) (hben : ben.getLsbD 0 = true)
  (hregs : s.cmdRw 0xE08 s.pair.cmdWait.isSome 0 ben d = { s with regsBlk := regs })
include hclk haon hport hben hregs

theorem State.pairWrite_busy (f : State → State) (hbusy : s.pair.cmdWait ≠ none) :
    s.pairWrite p ben d f = (State.pairRefuse { s with regsBlk := regs } 3).portDone := by
  rw [State.pairWrite, s.portWrite_portDone p 0xE08 ben false _ hclk hport (.inl rfl) haon, ← hregs]
  simp only [hben, Option.isSome_iff_ne_none.2 hbusy, Bool.not_true, Bool.false_eq_true, if_false, if_true]

theorem State.pairWrite_idle (f : State → State) (hidle : s.pair.cmdWait = none) :
    s.pairWrite p ben d f = (f { s with regsBlk := regs }).portDone := by
  rw [State.pairWrite, s.portWrite_portDone p 0xE08 ben false _ hclk hport (.inl rfl) haon, ← hregs]
  simp only [hben, hidle, Option.isSome_none, Bool.not_true, Bool.false_eq_true, if_false]

theorem exec_pairCommand_busy (hbusy : s.pair.cmdWait ≠ none) : ∀ c ∈ [Instr.setIdentity p ben d, .unpair p ben d, .retrain p ben d],
    exec c s = .next (State.pairRefuse { s with regsBlk := regs } 3).portDone := by
  have hwrite (f : State → State) := s.pairWrite_busy regs p ben d hclk haon hport hben hregs f hbusy
  simp only [List.forall_mem_cons, List.not_mem_nil, false_imp_iff, implies_true, and_true]
  exact ⟨congrArg Host.Outcome.next (hwrite _), congrArg Host.Outcome.next (hwrite _), congrArg Host.Outcome.next (hwrite _)⟩

variable (hidle : s.pair.cmdWait = none)
include hidle

/-- A change of identity outside MAINTENANCE. -/
theorem exec_identity_elsewhere (hmode : s.mode.mode ≠ .maintenance) : ∀ c ∈ [Instr.setIdentity p ben d, .unpair p ben d],
    exec c s = .next (State.pairRefuse { s with regsBlk := regs } 1).portDone := by
  have hwrite (f : State → State) := s.pairWrite_idle regs p ben d hclk haon hport hben hregs f hidle
  simp only [List.forall_mem_cons, List.not_mem_nil, false_imp_iff, implies_true, and_true]
  exact ⟨congrArg Host.Outcome.next ((hwrite _).trans (congrArg State.portDone (if_pos hmode))),
    congrArg Host.Outcome.next ((hwrite _).trans (congrArg State.portDone (if_pos hmode)))⟩

theorem exec_setIdentity_inSession (hmode : s.mode.mode = .maintenance) (hin : s.session = true) :
    exec (.setIdentity p ben d) s = .next (State.pairRefuse { s with regsBlk := regs } 2).portDone :=
  congrArg Host.Outcome.next ((s.pairWrite_idle regs p ben d hclk haon hport hben hregs _ hidle).trans
    (congrArg State.portDone ((if_neg (not_not.2 hmode)).trans (if_pos hin))))

theorem exec_setIdentity_taken (hmode : s.mode.mode = .maintenance) (hout : s.session = false) :
    exec (.setIdentity p ben d) s = .next (State.setIdent { s with regsBlk := regs }
      ⟨true, s.aon 0xE04, b2n (bitAt (State.blk { s with regsBlk := regs } 0xE08) 4), false⟩ (s.pair.acctWait || s.mode.fresh)).portDone :=
  congrArg Host.Outcome.next ((s.pairWrite_idle regs p ben d hclk haon hport hben hregs _ hidle).trans
    (congrArg State.portDone ((if_neg (not_not.2 hmode)).trans (if_neg (Bool.eq_false_iff.1 hout)))))

theorem exec_unpair_taken (hmode : s.mode.mode = .maintenance) : exec (.unpair p ben d) s =
    .next (State.setIdent { s with regsBlk := regs } ⟨false, s.pair.ident.pairId, 0, false⟩ false).portDone :=
  congrArg Host.Outcome.next ((s.pairWrite_idle regs p ben d hclk haon hport hben hregs _ hidle).trans
    (congrArg State.portDone (if_neg (not_not.2 hmode))))

theorem exec_retrain_barred (h : s.pair.ident.paired = false ∨ bitAt (s.aon 0xE00) 0 = false) :
    exec (.retrain p ben d) s = .next (State.pairRefuse { s with regsBlk := regs } 4).portDone := by
  have hbar : (!s.pair.ident.paired) = true ∨ (!bitAt (s.aon 0xE00) 0) = true := by simpa only [Bool.not_eq_true'] using h
  exact congrArg Host.Outcome.next ((s.pairWrite_idle regs p ben d hclk haon hport hben hregs _ hidle).trans
    (congrArg State.portDone (if_pos hbar)))

theorem exec_retrain_resets (hpaired : s.pair.ident.paired = true) (hen : bitAt (s.aon 0xE00) 0 = true) (hout : s.session = false)
    (hrun : s.linkMayRun = true) : ∃ (c : Bool) (irq : Irq), exec (.retrain p ben d) s = .next { s with
      pair := { s.pair with link := .reset, linkChg := c, rxLanes := List.replicate 4 LinkLane.reset, lanes := 0, cmdDone := true }
      irq := irq, pins := { s.pins with phyRst := true }, regsBlk := regs, port := ⟨0, false⟩ } := by
  have hexec : exec (.retrain p ben d) s = .next (State.retrained { s with regsBlk := regs }).portDone :=
    congrArg Host.Outcome.next ((s.pairWrite_idle regs p ben d hclk haon hport hben hregs _ hidle).trans
      (congrArg State.portDone (if_neg (by simpa only [Bool.not_eq_true', not_or, Bool.not_eq_false] using ⟨hpaired, hen⟩))))
  obtain ⟨c, irq, hstate⟩ := State.retrained_eq { s with regsBlk := regs } hout hrun
  rw [hstate] at hexec
  exact ⟨c, irq, hexec⟩

end PairCommand

/-! ### Training (R436 to R439) -/

section Training
variable (s : State)

theorem exec_linkResetDone_aligns (hlink : s.pair.link = .reset) (hphy : s.pins.phyRdy = true) : ∃ (c : Bool) (irq : Irq), exec .linkResetDone s =
    .next { s with pair := { s.pair with link := .align, linkChg := c }, irq := irq, pins := { s.pins with phyRst := false } } := by
  obtain ⟨c, irq, halign⟩ := s.linkTo_eq .align (s.session_of_link .reset hlink (by decide) (by decide))
  refine ⟨c, irq, ?_⟩
  change execLinkResetDone s = _
  simp only [execLinkResetDone, hlink, hphy, and_self, if_true, halign]

theorem exec_linkResetDone_idle (h : s.pair.link ≠ .reset ∨ s.pins.phyRdy = false) : exec .linkResetDone s = .next s := by
  change execLinkResetDone s = _
  rcases h with h | h <;> simp only [execLinkResetDone, h, false_and, Bool.false_eq_true, and_false, if_false]

theorem exec_trainRx_authenticates (mask : BitVec 4) (m : Nat) (hlink : s.pair.link = .align) (hready : s.linkReady = true)
    (hset : laneSet s.lockedMask mask.toNat = some m) : ∃ (c : Bool) (irq : Irq), exec (.trainRx mask true) s = .next { s with
      pair := { s.pair with lanes := m, myNonce := (s.drbg 32).1, link := .auth, linkChg := c }, irq := irq, rng := (s.drbg 32).2.rng } := by
  change ∃ (c : Bool) (irq : Irq), Host.Outcome.next (s.train mask.toNat true) = _
  simp only [State.train, hlink, hready, hset, ne_eq, not_true_eq_false, Bool.not_true, Bool.false_eq_true, or_self, if_false]
  obtain ⟨bs, rng, hdraw⟩ := s.drbg_eq 32
  rw [hdraw]
  obtain ⟨c, irq, hauth⟩ := State.linkTo_eq { s with rng := rng, pair := { s.pair with lanes := m, myNonce := bs } } .auth
    (State.session_of_link _ .align hlink (by decide) (by decide))
  exact ⟨c, irq, congrArg Host.Outcome.next hauth⟩

theorem exec_trainRx_idle (mask : BitVec 4) (ready : Bool) (h : s.pair.link ≠ .align ∨ ready = false ∨ s.linkReady = false) :
    exec (.trainRx mask ready) s = .next s := by
  exact congrArg Host.Outcome.next (if_pos (by simpa only [Bool.not_eq_true'] using h))

section Block
variable (lane : Nat) (marker : Option (BitVec 64)) (crcOk : Bool) (payload : List (BitVec 64))

theorem exec_rlkBlockRx_idle (h : 4 ≤ lane ∨ s.pair.link = .off ∨ s.pair.link = .reset) : exec (.rlkBlockRx lane marker crcOk payload) s = .next s := by
  change execRlkBlockRx lane marker crcOk payload s = _
  simp only [execRlkBlockRx, h, if_true]

variable (hlane : lane < 4) (hoff : s.pair.link ≠ .off) (hreset : s.pair.link ≠ .reset)
include hlane hoff hreset

theorem exec_rlkBlockRx_missed (hmark : (marker.getD 0).toNat % 0x10000 ≠ 0xE21D) (hbad : (s.rxLane lane).bad < 3) :
    exec (.rlkBlockRx lane marker crcOk payload) s = .next (s.setLane lane
      { good := 0, bad := (s.rxLane lane).bad + 1, faults := 0, locked := (s.rxLane lane).locked }) := by
  have hlock : (s.rxLane lane).marker false =
      { good := 0, bad := (s.rxLane lane).bad + 1, faults := 0, locked := (s.rxLane lane).locked } := by
    have hless : min 4 ((s.rxLane lane).bad + 1) = (s.rxLane lane).bad + 1 := by omega
    have hfew : ((s.rxLane lane).bad + 1 != 4) = true := bne_iff_ne.2 (by omega)
    simp only [LinkLane.marker, hless, hfew, Bool.false_eq_true, if_false, Bool.and_true]
  change execRlkBlockRx lane marker crcOk payload s = _
  simp only [execRlkBlockRx, Nat.not_le.2 hlane, hoff, hreset, or_self, if_false, beq_eq_false_iff_ne.2 hmark, hlock, Bool.false_and,
    Bool.and_false, Bool.false_eq_true, Bool.and_not_self]

theorem exec_rlkBlockRx_counted (hmark : (marker.getD 0).toNat % 0x10000 = 0xE21D) (htrain : bitsAt (marker.getD 0).toNat 20 4 ≠ 2)
    (hfault : bitsAt (marker.getD 0).toNat 20 4 ≠ 0xF) : exec (.rlkBlockRx lane marker crcOk payload) s = .next { s with
      pair := { s.pair with
        rxLanes := s.pair.rxLanes.set lane { good := min 4 ((s.rxLane lane).good + 1), bad := 0, faults := 0
                                             locked := (s.rxLane lane).locked || min 4 ((s.rxLane lane).good + 1) == 4 }
        crcErr := if (s.rxLane lane).locked && !crcOk then satAdd 0xFFFF s.pair.crcErr 1 else s.pair.crcErr } } := by
  change execRlkBlockRx lane marker crcOk payload s = _
  simp only [execRlkBlockRx, Nat.not_le.2 hlane, hoff, hreset, or_self, if_false, hmark, beq_self_eq_true, beq_eq_false_iff_ne.2 htrain,
    beq_eq_false_iff_ne.2 hfault, LinkLane.marker, if_true, Bool.and_true, Bool.false_and, Bool.and_false, Bool.false_eq_true,
    Bool.not_or, Bool.and_not_self, ← Bool.and_assoc]
  cases (s.rxLane lane).locked && !crcOk <;> rfl

end Block

end Training

/-! ### Authentication (R441) -/

/-- A refused AUTH frame: the bit that names the reason is shown, and the link is BLOCKED. -/
def State.blockFor (s : State) (shown : Bool) (mark : Pair → Pair) : State :=
  let t := if shown then s else s.pairRise
  ({ t with pair := mark t.pair } : State).linkTo .blocked

theorem State.blockFor_eq (s : State) (shown : Bool) (f : Pair → Pair) (hauth : s.pair.link = .auth) (hf : (f s.pair).link = s.pair.link) :
    ∃ (c : Bool) (irq : Irq), s.blockFor shown f = { s with pair := { f s.pair with link := .blocked, linkChg := c }, irq := irq } := by
  obtain ⟨irq, hrise⟩ := s.pairRise_unless shown
  simp only [State.blockFor, hrise]
  obtain ⟨c, irq', hblock⟩ := State.linkTo_eq { s with irq := irq, pair := f s.pair } .blocked
    (State.session_of_link _ .auth (hf.trans hauth) (by decide) (by decide))
  exact ⟨c, irq', hblock⟩

theorem State.authed_eq (s : State) (mode : Nat) (nonce : Bytes) (hauth : s.pair.link = .auth) :
    ∃ (c : Bool) (irq : Irq), s.authed mode nonce = { s with irq := irq, pair := { s.pair with
      link := .resync, linkChg := c, dualActive := s.sealing && activeCode mode, peerActive := activeCode mode
      sk := some (s.sessionKey nonce), txSeq := 2, rxSeq := 0, acksSent := 0, sent := [(1, .snap), (2, .snapEnd)], owed := [], retx := 0
      shadow := none, snapAckRx := false, snapAckTx := false } } := by
  have hrise : ∃ irq, (if (s.sealing && activeCode mode) && !s.pair.dualActive then s.pairRise else s) = { s with irq := irq } := by
    split
    · exact ⟨_, s.pairRise_eq⟩
    · exact ⟨s.irq, rfl⟩
  obtain ⟨irq, hrise⟩ := hrise
  simp only [State.authed, hrise]
  obtain ⟨c, irq', hsync⟩ := State.linkTo_eq { s with irq := irq, pair := { s.pair with
    dualActive := s.sealing && activeCode mode, peerActive := activeCode mode
    sk := some (s.sessionKey nonce), txSeq := 0, rxSeq := 0, acksSent := 0, sent := [], owed := [], retx := 0 } } .resync
    (State.session_of_link _ .auth hauth (by decide) (by decide))
  rw [hsync]
  exact ⟨c, irq', rfl⟩

section AuthFrame
variable (s : State) (header payload tag : Bytes)

theorem exec_authFrameRx_elsewhere (hlink : s.pair.link ≠ .auth) : exec (.authFrameRx header payload tag) s = .next s := by
  change execAuthFrameRx header payload tag s = _
  simp only [execAuthFrameRx, hlink, ne_eq, not_false_eq_true, if_true]

variable (hlink : s.pair.link = .auth)
include hlink

theorem exec_authFrameRx_badTag (hbad : payload.length ≠ 48 ∨ tag ≠ cmac (s.devKey "PRA" []) (header ++ payload)) :
    exec (.authFrameRx header payload tag) s = .next (s.blockFor s.pair.authErr (fun q => { q with authErr := true })) := by
  change execAuthFrameRx header payload tag s = _
  rw [execAuthFrameRx, if_neg (not_not.2 hlink), if_pos hbad]
  rfl

variable (hlen : payload.length = 48) (htag : tag = cmac (s.devKey "PRA" []) (header ++ payload))
include hlen htag

/-- The state after the peer's MODE is noted. -/
def State.peerNoted (s : State) (payload : Bytes) : State := { s with pair := { s.pair with peerMode := fld payload 6 1 % 16 } }

theorem exec_authFrameRx_tagged : exec (.authFrameRx header payload tag) s = .next (
    let s := s.peerNoted payload
    if fld payload 10 2 ≠ 3 then (s.blockFor s.pair.authErr (fun q => { q with authErr := true })).send 0x60 1 0
    else if fld payload 0 4 ≠ s.pair.ident.pairId then s.blockFor s.pair.idMismatch (fun q => { q with idMismatch := true })
    else if fld payload 4 1 = s.pair.ident.inst then
      ((s.blockFor s.pair.instConflict (fun q => { q with instConflict := true })).send 0x60 1 0).barWaiters 0x06
    else s.authed (fld payload 6 1 % 16) (payload.drop 16)) := by
  change execAuthFrameRx header payload tag s = _
  rw [execAuthFrameRx, if_neg (not_not.2 hlink), if_neg (by simp only [hlen, htag, ne_eq, not_true_eq_false, or_self, not_false_eq_true])]
  rfl

end AuthFrame

/-- Settles O59: PAIR_CMD by what refuses it and by its operation, the link's conditions, training, then an AUTH frame by its checks. -/
theorem linkCommands : Obligations.LinkCommands := by
  intro s
  refine ⟨fun u p ben d hclk haon hport hben hu => ?pairCmd, fun v level hv => ?phyRdy, fun hlink hphy => ?aligns, exec_linkResetDone_idle s,
    fun mask m hlink hready hset => ?trains, exec_trainRx_idle s, fun lane marker crcOk payload => ⟨exec_rlkBlockRx_idle s lane marker crcOk payload,
      fun hlane hoff hreset hmark hbad => ?missed, fun m hm hlane hoff hreset hsync htrain hfault => ?counted⟩, rfl, rfl, rfl, fun hout => ?reset,
    exec_authFrameRx_elsewhere s, fun header payload tag hlink => ⟨fun hbad => ?badTag, fun hlen htag => ?tagged⟩⟩
  case pairCmd =>
    obtain ⟨regs, rfl⟩ : ∃ regs, u = { s with regsBlk := regs } := ⟨_, hu.trans (s.cmdRw_eq _ _ _ _ _)⟩
    have hrefused (c : Instr) (n : Nat) (hc : exec c s = .next (State.pairRefuse { s with regsBlk := regs } n).portDone) : ∃ t, exec c s = .next t ∧
        t.pair = { s.pair with cmdRej := true, rejReason := n } ∧ t = { s with regsBlk := regs, pair := t.pair, irq := t.irq, port := ⟨0, false⟩ } := by
      rw [State.pairRefuse_eq] at hc
      exact ⟨_, hc, rfl, rfl⟩
    have hident (c : Instr) (i : PairId) (wait : Bool) (hout : s.session = false)
        (hc : exec c s = .next (State.setIdent { s with regsBlk := regs } i wait).portDone) : ∃ t, exec c s = .next t ∧ t.pair.ident = i ∧
          t.pair.cmdWait = some s.nextSeq ∧ t.persist.change = true ∧ t.ledger.accts = s.ledger.accts ∧
          t.ledger.leases = (if s.inst = (if i.paired then i.inst else 0) then s.ledger.leases else []) ∧
          t.pair.instConflict = false ∧ t.pair.dualActive = false ∧ t.ledger.solo = (s.ledger.solo && i.paired) := by
      obtain ⟨t, ht, hid, hwait, hchange, haccts, hleases, hconf, hdual⟩ := State.setIdent_spec { s with regsBlk := regs } i wait hout
      have hsolo := State.setIdent_solo { s with regsBlk := regs } hout i wait
      rw [ht] at hc hsolo
      exact ⟨t.portDone, hc, hid, hwait, hchange, haccts, hleases, hconf, hdual, hsolo⟩
    have hset := exec_setIdentity_taken s regs p ben d hclk haon hport hben hu.symm
    have hunpair := exec_unpair_taken s regs p ben d hclk haon hport hben hu.symm
    refine ⟨fun c n hn => hrefused c n ?_, fun hidle hout => ⟨fun hmaint c i hc => ?_, fun hmaint => ?_, fun hpaired hen hrun => ?_⟩,
      fun hidle hmaint => hunpair hidle hmaint⟩
    · rcases hn with ⟨hc, hb, rfl⟩ | ⟨hc, hidle, hmode, rfl⟩ | ⟨rfl, hidle, hmaint, hin, rfl⟩ | ⟨rfl, hidle, hno, rfl⟩
      · exact exec_pairCommand_busy s regs p ben d hclk haon hport hben hu.symm hb c hc
      · exact exec_identity_elsewhere s regs p ben d hclk haon hport hben hu.symm hidle hmode c hc
      · exact exec_setIdentity_inSession s regs p ben d hclk haon hport hben hu.symm hidle hmaint hin
      · exact exec_retrain_barred s regs p ben d hclk haon hport hben hu.symm hidle hno
    · rcases hc with ⟨rfl, rfl⟩ | ⟨rfl, rfl⟩
      · exact hident _ _ _ hout (hset hidle hmaint hout)
      · exact hident _ _ _ hout (hunpair hidle hmaint)
    · obtain ⟨t, hexec, hid, hwait, -⟩ := hident _ _ _ hout (hset hidle hmaint hout)
      exact ⟨t, hexec, hid, hwait⟩
    · obtain ⟨c, irq, hexec⟩ := exec_retrain_resets s regs p ben d hclk haon hport hben hu.symm hidle hpaired hen hout hrun
      exact ⟨_, hexec, rfl, rfl, rfl, rfl, rfl⟩
  case phyRdy =>
    subst hv
    refine ⟨rfl, fun hlevel hout => State.linkCheck_barred _ hout ?_, fun hrun hoff => ?_, fun hrun hon => State.linkCheck_of_running _ hrun hon⟩
    · simp only [State.linkMayRun, hlevel, Bool.and_false, Bool.false_and]
    · rw [State.linkCheck_of_off _ hrun hoff]
      obtain ⟨c, irq, hreset⟩ := State.linkReset_eq { s with pins := { s.pins with phyRdy := level } }
        (State.session_of_link _ .off hoff (by decide) (by decide))
      rw [hreset]
      exact ⟨rfl, rfl⟩
  case aligns =>
    obtain ⟨c, irq, hexec⟩ := exec_linkResetDone_aligns s hlink hphy
    exact ⟨_, hexec, rfl, rfl, rfl⟩
  case trains =>
    obtain ⟨c, irq, hexec⟩ := exec_trainRx_authenticates s mask m hlink hready hset
    exact ⟨_, hexec, rfl, rfl, rfl, rfl⟩
  case missed =>
    refine exec_rlkBlockRx_missed s lane marker crcOk payload hlane hoff hreset ?_ hbad
    cases marker with
    | none => decide
    | some m => exact hmark m rfl
  case counted =>
    subst hm
    exact exec_rlkBlockRx_counted s lane (some m) crcOk payload hlane hoff hreset hsync htrain hfault
  case reset =>
    obtain ⟨c, irq, hreset⟩ := s.linkReset_eq hout
    rw [hreset]
    exact ⟨rfl, rfl, rfl, rfl⟩
  case badTag =>
    obtain ⟨c, irq, hblock⟩ := s.blockFor_eq s.pair.authErr (fun q => { q with authErr := true }) hlink rfl
    have hexec := exec_authFrameRx_badTag s header payload tag hlink hbad
    rw [hblock] at hexec
    exact ⟨_, hexec, rfl, rfl, rfl⟩
  case tagged =>
    have hexec := exec_authFrameRx_tagged s header payload tag hlink hlen htag
    have hblock := (s.peerNoted payload).blockFor_eq (hauth := hlink)
    refine ⟨fun hver => ?_, fun hver hid => ?_, fun hver hid hinst hwait => ?_, fun hver hid hinst => ?_⟩
    · have hrefused := hexec.trans (congrArg Host.Outcome.next (if_pos hver))
      obtain ⟨c, irq, hblocked⟩ := hblock (s.peerNoted payload).pair.authErr (fun q => { q with authErr := true }) rfl
      rw [hblocked] at hrefused
      exact ⟨_, hrefused, rfl, rfl, rfl⟩
    · have hrefused := hexec.trans (congrArg Host.Outcome.next ((if_neg (not_not.2 hver)).trans (if_pos hid)))
      obtain ⟨c, irq, hblocked⟩ := hblock (s.peerNoted payload).pair.idMismatch (fun q => { q with idMismatch := true }) rfl
      rw [hblocked] at hrefused
      exact ⟨_, hrefused, rfl, rfl, rfl⟩
    · have hrefused := hexec.trans (congrArg Host.Outcome.next ((if_neg (not_not.2 hver)).trans ((if_neg (not_not.2 hid)).trans (if_pos hinst))))
      obtain ⟨c, irq, hblocked⟩ := hblock (s.peerNoted payload).pair.instConflict (fun q => { q with instConflict := true }) rfl
      have hbar (t : State) (ht : t.reqs = s.reqs) : t.barWaiters 0x06 = t := t.barWaiters_of_no_wait _ (ht ▸ hwait)
      rw [hblocked, hbar] at hrefused
      · exact ⟨_, hrefused, rfl, rfl, rfl⟩
      · rfl
    · have haccepted := hexec.trans (congrArg Host.Outcome.next ((if_neg (not_not.2 hver)).trans ((if_neg (not_not.2 hid)).trans (if_neg hinst))))
      obtain ⟨c, irq, hstate⟩ := (s.peerNoted payload).authed_eq (fld payload 6 1 % 16) (payload.drop 16) hlink
      rw [hstate] at haccepted
      exact ⟨_, haccepted, rfl, rfl, rfl, rfl, rfl, rfl, rfl, rfl⟩

end Sys2Proof.Machine
end

section
/-! PROOF. Received grafts, acknowledgements, heartbeats and their timers (spec/14 R440, R443 to R453): the statement O60. -/

namespace Sys2Proof.Machine

/-! ### Grafts that change nothing (R443, R444, R449) -/

section Ignored
variable (s : State) (gseq : Nat) (fp : Bytes) (epoch lgid inst hwm : Nat) (ids : List (Bytes × Nat × Nat)) (slot : Nat) (x : HwSlot)
  (scope : EraseScope) (part : Nat) (kek : Bytes) (rec : Option PartRec) (q : QueueRec) (id : PairId) (snap : Snapshot) (n : Nat)

/-- The grafts that a FOLLOWER alone takes. -/
def configGrafts : List Instr :=
  [.purgeGraft gseq ids, .slotGraft gseq slot x, .eraseGraft gseq scope, .kekGraft gseq part kek, .partGraft gseq part rec, .queueGraft gseq q]

theorem exec_configGraft_ignored (h : s.session = false ∨ s.follows = false ∨ gseq ≠ s.pair.rxSeq + 1) :
    ∀ c ∈ configGrafts gseq ids slot x scope part kek rec q, exec c s = .next s := by
  have hskip (f : State → State) : Host.Outcome.next (s.rxGraft gseq s.follows f) = (.next s : Result) :=
    congrArg Host.Outcome.next (s.rxGraft_ignored gseq s.follows f h)
  simp only [configGrafts, List.forall_mem_cons, List.not_mem_nil, false_imp_iff, implies_true, and_true]
  exact ⟨hskip _, hskip _, hskip _, hskip _, hskip _, hskip _⟩

theorem exec_graft_ignored (h : s.session = false ∨ gseq ≠ s.pair.rxSeq + 1) :
    ∀ c ∈ [Instr.retireGraft gseq fp epoch lgid inst, .purgeGraft gseq ids, .slotGraft gseq slot x, .eraseGraft gseq scope,
      .kekGraft gseq part kek, .partGraft gseq part rec, .queueGraft gseq q, .identGraft gseq id, .snapGraft gseq snap,
      .snapEndGraft gseq n, .handoverGraft gseq], exec c s = .next s := by
  have hskip (b : Bool) (f : State → State) : Host.Outcome.next (s.rxGraft gseq b f) = (.next s : Result) :=
    congrArg Host.Outcome.next (s.rxGraft_ignored gseq b f (h.imp_right .inr))
  simp only [List.forall_mem_cons, List.not_mem_nil, false_imp_iff, implies_true, and_true]
  exact ⟨hskip _ _, hskip _ _, hskip _ _, hskip _ _, hskip _ _, hskip _ _, hskip _ _, hskip _ _, hskip _ _, hskip _ _, hskip _ _⟩

theorem exec_leaseGraft_ignored (h : s.session = false) : exec (.leaseGraft gseq fp epoch lgid inst hwm) s = .next s := by
  change execLeaseGraft gseq fp epoch lgid inst hwm s = _
  simp only [execLeaseGraft, h, Bool.false_eq_true, false_and, if_false, s.rxGraft_ignored gseq _ _ (.inl h)]

end Ignored

/-! ### Grafts that are applied (R444, R450, R451) -/

section Applied
variable (s w : State) (gseq : Nat) (hw : w = { s with pair := { s.pair with rxSeq := gseq } }) (hin : s.session = true)
  (hnext : gseq = s.pair.rxSeq + 1)
include hw hin hnext

/-- An applied graft is acknowledged, and may be the last that RESYNC waits for. -/
theorem State.rxGraft_applied (takes : Bool) (f : State → State) (t : State) (htakes : takes = true) (hf : f w = t) :
    s.rxGraft gseq takes f = t.ackUp.trySync := by
  rw [s.rxGraft_taken gseq takes f hin htakes hnext, ← hw, hf]

theorem exec_leaseGraft_applied (fp : Bytes) (epoch lgid inst hwm : Nat) (u : State) (hrun : s.running = true)
    (hu : u = w.mergeAcct (acctSetHwm (acctNew fp epoch lgid) inst hwm)) : exec (.leaseGraft gseq fp epoch lgid inst hwm) s =
      .next (if u.cannotPersist ∨ (u.acctFind fp epoch lgid).isNone then u.nak gseq else u.oweAck gseq false).ackUp.trySync := by
  have hfresh : ¬ gseq ≤ s.pair.rxSeq := by omega
  change execLeaseGraft gseq fp epoch lgid inst hwm s = _
  rw [execLeaseGraft, if_neg (fun h => hfresh h.2.1)]
  exact congrArg Host.Outcome.next (s.rxGraft_applied w gseq hw hin hnext _ _ _ hrun (by rw [← hu]))

theorem exec_accountGraft_applied (fp : Bytes) (epoch lgid inst : Nat) (id : PairId) (hrun : s.running = true) :
    exec (.retireGraft gseq fp epoch lgid inst) s = .next (w.mergeAcct (acctSetRet (acctNew fp epoch lgid) inst)).ackUp.trySync ∧
    exec (.identGraft gseq id) s = .next ({ w with pair := { w.pair with peerActive := !id.standby } } : State).ackUp.trySync :=
  ⟨congrArg Host.Outcome.next (s.rxGraft_applied w gseq hw hin hnext _ _ _ hrun rfl),
    congrArg Host.Outcome.next (s.rxGraft_applied w gseq hw hin hnext _ _ _ hrun rfl)⟩

theorem exec_handoverGraft_applied (hrun : s.running = true) (hshown : s.pair.handover = true) (hone : s.pair.dualActive = false) :
    exec (.handoverGraft gseq) s = .next ({ w with pair := { w.pair with handover := true, peerActive := false } } : State).ackUp.trySync := by
  have hshown' : w.pair.handover = true := by rw [hw]; exact hshown
  have hone' : w.pair.dualActive = false := by rw [hw]; exact hone
  refine congrArg Host.Outcome.next (s.rxGraft_applied w gseq hw hin hnext _ _ _ hrun ?_)
  simp only [hshown', hone', if_true, Bool.false_eq_true, if_false]

section Config
variable (hfollows : s.follows = true)
include hfollows

/-- A configuration graft whose effect is `f`. -/
theorem State.configGraft_applied (f : State → State) : Host.Outcome.next (s.rxGraft gseq s.follows f) = (.next (f w).ackUp.trySync : Result) :=
  congrArg Host.Outcome.next (s.rxGraft_applied w gseq hw hin hnext _ f _ hfollows rfl)

theorem exec_keyGraft_applied (slot : Nat) (x : HwSlot) (part : Nat) (kek : Bytes) (gs : List Nat) :
    exec (.slotGraft gseq slot x) s = .next (w.takeSlot slot x).ackUp.trySync ∧
    exec (.kekGraft gseq part kek) s = .next (w.takeKek part kek).ackUp.trySync ∧
    exec (.eraseGraft gseq (.slots gs)) s = .next ((w.eraseSlots gs).oweAck gseq false).ackUp.trySync ∧
    exec (.eraseGraft gseq (.part part)) s = .next ((w.wipePart part).oweAck gseq false).ackUp.trySync ∧
    exec (.eraseGraft gseq .all) s = .next (w.wipeAll.oweAck gseq false).ackUp.trySync := by
  have happlied := s.configGraft_applied w gseq hw hin hnext hfollows
  exact ⟨happlied _, happlied _, happlied _, happlied _, happlied _⟩

theorem exec_purgeGraft_applied (ids : List (Bytes × Nat × Nat)) : exec (.purgeGraft gseq ids) s =
    .next (ids.foldl (fun u i => (u.acctFind i.1 i.2.1 i.2.2).elim u u.dropAcct) w).ackUp.trySync :=
  s.configGraft_applied w gseq hw hin hnext hfollows _

theorem exec_partGraft_places (part : Nat) (r : PartRec) : exec (.partGraft gseq part (some r)) s = .next (((({ w with
    parts := Store.put w.parts part (takePart (w.part part) r) } : State).resetV part).dirty 0).dirty 1).ackUp.trySync :=
  s.configGraft_applied w gseq hw hin hnext hfollows _

theorem exec_partGraft_destroys (part : Nat) (v : State) (hv : v = ((w.wipePart part).dirty 0).dirty 1) :
    exec (.partGraft gseq part none) s = .next (({ v with parts := Store.del v.parts part } : State).oweAck gseq false).ackUp.trySync := by
  subst hv
  exact s.configGraft_applied w gseq hw hin hnext hfollows _

theorem exec_queueGraft_places (part qid : Nat) (c : QueueCfg) : exec (.queueGraft gseq ⟨part, qid, some c⟩) s =
    .next ((w.updPart part (fun y => y.takeQueue qid c)).dirty 1).ackUp.trySync :=
  s.configGraft_applied w gseq hw hin hnext hfollows _

theorem exec_queueGraft_destroys (part qid : Nat) : exec (.queueGraft gseq ⟨part, qid, none⟩) s =
    .next ((w.updPart part (fun y => { y with queues := Store.del y.queues qid })).dirty 1).ackUp.trySync :=
  s.configGraft_applied w gseq hw hin hnext hfollows _

end Config

/-! #### Resynchronisation (R450) -/

section Snapshot
variable (hsync : s.pair.link = .resync)
include hsync

/-- A snapshot graft whose effect is `t`. -/
theorem State.snapshotGraft_applied (f : State → State) (t : State) (hf : f w = t) :
    Host.Outcome.next (s.rxGraft gseq (s.pair.link == .resync) f) = (.next t.ackUp.trySync : Result) :=
  congrArg Host.Outcome.next (s.rxGraft_applied w gseq hw hin hnext _ f t (by rw [hsync]; rfl) hf)

section Snap
variable (snap : Snapshot) (u : State) (hu : u = snap.accts.foldl State.mergeAcct w)
include hu

theorem exec_snapGraft_shadows (hfollows : u.follows = true) (hactive : u.pair.peerActive = true) (hcfg : snap.config.isSome = true) :
    exec (.snapGraft gseq snap) s = .next ({ u with pair := { u.pair with shadow := some snap } } : State).ackUp.trySync := by
  refine s.snapshotGraft_applied w gseq hw hin hnext hsync _ _ ?_
  rw [← hu]
  exact if_pos ⟨hfollows, hactive, hcfg⟩

theorem exec_snapGraft_merges (hleads : u.follows = false) : exec (.snapGraft gseq snap) s = .next u.ackUp.trySync := by
  refine s.snapshotGraft_applied w gseq hw hin hnext hsync _ _ ?_
  rw [← hu]
  exact if_neg (fun h => Bool.eq_false_iff.1 hleads h.1)

end Snap

theorem exec_snapEndGraft_commits (n : Nat) (img : Image) (himg : s.pair.shadow.bind (·.config) = some img) (hfollows : s.follows = true) :
    exec (.snapEndGraft gseq n) s = .next ((w.commit img).oweAck gseq true).ackUp.trySync := by
  have himg' : w.pair.shadow.bind (·.config) = some img := by rw [hw]; exact himg
  have hfollows' : w.follows = true := by rw [hw]; exact hfollows
  refine s.snapshotGraft_applied w gseq hw hin hnext hsync _ _ ?_
  simp only [himg', hfollows', if_true]

theorem exec_snapEndGraft_acknowledges (n : Nat) (hnone : s.pair.shadow = none) :
    exec (.snapEndGraft gseq n) s = .next ({ w with pair := { w.pair with snapAckTx := true } } : State).ackUp.trySync := by
  have hnone' : w.pair.shadow = none := by rw [hw]; exact hnone
  refine s.snapshotGraft_applied w gseq hw hin hnext hsync _ _ ?_
  simp only [hnone', Option.bind_none]

end Snapshot

end Applied

/-! ### Acknowledgements (R443, R445) -/

section Acks
variable (s : State) (gseq : Nat)

theorem exec_ack_outside (h : s.session = false) :
    exec (.ackFrameRx gseq) s = .next s ∧ exec (.nakFrameRx gseq) s = .next s ∧ exec .graftRetxExpiry s = .next s := by
  have hout : (!s.session) = true := by rw [h]; rfl
  exact ⟨congrArg Host.Outcome.next (if_pos hout), congrArg Host.Outcome.next (if_pos (.inl hout)), congrArg Host.Outcome.next (if_pos (.inl hout))⟩

/-- The grafts that an ACK frame acknowledges. -/
def State.acknowledged (s : State) (gseq : Nat) : List (Nat × GraftBody) := s.pair.sent.filter (fun g => decide (g.1 ≤ gseq))

theorem State.mem_acknowledged (g : Nat × GraftBody) : g ∈ s.acknowledged gseq ↔ g ∈ s.pair.sent ∧ g.1 ≤ gseq := by
  rw [State.acknowledged, List.mem_filter, decide_eq_true_iff]

theorem exec_ackFrameRx_acknowledges (hin : s.session = true) : ∃ u : State, exec (.ackFrameRx gseq) s = .next u.settleAcks.tryLeave.trySync ∧
    u.pair.sent = s.pair.sent.filter (fun g => decide (gseq < g.1)) ∧
    u.ledger.leases = s.ledger.leases.map (fun (l : Lease) => { l with grafted := l.grafted || l.graft.elim false (fun n => decide (n ≤ gseq)) }) ∧
    u.pair.peerPdown = (s.pair.peerPdown && !((s.acknowledged gseq).any (fun g => g.2.isLease))) ∧
    u.pair.retx = (if (s.acknowledged gseq).isEmpty then s.pair.retx else 0) ∧
    u.pair.snapAckRx = (s.pair.snapAckRx || (s.acknowledged gseq).any (fun g => g.2 == .snapEnd)) ∧
    u = { s with reqs := u.reqs, parts := u.parts, hw := u.hw, ledger := u.ledger, pair := u.pair } := by
  have hout : ¬ (!s.session) = true := by rw [hin]; decide
  exact ⟨_, congrArg Host.Outcome.next (if_neg hout), rfl, rfl, rfl, rfl, rfl, rfl⟩

theorem State.acknowledged_any (p : GraftBody → Bool) :
    (s.acknowledged gseq).any (fun g => p g.2) = s.pair.sent.any (fun g => decide (g.1 ≤ gseq) && p g.2) := by
  rw [State.acknowledged, List.any_filter]

theorem exec_nakFrameRx_alone (hin : s.session = true) (hlease : ∃ g ∈ s.pair.sent, g.1 = gseq ∧ g.2.isLease = true)
    (hstrict : s.strictPair = false) : exec (.nakFrameRx gseq) s = .next { s with
      pair := { s.pair with sent := s.pair.sent.filter (fun g => g.1 != gseq), peerPdown := true }
      ledger := { s.ledger with
        solo := true
        leases := s.ledger.leases.map (fun (l : Lease) => if l.graft = some gseq then { l with graft := none } else l) } } := by
  have hsent : s.pair.sent.any (fun g => g.1 == gseq && g.2.isLease) = true := by
    simpa only [List.any_eq_true, Bool.and_eq_true, beq_iff_eq] using hlease
  change execNakFrameRx gseq s = _
  simp only [execNakFrameRx, hin, hsent, hstrict, Bool.not_true, Bool.false_eq_true, or_self, if_false, Bool.not_false, Bool.or_true]
  exact congrArg Host.Outcome.next (if_neg (Bool.eq_false_iff.1 hstrict))

theorem exec_graftRetxExpiry_sent (hin : s.session = true) (hsent : s.pair.sent ≠ []) : exec .graftRetxExpiry s =
    .next (if 8 ≤ s.pair.retx then s.linkAlign
      else { s with pair := { s.pair with retx := s.pair.retx + 1, retxCnt := satAdd 0xFFFF s.pair.retxCnt s.pair.sent.length } }) := by
  have hbar : ¬ ((!s.session) = true ∨ s.pair.sent.isEmpty = true) := by simp [hin, hsent]
  exact congrArg Host.Outcome.next (if_neg hbar)

end Acks

/-- Settles O60: each graft by whether it is applied, then the frames and timers of the session. -/
theorem receivedFrames : Obligations.ReceivedFrames := by
  intro s w gseq hw
  refine ⟨fun fp epoch lgid inst hwm ids slot x scope part kek rec q id snap n => ⟨?ignored, ?leaseOut, ?leads,
      fun hin hnext => ⟨?lease, ?running, ?follows, ?resync⟩⟩,
    exec_ack_outside s gseq, fun hin => ?ack, exec_nakFrameRx_alone s gseq, rfl, ?synced, ?unsynced, fun hin hsent => ?retx⟩
  case ignored => exact exec_graft_ignored s gseq fp epoch lgid inst ids slot x scope part kek rec q id snap n
  case leaseOut => exact exec_leaseGraft_ignored s gseq fp epoch lgid inst hwm
  case leads => exact fun h => exec_configGraft_ignored s gseq ids slot x scope part kek rec q (.inr (.inl h))
  case lease => exact exec_leaseGraft_applied s w gseq hw hin hnext fp epoch lgid inst hwm
  case running =>
    intro hrun
    obtain ⟨hretire, hident⟩ := exec_accountGraft_applied s w gseq hw hin hnext fp epoch lgid inst id hrun
    exact ⟨hretire, hident, exec_handoverGraft_applied s w gseq hw hin hnext hrun⟩
  case follows =>
    intro hfollows
    have hkeys := exec_keyGraft_applied s w gseq hw hin hnext hfollows slot x part kek
    obtain ⟨hslot, hkek, -, hpart, hall⟩ := hkeys []
    refine ⟨exec_purgeGraft_applied s w gseq hw hin hnext hfollows ids, hslot, fun gs => ?_, hpart, hall, hkek,
      exec_partGraft_places s w gseq hw hin hnext hfollows part, exec_partGraft_destroys s w gseq hw hin hnext hfollows part,
      exec_queueGraft_places s w gseq hw hin hnext hfollows q.part q.qid, exec_queueGraft_destroys s w gseq hw hin hnext hfollows q.part q.qid⟩
    obtain ⟨-, -, hslots, -, -⟩ := hkeys gs
    exact hslots
  case resync =>
    intro hsync
    exact ⟨exec_snapGraft_shadows s w gseq hw hin hnext hsync snap, exec_snapGraft_merges s w gseq hw hin hnext hsync snap,
      exec_snapEndGraft_commits s w gseq hw hin hnext hsync n, exec_snapEndGraft_acknowledges s w gseq hw hin hnext hsync n⟩
  case ack =>
    obtain ⟨u, hexec, hsent, hleases, hdown, hretx, hsnap, hframe⟩ := exec_ackFrameRx_acknowledges s gseq hin
    refine ⟨u, hexec, hsent, hleases, hdown.trans (by rw [s.acknowledged_any gseq (·.isLease)]), fun hany => ?_, fun hany => ?_, hframe⟩
    · obtain ⟨g, hg⟩ := hany
      rw [hretx, if_neg fun hempty => List.ne_nil_of_mem ((s.mem_acknowledged gseq g).2 hg) (List.isEmpty_iff.1 hempty)]
    · obtain ⟨g, hg, hle, hend⟩ := hany
      have hlast : (s.acknowledged gseq).any (fun g => g.2 == .snapEnd) = true :=
        List.any_eq_true.2 ⟨g, (s.mem_acknowledged gseq g).2 ⟨hg, hle⟩, beq_iff_eq.2 hend⟩
      rw [hsnap, hlast, Bool.or_true]
  case synced => exact fun hlink => ⟨congrArg Host.Outcome.next (if_pos hlink), congrArg Host.Outcome.next (if_pos hlink)⟩
  case unsynced => exact fun hlink => ⟨congrArg Host.Outcome.next (if_neg hlink), congrArg Host.Outcome.next (if_neg hlink)⟩
  case retx =>
    rw [exec_graftRetxExpiry_sent s hin hsent]
    exact ⟨fun hfew => by rw [if_neg (Nat.not_le.2 hfew)], fun hmany => by rw [if_pos hmany]⟩

end Sys2Proof.Machine
end
